-- ==== Sys2Proof/Syntax.lean ====
section
/-! DEFINITION. The commands the Crown takes: one constructor of `Instr` per row of spec/opcode_table.json, with the
operands its rule names. The table gives no operand fields and no bits; the operands are read from the rule beside each
row (log entry 2). Leaves, twigs, stands, limbs and knots carry the logical numbers of R19, R302 and R162. -/

namespace Sys2Proof

/-- The two Heartwoods (R323): A on I/O-0 and B on I/O-1. -/
inductive Side where
  | a
  | b
deriving DecidableEq, Repr

/-- The path a register access or a request arrives on (R4, R324, R421). -/
inductive Origin where
  | pf0
  | i3c
  | csrWrite
  | heartwood (h : Side)
  | vf (stand : Nat)
deriving DecidableEq, Repr

/-- The three clock-enable sets of R55. -/
inductive GateSet where
  | run
  | sleep
  | deep
deriving DecidableEq, Repr

/-- What the error-correction code of R201 finds in one stored line. -/
inductive LineErr where
  | clean
  | single (symbol : Nat)
  | uncorrectable
deriving DecidableEq, Repr

/-- A window access of the host (R184, R190): a write of bytes or a read of a length. -/
inductive BarOp where
  | read (len : Nat)
  | write (data : List Byte)
deriving DecidableEq, Repr

/-- The 64-byte packet header of R238 with its payload. `srcLimb` holds bits [4:0] of the route byte and `target` its bits [6:5];
`reserved` holds every reserved bit of the header taken together. -/
structure Packet where
  type      : Nat
  flags     : Nat
  dstStand  : Nat
  srcStand  : Nat
  srcLimb   : Nat
  target    : Nat
  dstNode   : Nat
  dstEpoch  : Nat
  srcNode   : Nat
  srcEpoch  : Nat
  srcRank   : Nat
  group     : Nat
  length    : Nat
  knot      : Nat
  knotOp    : Nat
  knotValue : Nat
  remote    : Nat
  opId      : Nat
  channel   : Nat
  reserved  : Nat
  inject    : Nat
  pktIndex  : Nat
  pktCount  : Nat
  deliverBy : Nat
  coll      : Nat
  payload   : List Byte
deriving DecidableEq, Repr

/-- The outcome of the cryptographic and flash checks on a header (R446 results 6, 7 and 9). -/
structure HeaderCheck where
  signatures : Bool
  unwraps    : Bool
  flashOk    : Bool
deriving DecidableEq, Repr

/-- A packet as a limb hands it to its NI: the limb (18 and 19 are the loopback paths of the NIs, R288), the key index it came under
(R223; 16 for the management key), whether the LATE flag of R220 is set, whether its flits were scheduled (R238), whether its sender flagged it
OFFSCHED (R254), the bytes of padding at the end of its decoded payload (R290; log entry 35), and, put there by CHAIN_RECEIVE, what the checks of the
header it completes say (R446). Where FLIT_RECEIVE has handed over a packet of
the limb, its key index, its LATE flag and its class are those of its flits, whatever these fields say (log entry 81). -/
structure Rx where
  limb     : Nat
  keyIndex : Nat
  late     : Bool
  sched    : Bool
  off      : Bool := false
  pad      : Nat := 0
  chk      : HeaderCheck := ⟨false, false, false⟩
  pkt      : Packet
deriving DecidableEq, Repr

/-- The capability record of a CAP flit (R226, *Capability record*). -/
structure Cap where
  llp        : Nat
  cls        : Nat
  limb       : Nat
  node       : Nat
  nodeEpoch  : Nat
  domainTag  : Nat
  reach      : Nat
  period     : Nat
  epochValid : Bool
  lanes      : Nat
deriving DecidableEq, Repr

/-- A ring alignment marker (R233), with the retry bit of its flit (R234). -/
structure Marker where
  ringTime   : Nat
  period     : Nat
  epochValid : Bool
  node       : Nat
  nodeEpoch  : Nat
  domainTag  : Nat
  retry      : Bool
deriving DecidableEq, Repr

/-- A received flit: its 200 bytes (R213), what FEC made of its codeword (R216), whether it is the compensation flit its sender owes and
what the elastic stage holds at it (R235), and, for the last flit of a packet, whether the packet's tag verifies (R224; log entry 30). -/
structure Flit where
  bytes            : List Byte
  fecCorrected     : Bool
  fecUncorrectable : Bool
  comp     : Bool
  tagOk    : Bool
  occupancy : Nat
deriving DecidableEq, Repr

/-- What Taproot's signature, tag and digest checks of R458 find in one flash bank. The keys and digests are outside the
model, so their outcome comes with the command (log entry 30). -/
structure BankCheck where
  header  : Bool
  support : Bool
  imageA  : Bool
  imageB  : Bool
deriving DecidableEq, Repr

/-- A RACK_SYNC pulse as it was sampled (R35): its high samples in a row, and whether it is recognized in the reference cycle in which a reference
failure is declared (R63). -/
structure Pulse where
  high    : Nat
  failing : Bool
deriving DecidableEq, Repr

/-- A word of a knot, and the lclk in which the access to it is issued (R174). -/
structure WordAt where
  word : Nat
  t    : Nat
deriving DecidableEq, Repr

/-- An NI, and the I/O fabric cycle of the ring in progress in which the first flit it sends leaves (R242). -/
structure Departure where
  io    : Nat
  cycle : Nat
deriving DecidableEq, Repr

/-- The commands. -/
inductive Instr where
  | vinApplied
  | vinLost
  | holdupCommitDone
  | vauxRise
  | vauxLoss
  | warmRstNAssert
  | warmRstNDeassert
  | idResetWrite (o : Origin) (v : Word)
  | idResetEffect
  | perstNAssert
  | pcieHotReset
  | pcieFlr (stand : Nat)
  | vfEnableChange (enable : Bool) (numVfs : Nat)
  | pmcsrWrite (d3 : Bool) (pmeEn : Bool) (clearPme : Bool)
  | pmeTurnOff
  | pmPmeSend
  | regulationUp
  | refEdgesPresent
  | ioscTrimDone (trim : Nat)
  | monitorWindowsPassed
  | taprootStageDone (bank0 : BankCheck) (bank1 : BankCheck)
  | heartwoodReady (h : Side)
  | tokenBFallback
  | clockStageDone
  | hbmStageDone (failedTwice : Nat)
  | bringupStageTimeout (cause : Nat)
  | leafStageStart
  | leafWaveEnable (wave : Nat)
  | leafWaveScanDone (wave : Nat) (failed : List (Nat × Nat))
  | bringupComplete (bootMs : Nat)
  | syncPulse (pulse : Pulse)
  | slotBoundary (slot : Nat)
  | guardBand
  | ringBoundary
  | faultEntryFree (entry : Nat)
  | monitorWindowEnd (count : Nat)
  | edgeTimeout
  | pllUnlock
  | pllLock
  | safeHoldEnter
  | clkGateWrite (set : GateSet) (v : Word)
  | registerWrite (o : Origin) (addr : Nat) (size : Nat) (v : Word)
  | cqDoorbellTail (stand queue : Nat) (v : Word) (lastQuarter : Bool)
  | cqResume (stand queue : Nat) (v : Word) (lastQuarter : Bool)
  | descriptorFetch (stand queue : Nat)
  | nop (leaf : Nat)
  | matmul (leaf : Nat)
  | accSave (leaf : Nat)
  | accRestore (leaf : Nat)
  | vecMap (leaf : Nat)
  | vecSfu (leaf : Nat)
  | vecReduce (leaf : Nat)
  | attnInit (leaf : Nat)
  | attnTile (leaf : Nat)
  | attnFinal (leaf : Nat)
  | attnSave (leaf : Nat)
  | attnLoad (leaf : Nat)
  | moveLocal (leaf : Nat)
  | moveRemote (leaf : Nat) (upsets : List (Nat × LineErr))
  | subdescComplete (leaf : Nat) (t : Nat)
  | commandComplete (stand queue index : Nat)
  | leafPacketAtRouter (twig phys stamp : Nat)
  | twigRemapWrite (o : Origin) (v : Word)
  | twigRestoreWrite (o : Origin) (v : Word)
  | remapApply
  | restoreBistDone (pass : Bool)
  | idLeafResetWrite (o : Origin) (v : Word)
  | leafReset (leaf : Nat)
  | twigBbufRegionWrite (bough stand : Nat) (v : Word)
  | knotAdd (o : Origin) (knot : Nat) (data : Nat) (t : Nat)
  | knotSet (o : Origin) (knot : Nat) (data : Nat) (t : Nat)
  | knotSignal (o : Origin) (knot : Nat) (data : Nat) (t : Nat)
  | knotArrive (o : Origin) (knot : Nat) (t : Nat)
  | knotThreshWrite (o : Origin) (knot : Nat) (v : Word) (t : Nat)
  | knotConfigWrite (o : Origin) (knot : Nat) (v : Word) (t : Nat)
  | knotTest (o : Origin) (knot : Nat) (word : WordAt)
  | knotUpdateApply (knot : Nat) (t : Nat)
  | knotRefire (knot : Nat) (t : Nat)
  | mirrorApply (knot : Nat) (t : Nat)
  | fireMessageReceive (io : Nat) (knot : Nat) (t : Nat)
  | hbmRegionWrite (stand region : Nat) (v : Word)
  | hbmReserveWrite (v : Word)
  | pf0Bar0Access (addr : Nat) (op : BarOp) (upsets : List (Nat × LineErr))
  | vfBar0Access (stand : Nat) (addr : Nat) (op : BarOp) (upsets : List (Nat × LineErr))
  | granuleFillStart (granule : Nat)
  | granuleFillDone (granule : Nat)
  | regionBecomesValid (stand region : Nat)
  | patrolScrubLine (line : Nat) (found : LineErr)
  | rowCopyDone (stack row : Nat)
  | thermalSample (dies : List Int) (stackTs : List Nat)
  | pwrBrakeNAssert
  | pwrBrakeNDeassert
  | upwardStep
  | vddLcFall
  | envelopeRechoose
  | parkMaskWrite (reg : Nat) (v : Word)
  | deepSleepExitDone
  | limbRetrain (limb : Nat) (v : Word)
  | limbEnableWrite (limb : Nat) (v : Word)
  | limbDetectDone (limb : Nat) (polarity : Nat) (reversed : Bool) (failedLanes : Nat)
  | limbBaseEqDone (limb : Nat) (failedLanes : Nat)
  | capReceive (limb : Nat) (cap : Cap)
  | limbFullEqDone (limb : Nat) (failedLanes : Nat)
  | limbDeskewDone (limb : Nat) (flight : Nat) (rtt : Nat)
  | keycheckReceive (limb : Nat) (verified : Bool)
  | limbTrainingTimeout (limb : Nat)
  | flitReceive (limb : Nat) (flit : Flit)
  | compIdleSend (limb : Nat)
  | nakReceive (limb : Nat) (group : Nat)
  | markerReceive (limb : Nat) (m : Marker) (offset : Int)
  | creditReceive (limb : Nat) (bestEffort : Nat) (management : Nat)
  | statusHoldReceive (limb : Nat)
  | holdStatusSend (limb : Nat)
  | keyOldGenExpire (limb : Nat) (keyIndex : Nat)
  | packetInjectScheduled (limb : Nat) (cycle : Nat)
  | packetInjectBestEffort (dep : Departure)
  | putReceive (rx : Rx)
  | getReqReceive (rx : Rx)
  | getRespReceive (rx : Rx)
  | knotPacketReceive (rx : Rx)
  | reduceReceive (rx : Rx)
  | mcastPutReceive (rx : Rx)
  | mackReceive (rx : Rx)
  | errReceive (rx : Rx)
  | faultReceive (rx : Rx)
  | chainReceive (rx : Rx) (chk : HeaderCheck)
  | opExpire (entry : Nat)
  | packetResend (entry : Nat)
  | resendTimeout (entry : Nat)
  | niDrainStart (v : Word)
  | drainComplete
  | niDrainRelease (v : Word)
  | niFslotMaskWrite (stand : Nat) (v : Word)
  | niRankGrantWrite (stand : Nat) (v : Word)
  | mcastBitmapDue (stand index : Nat)
  | faultNoticeSend (dep : Departure)
  | cqTrigDoorbellTail (stand : Nat) (v : Word) (lastQuarter : Bool)
  | cqTrigResume (stand : Nat) (v : Word) (lastQuarter : Bool)
  | triggerFetch (stand : Nat)
  | trigPut (stand index : Nat)
  | trigGet (stand index : Nat)
  | trigKnot (stand index : Nat)
  | trigReduce (stand index : Nat)
  | trigMcastPut (stand index : Nat)
  | trigFold (stand index : Nat)
  | trigA2a (stand index : Nat)
  | foldSlice (channel : Nat)
  | triggerComplete (stand index : Nat)
  | crcWindowExpire (channel : Nat)
  | chanAreaZeroizeDone (channel : Nat)
  | collChanCfgWrite (channel : Nat) (v : Word)
  | collSchedWrite (engine reg : Nat) (v : Word)
  | collStandQuotaWrite (stand : Nat) (v : Word)
  | standCtrlReset (stand : Nat) (v : Word)
  | standResetEntry (stand : Nat)
  | standResetDone (stand : Nat)
  | standTwigOwnerWrite (twig : Nat) (v : Word)
  | standMemSlotsWrite (stand : Nat) (v : Word)
  | standKeyGenerate (stand : Nat) (v : Word)
  | standActivate (stand : Nat)
  | standFreed (stand : Nat)
  | mbxReqDoorbell (mbx : Nat) (v : Word)
  | mbxReqRetire (mbx : Nat) (v : Word)
  | mbxRequestFetch (mbx : Nat)
  | hwResponderAnswer (mbx : Nat)
  | mirrorRecordReceive
  | mirrorDoneReceive
  | hello
  | status
  | close
  | standCreate
  | standModify
  | standTeardown
  | standReset
  | standQuery
  | precisionConsent
  | pwrEnvelope
  | pwrState
  | pwrQuery
  | ringConfig
  | sscConfig
  | clockQuery
  | nodeSet
  | rankWrite
  | rankRead
  | fslotSet
  | mcastSet
  | limbKeyLoad (unwraps : Bool)
  | transportKey
  | congRead
  | chanBind
  | chanUnbind
  | foldSched
  | trigQuota
  | chanCrc
  | chanQuery
  | counterRead
  | counterSelect
  | traceSet
  | frost
  | fwChainSet
  | fwHeader (chk : HeaderCheck)
  | fwPiece
  | fwStatus
  | fwActivate
  | fwAbort
  | fwPolicy
  | identity
  | identityRecord
  | calSet
  | calRead
  | logRead
  | locate
  | redStatus
  | swapDrill
  | leafRemap
  | leafRestore
  | csrRead
  | csrWrite
  | dumpRead
  | dumpTrigger
  | leaseExpire
  | coreWatchdogExpire (h : Side)
  | surrender
  | selfDiagFail (h : Side)
  | tokenMove (actuatorOk : Bool)
  | plannedTransfer (actuatorOk : Bool)
  | takeoverComplete
  | reversion
  | crosslinkError
  | mirrorSyncTimeout
  | calendarEnd
  | blockStore (tagOk : Bool) (flashOk : Bool)
  | chainForward
  | fwTransferTimeout
  | activationPause (newStarts : Bool) (oldStarts : Bool)
  | recoveryPieceSubmit (v : Word) (chk : HeaderCheck) (tagOk : Bool)
  | frostPinEdge
  | trcFrostFreezeNext (v : Word)
  | trcFrostRelease (v : Word)
  | sampleWrite (leaf : Nat) (counter : Nat)
  | hangWatchdogExpire (stand queue : Nat)
  | hangDumpDone
  | i3cReq (slot : List Byte)
  | i3cRsp
  | i3cEvt
  | i3cRegRd (selector : Nat)
  | i3cRegWr (selector : Nat) (v : Word)
  | entdaa (winning : Bool) (addr : Nat)
  | setnewda (addr : Nat)
  | rstdaa
  | enec (ibi hotJoin : Bool)
  | disec (ibi hotJoin : Bool)
  | getpid
  | getbcr
  | getdcr
  | getstatus
  | getmwl
  | getmrl
  | setmwl (n : Nat)
  | setmrl (n : Nat)
  | hotJoinRequest
  | ibiRaise
  | perstNDeassert
  | leafFaultReport (leaf : Nat)
  | locateExpire
  | holdupCharged
  | limbSignalLoss (limb : Nat)
deriving DecidableEq, Repr

end Sys2Proof
end

