-- ==== Sys2Proof/Decode.lean ====
section
/-! DEFINITION. Commands as words. The table gives no row any bits: the Crown takes events, register writes and messages,
and decodes no instruction word. So no word spells a command (log entry 1). -/

namespace Sys2Proof

/-- The command a word spells by the table's bits: none, for no row of the table has bits. -/
def decodeTableWord (_nbits _w : Nat) : Option Instr := none

end Sys2Proof
end

