-- ==== Sys2Proof/Config.lean ====
section
/-! DEFINITION. What an implementation fixes, and the values the spec leaves open. The constants below are stated by the
spec; every `opaque` is a value the spec does not give, so no proof can see what it is (log entries 7 to 12 and those that name them). -/

namespace Sys2Proof.Config

/-- Leaf clock multiple of RACK_REF per tier (R40). -/
def leafMult (tier : Nat) : Nat := 14 - 2 * min tier 4

/-- Reference cycles per ring of a period code (R42). The reserved code is never in force. -/
def ringRef (code : Nat) : Nat :=
  match code with
  | 0 => 4096
  | 2 => 16384
  | _ => 8192

/-- Reference cycles per slot (R42): a ring holds 64 slots. -/
def slotRef (code : Nat) : Nat := ringRef code / 64

/-- lclk per slot (R44). -/
def slotLclk (code tier : Nat) : Nat := slotRef code * leafMult tier

/-- lclk per ring under spread depth `m` (R47): `C - ceil (C * m / 4000)`. -/
def ringLclk (code tier m : Nat) : Nat :=
  let c := ringRef code * leafMult tier
  c - (c * m + 3999) / 4000

/-- Byte `i` of what AES-256-GCM makes of a packet (R222): the key's handle, the 96-bit IV, the authenticated bytes and the payload; the
encrypted payload comes first and the 16-byte tag after it. The keys are outside the model (log entry 30). -/
opaque gcm : Nat → List Byte → List Byte → List Byte → Nat → Byte

/-- Byte `i` of a CREDIT flit after its subtype, by best-effort and management credits returned: R215 gives no layout (log entry 80). -/
opaque creditBody : Nat → Nat → Nat → Byte

/-- A free value: an uninterpreted word per value of the state's counter `free` (log entry 7). -/
opaque freeWord : Nat → Word

/-- What a line of HBM reads as, byte by byte, under a key other than the one it was written under (R198; log entry 8):
the written byte, the key it was written under, the reading key, the byte's address. -/
opaque garble : Byte → Nat → Nat → Nat → Byte

/-- The row of its pseudo-channel a line of HBM lies in (R186 leaves it internal to the controller; log entry 17). -/
opaque rowOf : Nat → Nat

/-- The bank a row of a pseudo-channel lies in, by row id (R186 leaves it internal, R204 spares per bank; log entry 17). -/
opaque bankOf : Nat → Nat

/-- The spare rows a bank of a stack has, by stack and bank: R204 says that a bank can run out, and not how many it has (log entry 17). -/
opaque bankSpares : Nat → Nat → Nat

/-- Which of the FP32 values inside its stated error bound a special function gives (R128): the function's code (0 exp, 1 log,
2 reciprocal, 3 rsqrt) and the FP32 operand (log entry 9). -/
opaque sfu : Nat → Nat → Nat

/-- What an MXINT8 element that rounds to +2.0 is written as, and whether that counts as overflow: +128 has no two's-complement byte
(R123; log entry 32). -/
opaque int8Top : Byte × Bool

/-- The place of a slice product among those of one FP32 operand pair (R112 gives no order; log entry 33). -/
opaque sliceKey : Nat → Nat → Nat

/-- The fresh bytes a random generator of the security block yields, by draw number (R199, R312; log entry 10). -/
opaque random : Nat → Byte

/-- The CRC-32C that covers a payload is stated; a MAC or tag over bytes is not: byte `i` of the tag of a key over data
(R225, R312; log entry 11). -/
opaque tag : Nat → List Byte → Nat → Byte

/-- A reading the package makes of its own supplies and sensors (power, current, temperature beside the sampled ones):
which reading, and the state's free counter (log entry 12). -/
opaque reading : Nat → Nat → Nat

/-- Byte `i` of the SHA-384 of a byte string (R441, R444): the spec takes the function from its standard; log entry 11. -/
opaque digest : List Byte → Nat → Byte

/-- What a flash byte reads as after power failed during its erase (R440): free, per draw and byte (log entry 24). -/
opaque torn : Nat → Nat → Byte

/-- The limb configuration an image carries (R432, R444 part 4): per image version and limb, the LIMB_CFG word; index 18 is
LIMB_GLOBAL_CFG (log entry 25). -/
opaque limbImage : Nat → Nat → Word

/-- The code of the log entries the spec requires without giving a code: 1 a calendar set, 2 a session opening, 3 a change of
load level (R353; log entry 26). -/
opaque logCode : Nat → Nat

/-- Byte `i` of an entry of a hang dump whose layout the spec gives only as a list of contents: the part of the dump (0 the header, 1 a
dispatcher head, 2 a leaf, 3 a posted trigger) and the contents (R480, *Dump slot layout*; log entry 55). -/
opaque dumpPack : Nat → List Nat → Nat → Byte

/-- Byte `i` of the data of such a log entry of a kind (R353; log entry 26). -/
opaque logData : Nat → Nat → Byte

end Sys2Proof.Config
end

