-- ==== Sys2Proof/Machine/RegMap.lean ====
section
/-! DEFINITION. The register map: every register of the sixteen CSR blocks (00_scope.md, Registers), of the queue
pages (05 and 10), of the mailbox windows (12) and of the stand PERF windows (18), with its address, its reset value and
its access masks, transcribed from the register tables of the spec.

One address space of the model holds them all: CSR offsets relative to 0xC0_0000_0000 below 0x100_0000, queue pages of
stand `s` at 0x100_0000 + s * 0x1000, mailbox registers of mailbox `m` at 0x200_0000 + m * 0x100 (0-15 the VFs, 16 PF0,
17 I3C), stand sample controls at 0x300_0000 + s * 8. Registers whose reset value comes from fuses hold what the fuses of
log entry 4 give. -/

namespace Sys2Proof.Machine

/-- A field of a register: the register's address and its bits (R11). -/
structure Fld where
  reg : Nat
  hi  : Nat
  lo  : Nat
deriving DecidableEq, Repr

/-- One row of the register map: the addresses `base + i * s1 + j * s2 + k * s3`, the reset value, and the bits of each
access code of R12 (a bit in none of the masks is RO or reserved). -/
structure RegRow where
  base : Nat
  n1 : Nat
  s1 : Nat
  n2 : Nat
  s2 : Nat
  n3 : Nat
  s3 : Nat
  reset : Nat
  rw : Nat
  w1c : Nat
  wo : Nat
  rwl : Nat
deriving DecidableEq, Repr

def CLK_STATUS : Nat := 0x0
def CLK_IOSC_TRIM : Nat := 0x8
def CLK_MON_CFG : Nat := 0x10
def CLK_MON_COUNT : Nat := 0x18
def CLK_SSC_CFG : Nat := 0x20
def CLK_GATE_RUN : Nat := 0x28
def CLK_GATE_SLEEP : Nat := 0x30
def CLK_GATE_DEEP : Nat := 0x38
def CLK_EVENT : Nat := 0x40
def RING_CFG : Nat := 0x100000
def RING_STATUS : Nat := 0x100008
def RING_TIME : Nat := 0x100010
def RING_LCLK : Nat := 0x100018
def RING_SLIP_COUNT : Nat := 0x100020
def RING_EVENT : Nat := 0x100028
def TWIG_REMAP : Nat := 0x300000
def TWIG_WINDOW_REFUSED : Nat := 0x300008
def TWIG_BBUF_STATUS : Nat := 0x300010
def TWIG_BBUF_REGION (b s : Nat) : Nat := 0x320000 + b * 0x80 + s * 0x8
def TWIG_STATUS (t : Nat) : Nat := 0x310000 + t * 0x80
def TWIG_OOS (t : Nat) : Nat := 0x310008 + t * 0x80
def TWIG_STALE (t : Nat) : Nat := 0x310010 + t * 0x80
def TWIG_LEAF_FAULT (t : Nat) : Nat := 0x310018 + t * 0x80
def TWIG_SLOT_MAP (t q : Nat) : Nat := 0x310020 + t * 0x80 + q * 0x8
def TWIG_EPOCH (t q : Nat) : Nat := 0x310040 + t * 0x80 + q * 0x8
def CQ_CFG (s q : Nat) : Nat := 0x1000000 + s * 0x1000 + q * 0x40
def CQ_CPL_BASE (s q : Nat) : Nat := 0x1000008 + s * 0x1000 + q * 0x40
def CQ_DOORBELL (s q : Nat) : Nat := 0x1000010 + s * 0x1000 + q * 0x40
def CQ_STATE (s q : Nat) : Nat := 0x1000018 + s * 0x1000 + q * 0x40
def CQ_SHARE_MASK (s : Nat) : Nat := 0x1000100 + s * 0x1000
def CQ_SHARE_RATE (s : Nat) : Nat := 0x1000108 + s * 0x1000
def KNOT_STATUS : Nat := 0x200000
def KNOT_EVENT : Nat := 0x200008
def KNOT_LATE_COUNT : Nat := 0x200010
def KNOT_GRANULE_OWNER (g : Nat) : Nat := 0x210000 + g * 0x8
def HBM_STATUS : Nat := 0x400000
def HBM_CFG : Nat := 0x400008
def HBM_EVENT : Nat := 0x400010
def HBM_RESERVE : Nat := 0x400018
def HBM_WINDOW_REFUSED : Nat := 0x400020
def HBM_FILL_STATUS : Nat := 0x400028
def HBM_KEY_STATUS : Nat := 0x400030
def HBM_ECC_COUNT (k : Nat) : Nat := 0x400100 + k * 0x8
def HBM_ECC_LAST : Nat := 0x400180
def HBM_SPARE (k : Nat) : Nat := 0x400200 + k * 0x8
def HBM_REGION (s r : Nat) : Nat := 0x410000 + s * 0x20 + r * 0x8
def LIMB_GLOBAL_CFG : Nat := 0x500000
def LIMB_GLOBAL_STATUS : Nat := 0x500008
def LIMB_CFG (l : Nat) : Nat := 0x510000 + l * 0x80
def LIMB_STATUS (l : Nat) : Nat := 0x510008 + l * 0x80
def LIMB_TRAINED (l : Nat) : Nat := 0x510010 + l * 0x80
def LIMB_FEC (l : Nat) : Nat := 0x510018 + l * 0x80
def LIMB_RETRY (l : Nat) : Nat := 0x510020 + l * 0x80
def LIMB_ELASTIC (l : Nat) : Nat := 0x510028 + l * 0x80
def LIMB_CRYPTO (l : Nat) : Nat := 0x510030 + l * 0x80
def LIMB_KEY_MAP (l : Nat) : Nat := 0x510038 + l * 0x80
def LIMB_KEY_VALID (l : Nat) : Nat := 0x510040 + l * 0x80
def LIMB_EVENT (l : Nat) : Nat := 0x510048 + l * 0x80
def NI_NODE : Nat := 0x600000
def NI_CFG : Nat := 0x600008
def NI_DRAIN : Nat := 0x600010
def NI_EVENT : Nat := 0x600018
def NI_RX_DROP0 : Nat := 0x600020
def NI_RX_DROP1 : Nat := 0x600028
def NI_LAST_DROP : Nat := 0x600030
def NI_RX_LATE : Nat := 0x600038
def NI_FAULT_STATUS : Nat := 0x600040
def NI_MCAST_LATE : Nat := 0x600048
def NI_OP_EXPIRED : Nat := 0x600050
def NI_FSLOT_MASK (s : Nat) : Nat := 0x601000 + s * 0x8
def NI_RANK_GRANT (s : Nat) : Nat := 0x601080 + s * 0x8
def NI_FAULT_ENTRY (i : Nat) : Nat := 0x602000 + i * 0x8
def NI_CONG (n : Nat) : Nat := 0x610000 + n * 0x8
def NI_MCAST_GROUP (g : Nat) : Nat := 0x604000 + g * 0x8
def NI_RANK_ENTRY (i : Nat) : Nat := 0x680000 + i * 0x8
def CQ_TRIG_CFG (s : Nat) : Nat := 0x1000200 + s * 0x1000
def CQ_TRIG_CPL_BASE (s : Nat) : Nat := 0x1000208 + s * 0x1000
def CQ_TRIG_DOORBELL (s : Nat) : Nat := 0x1000210 + s * 0x1000
def CQ_TRIG_STATE (s : Nat) : Nat := 0x1000218 + s * 0x1000
def CQ_TRIG_LATE_ERR (s : Nat) : Nat := 0x1000220 + s * 0x1000
def COLL_STATUS : Nat := 0x700000
def COLL_EVENT : Nat := 0x700008
def COLL_CRC_WINDOW : Nat := 0x700010
def COLL_SCHED (e q : Nat) : Nat := 0x701000 + e * 0x40 + q * 0x8
def COLL_STAND_QUOTA (s : Nat) : Nat := 0x701100 + s * 0x8
def COLL_CHAN_CFG (c : Nat) : Nat := 0x702000 + c * 0x20
def COLL_CHAN_STATUS (c : Nat) : Nat := 0x702008 + c * 0x20
def COLL_CHAN_CODE (c : Nat) : Nat := 0x702010 + c * 0x20
def COLL_CHAN_CRC (c : Nat) : Nat := 0x702018 + c * 0x20
def STAND_STATUS : Nat := 0x800000
def STAND_EVENT : Nat := 0x800008
def STAND_CFG (s : Nat) : Nat := 0x801000 + s * 0x40
def STAND_MEM_SLOTS (s : Nat) : Nat := 0x801008 + s * 0x40
def STAND_SEED (s : Nat) : Nat := 0x801010 + s * 0x40
def STAND_KEY (s : Nat) : Nat := 0x801018 + s * 0x40
def STAND_FAULT (s : Nat) : Nat := 0x801020 + s * 0x40
def STAND_CTRL (s : Nat) : Nat := 0x801028 + s * 0x40
def STAND_TWIG_OWNER (t : Nat) : Nat := 0x802000 + t * 0x8
def MBX_FN_STATUS (m : Nat) : Nat := 0x2000000 + m * 0x100
def MBX_REQ_DOORBELL (m : Nat) : Nat := 0x2000008 + m * 0x100
def MBX_REQ_STATE (m : Nat) : Nat := 0x2000010 + m * 0x100
def MBX_REQ_RETIRE (m : Nat) : Nat := 0x2000018 + m * 0x100
def MBX_EVT_HEAD (m : Nat) : Nat := 0x2000020 + m * 0x100
def MBX_EVT_STATE (m : Nat) : Nat := 0x2000028 + m * 0x100
def MBX_IRQ_CFG (m : Nat) : Nat := 0x2000030 + m * 0x100
def MBX_CREDIT : Nat := 0xa00000
def MBX_LOAD_CFG : Nat := 0xa00008
def MBX_LOAD_STATUS : Nat := 0xa00010
def MBX_SHED_COUNT : Nat := 0xa00018
def MBX_CAL_STATUS : Nat := 0xa00020
def MBX_LOG_STATUS : Nat := 0xa00028
def MBX_EVENT : Nat := 0xa00030
def MBX_HEARTWOOD : Nat := 0xa00038
def BLOCK_SCRATCH (k : Nat) : Nat := 0xf00 + k * 0x100000
def MBX_RED_CFG : Nat := 0xa00040
def MBX_RED_STATUS : Nat := 0xa00048
def MBX_RED_LAST : Nat := 0xa00050
def MBX_RED_NOTICE : Nat := 0xa00058
def MBX_RED_ROUTE : Nat := 0xa00060
def PWR_STATUS : Nat := 0x900000
def PWR_ENVELOPE : Nat := 0x900008
def PWR_SEQ : Nat := 0x900010
def PWR_PARK (q : Nat) : Nat := 0x900018 + q * 0x8
def PWR_CFG : Nat := 0x900030
def PWR_THERM0 : Nat := 0x900040
def PWR_THERM1 : Nat := 0x900048
def PWR_THERM_HBM (q : Nat) : Nat := 0x900050 + q * 0x8
def PWR_EVENT : Nat := 0x900060
def PWR_POWER : Nat := 0x900068
def PWR_HOLDUP : Nat := 0x900070
def PWR_TRIP_REC : Nat := 0x900078
def ID_PART : Nat := 0xd00000
def ID_SERIAL (q : Nat) : Nat := 0xd00008 + q * 0x8
def ID_DIE (d : Nat) : Nat := 0xd00100 + d * 0x8
def ID_BOOT : Nat := 0xd00200
def ID_RESET_COUNT : Nat := 0xd00208
def ID_RESET : Nat := 0xd00210
def ID_LEAF_RESET : Nat := 0xd00218
def ID_FUSE_SPARE (t : Nat) : Nat := 0xd01000 + t * 0x8
def FLASH_STATUS : Nat := 0xf00000
def FLASH_POLICY : Nat := 0xf00008
def FLASH_XFER : Nat := 0xf00010
def FLASH_JOURNAL : Nat := 0xf00018
def FLASH_REC_CTRL : Nat := 0xf00020
def PERF_WIN_CFG : Nat := 0xc00000
def PERF_SAMPLE_CTRL : Nat := 0xc00008
def PERFW_SAMPLE_CTRL (s : Nat) : Nat := 0x3000000 + s * 0x8
def TRC_CFG : Nat := 0xb00000
def TRC_STAND_EN : Nat := 0xb00008
def TRC_DROP : Nat := 0xb00010
def TRC_FROST : Nat := 0xb00018
def TRC_FROST_CTRL : Nat := 0xb00020
def TRC_FROST_LOG : Nat := 0xb00028
def TRC_HANG_CFG : Nat := 0xb00030
def TRC_HANG_STATUS : Nat := 0xb00038
def TRC_DUMP_STATUS : Nat := 0xb00040
def PWR_WAKE : Nat := 0x900080
def PWR_WAKE_CFG : Nat := 0x900088
def ID_I3C : Nat := 0xd00300
def PERF_LEAF_CTR (n i : Nat) : Nat := 0xc10000 + n * 0x20 + i * 0x8
def PERF_LEAF_SEL (n i : Nat) : Nat := 0xc40000 + n * 0x20 + i * 0x8
def PERF_TWIG_CTR (t i : Nat) : Nat := 0xc70000 + t * 0x40 + i * 0x8
def PERF_TWIG_SEL (t i : Nat) : Nat := 0xc74000 + t * 0x40 + i * 0x8
def PERF_LIMB_CTR (l i : Nat) : Nat := 0xc78000 + l * 0x80 + i * 0x8
def PERF_LIMB_SEL (l i : Nat) : Nat := 0xc79000 + l * 0x80 + i * 0x8
def PERF_STAND_CTR (s i : Nat) : Nat := 0xc7a000 + s * 0x80 + i * 0x8
def PERF_STAND_LIMB (s l i : Nat) : Nat := 0xc7b000 + s * 0x480 + l * 0x40 + i * 0x8
def PERF_PORT_WIN (p w : Nat) : Nat := 0xc80000 + p * 0x10 + w * 0x8

def CLK_STATUS_leaf_mult : Fld := ⟨CLK_STATUS, 20, 16⟩
def CLK_STATUS_standby_locked : Fld := ⟨CLK_STATUS, 15, 12⟩
def CLK_STATUS_active_sel : Fld := ⟨CLK_STATUS, 11, 8⟩
def CLK_STATUS_on_iosc : Fld := ⟨CLK_STATUS, 3, 3⟩
def CLK_STATUS_mon_running : Fld := ⟨CLK_STATUS, 2, 2⟩
def CLK_STATUS_iosc_trimmed : Fld := ⟨CLK_STATUS, 1, 1⟩
def CLK_STATUS_ref_valid : Fld := ⟨CLK_STATUS, 0, 0⟩
def CLK_IOSC_TRIM_trim : Fld := ⟨CLK_IOSC_TRIM, 9, 0⟩
def CLK_MON_CFG_clk_lock : Fld := ⟨CLK_MON_CFG, 63, 63⟩
def CLK_MON_CFG_pass_hi : Fld := ⟨CLK_MON_CFG, 47, 32⟩
def CLK_MON_CFG_pass_lo : Fld := ⟨CLK_MON_CFG, 31, 16⟩
def CLK_MON_CFG_edge_timeout : Fld := ⟨CLK_MON_CFG, 15, 8⟩
def CLK_MON_CFG_mon_en : Fld := ⟨CLK_MON_CFG, 0, 0⟩
def CLK_MON_COUNT_max_count : Fld := ⟨CLK_MON_COUNT, 47, 32⟩
def CLK_MON_COUNT_min_count : Fld := ⟨CLK_MON_COUNT, 31, 16⟩
def CLK_MON_COUNT_last_count : Fld := ⟨CLK_MON_COUNT, 15, 0⟩
def CLK_SSC_CFG_cur_div : Fld := ⟨CLK_SSC_CFG, 13, 12⟩
def CLK_SSC_CFG_cur_depth : Fld := ⟨CLK_SSC_CFG, 11, 8⟩
def CLK_SSC_CFG_ssc_div : Fld := ⟨CLK_SSC_CFG, 5, 4⟩
def CLK_SSC_CFG_ssc_depth : Fld := ⟨CLK_SSC_CFG, 3, 0⟩
def CLK_GATE_RUN_secblk : Fld := ⟨CLK_GATE_RUN, 20, 19⟩
def CLK_GATE_RUN_heartwood : Fld := ⟨CLK_GATE_RUN, 18, 17⟩
def CLK_GATE_RUN_flash : Fld := ⟨CLK_GATE_RUN, 16, 16⟩
def CLK_GATE_RUN_bark : Fld := ⟨CLK_GATE_RUN, 15, 15⟩
def CLK_GATE_RUN_pcie : Fld := ⟨CLK_GATE_RUN, 14, 14⟩
def CLK_GATE_RUN_io_fabric : Fld := ⟨CLK_GATE_RUN, 13, 12⟩
def CLK_GATE_RUN_hbm : Fld := ⟨CLK_GATE_RUN, 11, 8⟩
def CLK_GATE_RUN_core : Fld := ⟨CLK_GATE_RUN, 7, 4⟩
def CLK_GATE_RUN_leaf : Fld := ⟨CLK_GATE_RUN, 3, 0⟩
def CLK_GATE_SLEEP_secblk : Fld := ⟨CLK_GATE_SLEEP, 20, 19⟩
def CLK_GATE_SLEEP_heartwood : Fld := ⟨CLK_GATE_SLEEP, 18, 17⟩
def CLK_GATE_SLEEP_flash : Fld := ⟨CLK_GATE_SLEEP, 16, 16⟩
def CLK_GATE_SLEEP_bark : Fld := ⟨CLK_GATE_SLEEP, 15, 15⟩
def CLK_GATE_SLEEP_pcie : Fld := ⟨CLK_GATE_SLEEP, 14, 14⟩
def CLK_GATE_SLEEP_io_fabric : Fld := ⟨CLK_GATE_SLEEP, 13, 12⟩
def CLK_GATE_SLEEP_hbm : Fld := ⟨CLK_GATE_SLEEP, 11, 8⟩
def CLK_GATE_SLEEP_core : Fld := ⟨CLK_GATE_SLEEP, 7, 4⟩
def CLK_GATE_SLEEP_leaf : Fld := ⟨CLK_GATE_SLEEP, 3, 0⟩
def CLK_GATE_DEEP_secblk : Fld := ⟨CLK_GATE_DEEP, 20, 19⟩
def CLK_GATE_DEEP_heartwood : Fld := ⟨CLK_GATE_DEEP, 18, 17⟩
def CLK_GATE_DEEP_flash : Fld := ⟨CLK_GATE_DEEP, 16, 16⟩
def CLK_GATE_DEEP_bark : Fld := ⟨CLK_GATE_DEEP, 15, 15⟩
def CLK_GATE_DEEP_pcie : Fld := ⟨CLK_GATE_DEEP, 14, 14⟩
def CLK_GATE_DEEP_io_fabric : Fld := ⟨CLK_GATE_DEEP, 13, 12⟩
def CLK_GATE_DEEP_hbm : Fld := ⟨CLK_GATE_DEEP, 11, 8⟩
def CLK_GATE_DEEP_core : Fld := ⟨CLK_GATE_DEEP, 7, 4⟩
def CLK_GATE_DEEP_leaf : Fld := ⟨CLK_GATE_DEEP, 3, 0⟩
def CLK_EVENT_gate_ignored : Fld := ⟨CLK_EVENT, 3, 3⟩
def CLK_EVENT_pll_unlock : Fld := ⟨CLK_EVENT, 2, 2⟩
def CLK_EVENT_edge_loss : Fld := ⟨CLK_EVENT, 1, 1⟩
def CLK_EVENT_mon_fail : Fld := ⟨CLK_EVENT, 0, 0⟩
def RING_CFG_slip_thresh : Fld := ⟨RING_CFG, 47, 32⟩
def RING_CFG_sync_arm : Fld := ⟨RING_CFG, 16, 16⟩
def RING_CFG_epoch_limb : Fld := ⟨RING_CFG, 8, 4⟩
def RING_CFG_period_pending : Fld := ⟨RING_CFG, 1, 0⟩
def RING_STATUS_sync_ignored : Fld := ⟨RING_STATUS, 31, 16⟩
def RING_STATUS_resync_refused : Fld := ⟨RING_STATUS, 7, 7⟩
def RING_STATUS_sync_long : Fld := ⟨RING_STATUS, 6, 6⟩
def RING_STATUS_period : Fld := ⟨RING_STATUS, 5, 4⟩
def RING_STATUS_epoch_src : Fld := ⟨RING_STATUS, 2, 1⟩
def RING_STATUS_epoch_valid : Fld := ⟨RING_STATUS, 0, 0⟩
def RING_TIME_ring : Fld := ⟨RING_TIME, 63, 16⟩
def RING_TIME_ref_cycle : Fld := ⟨RING_TIME, 15, 0⟩
def RING_LCLK_slot_lclk : Fld := ⟨RING_LCLK, 63, 48⟩
def RING_LCLK_guard_lclk : Fld := ⟨RING_LCLK, 47, 32⟩
def RING_LCLK_ring_lclk : Fld := ⟨RING_LCLK, 17, 0⟩
def RING_SLIP_COUNT_slip_count : Fld := ⟨RING_SLIP_COUNT, 63, 32⟩
def RING_SLIP_COUNT_last_limb : Fld := ⟨RING_SLIP_COUNT, 20, 16⟩
def RING_SLIP_COUNT_disagree_count : Fld := ⟨RING_SLIP_COUNT, 15, 0⟩
def RING_EVENT_period_mismatch : Fld := ⟨RING_EVENT, 3, 3⟩
def RING_EVENT_resync_refused : Fld := ⟨RING_EVENT, 2, 2⟩
def RING_EVENT_disagree : Fld := ⟨RING_EVENT, 1, 1⟩
def RING_EVENT_slip : Fld := ⟨RING_EVENT, 0, 0⟩
def TWIG_REMAP_busy : Fld := ⟨TWIG_REMAP, 31, 31⟩
def TWIG_REMAP_result : Fld := ⟨TWIG_REMAP, 26, 24⟩
def TWIG_REMAP_op : Fld := ⟨TWIG_REMAP, 16, 16⟩
def TWIG_REMAP_twig : Fld := ⟨TWIG_REMAP, 15, 8⟩
def TWIG_REMAP_target : Fld := ⟨TWIG_REMAP, 5, 0⟩
def TWIG_WINDOW_REFUSED_last_leaf : Fld := ⟨TWIG_WINDOW_REFUSED, 44, 32⟩
def TWIG_WINDOW_REFUSED_count : Fld := ⟨TWIG_WINDOW_REFUSED, 31, 0⟩
def TWIG_BBUF_STATUS_overlap_rejected : Fld := ⟨TWIG_BBUF_STATUS, 63, 63⟩
def TWIG_BBUF_STATUS_pending_b3 : Fld := ⟨TWIG_BBUF_STATUS, 27, 21⟩
def TWIG_BBUF_STATUS_pending_b2 : Fld := ⟨TWIG_BBUF_STATUS, 20, 14⟩
def TWIG_BBUF_STATUS_pending_b1 : Fld := ⟨TWIG_BBUF_STATUS, 13, 7⟩
def TWIG_BBUF_STATUS_pending_b0 : Fld := ⟨TWIG_BBUF_STATUS, 6, 0⟩
def TWIG_BBUF_REGION_valid (b s : Nat) : Fld := ⟨TWIG_BBUF_REGION b s, 63, 63⟩
def TWIG_BBUF_REGION_limit (b s : Nat) : Fld := ⟨TWIG_BBUF_REGION b s, 13, 8⟩
def TWIG_BBUF_REGION_base (b s : Nat) : Fld := ⟨TWIG_BBUF_REGION b s, 5, 0⟩
def TWIG_STATUS_stand (t : Nat) : Fld := ⟨TWIG_STATUS t, 19, 16⟩
def TWIG_STATUS_assigned (t : Nat) : Fld := ⟨TWIG_STATUS t, 15, 15⟩
def TWIG_STATUS_parked (t : Nat) : Fld := ⟨TWIG_STATUS t, 14, 14⟩
def TWIG_STATUS_degraded (t : Nat) : Fld := ⟨TWIG_STATUS t, 13, 13⟩
def TWIG_STATUS_restore_running (t : Nat) : Fld := ⟨TWIG_STATUS t, 12, 12⟩
def TWIG_STATUS_spare_phys (t : Nat) : Fld := ⟨TWIG_STATUS t, 11, 6⟩
def TWIG_STATUS_oos_count (t : Nat) : Fld := ⟨TWIG_STATUS t, 5, 0⟩
def TWIG_OOS_oos_mask (t : Nat) : Fld := ⟨TWIG_OOS t, 32, 0⟩
def TWIG_STALE_stale_count (t : Nat) : Fld := ⟨TWIG_STALE t, 63, 32⟩
def TWIG_STALE_last_phys (t : Nat) : Fld := ⟨TWIG_STALE t, 13, 8⟩
def TWIG_STALE_last_epoch (t : Nat) : Fld := ⟨TWIG_STALE t, 7, 0⟩
def TWIG_LEAF_FAULT_slot_fault (t : Nat) : Fld := ⟨TWIG_LEAF_FAULT t, 31, 0⟩
def CQ_CFG_enable (s q : Nat) : Fld := ⟨CQ_CFG s q, 63, 63⟩
def CQ_CFG_base (s q : Nat) : Fld := ⟨CQ_CFG s q, 47, 12⟩
def CQ_CFG_irq_en (s q : Nat) : Fld := ⟨CQ_CFG s q, 8, 8⟩
def CQ_CFG_log2_size (s q : Nat) : Fld := ⟨CQ_CFG s q, 4, 0⟩
def CQ_CPL_BASE_cpl_base (s q : Nat) : Fld := ⟨CQ_CPL_BASE s q, 47, 12⟩
def CQ_DOORBELL_resume (s q : Nat) : Fld := ⟨CQ_DOORBELL s q, 63, 63⟩
def CQ_DOORBELL_tail (s q : Nat) : Fld := ⟨CQ_DOORBELL s q, 15, 0⟩
def CQ_STATE_halted (s q : Nat) : Fld := ⟨CQ_STATE s q, 63, 63⟩
def CQ_STATE_halt_code (s q : Nat) : Fld := ⟨CQ_STATE s q, 55, 48⟩
def CQ_STATE_cfg_err (s q : Nat) : Fld := ⟨CQ_STATE s q, 47, 47⟩
def CQ_STATE_doorbell_err (s q : Nat) : Fld := ⟨CQ_STATE s q, 46, 46⟩
def CQ_STATE_unfit (s q : Nat) : Fld := ⟨CQ_STATE s q, 45, 45⟩
def CQ_STATE_head (s q : Nat) : Fld := ⟨CQ_STATE s q, 31, 16⟩
def CQ_STATE_tail_seen (s q : Nat) : Fld := ⟨CQ_STATE s q, 15, 0⟩
def CQ_SHARE_MASK_mem_slots (s : Nat) : Fld := ⟨CQ_SHARE_MASK s, 61, 0⟩
def CQ_SHARE_RATE_h_leaf (s : Nat) : Fld := ⟨CQ_SHARE_RATE s, 47, 32⟩
def CQ_SHARE_RATE_h_bbuf (s : Nat) : Fld := ⟨CQ_SHARE_RATE s, 31, 16⟩
def CQ_SHARE_RATE_h_hbm (s : Nat) : Fld := ⟨CQ_SHARE_RATE s, 15, 0⟩
def KNOT_STATUS_foreign_count : Fld := ⟨KNOT_STATUS, 63, 32⟩
def KNOT_STATUS_mode_err_count : Fld := ⟨KNOT_STATUS, 31, 0⟩
def KNOT_EVENT_late : Fld := ⟨KNOT_EVENT, 2, 2⟩
def KNOT_EVENT_mode_err : Fld := ⟨KNOT_EVENT, 1, 1⟩
def KNOT_EVENT_foreign : Fld := ⟨KNOT_EVENT, 0, 0⟩
def KNOT_LATE_COUNT_last_stand : Fld := ⟨KNOT_LATE_COUNT, 47, 44⟩
def KNOT_LATE_COUNT_last_knot : Fld := ⟨KNOT_LATE_COUNT, 43, 32⟩
def KNOT_LATE_COUNT_count : Fld := ⟨KNOT_LATE_COUNT, 31, 0⟩
def KNOT_GRANULE_OWNER_valid (g : Nat) : Fld := ⟨KNOT_GRANULE_OWNER g, 63, 63⟩
def KNOT_GRANULE_OWNER_stand (g : Nat) : Fld := ⟨KNOT_GRANULE_OWNER g, 3, 0⟩
def HBM_STATUS_hot : Fld := ⟨HBM_STATUS, 47, 36⟩
def HBM_STATUS_self_refresh : Fld := ⟨HBM_STATUS, 35, 24⟩
def HBM_STATUS_bist_pass : Fld := ⟨HBM_STATUS, 23, 12⟩
def HBM_STATUS_trained : Fld := ⟨HBM_STATUS, 11, 0⟩
def HBM_CFG_zero_on_assign : Fld := ⟨HBM_CFG, 16, 16⟩
def HBM_CFG_scrub_hours : Fld := ⟨HBM_CFG, 15, 8⟩
def HBM_CFG_row_thresh : Fld := ⟨HBM_CFG, 7, 4⟩
def HBM_EVENT_window_refused : Fld := ⟨HBM_EVENT, 5, 5⟩
def HBM_EVENT_spare_exhausted : Fld := ⟨HBM_EVENT, 4, 4⟩
def HBM_EVENT_stack_hot : Fld := ⟨HBM_EVENT, 3, 3⟩
def HBM_EVENT_overlap_rejected : Fld := ⟨HBM_EVENT, 2, 2⟩
def HBM_EVENT_uncorrectable : Fld := ⟨HBM_EVENT, 1, 1⟩
def HBM_EVENT_corrected : Fld := ⟨HBM_EVENT, 0, 0⟩
def HBM_RESERVE_valid : Fld := ⟨HBM_RESERVE, 63, 63⟩
def HBM_RESERVE_granule : Fld := ⟨HBM_RESERVE, 9, 0⟩
def HBM_WINDOW_REFUSED_last_granule : Fld := ⟨HBM_WINDOW_REFUSED, 41, 32⟩
def HBM_WINDOW_REFUSED_count : Fld := ⟨HBM_WINDOW_REFUSED, 31, 0⟩
def HBM_FILL_STATUS_filling : Fld := ⟨HBM_FILL_STATUS, 51, 48⟩
def HBM_FILL_STATUS_pending : Fld := ⟨HBM_FILL_STATUS, 9, 0⟩
def HBM_KEY_STATUS_loaded : Fld := ⟨HBM_KEY_STATUS, 16, 0⟩
def HBM_ECC_COUNT_corrected (k : Nat) : Fld := ⟨HBM_ECC_COUNT k, 63, 32⟩
def HBM_ECC_COUNT_uncorrectable (k : Nat) : Fld := ⟨HBM_ECC_COUNT k, 31, 0⟩
def HBM_ECC_LAST_uncorr : Fld := ⟨HBM_ECC_LAST, 63, 63⟩
def HBM_ECC_LAST_symbol : Fld := ⟨HBM_ECC_LAST, 44, 40⟩
def HBM_ECC_LAST_line_addr : Fld := ⟨HBM_ECC_LAST, 39, 6⟩
def HBM_SPARE_pc_pending (k : Nat) : Fld := ⟨HBM_SPARE k, 63, 63⟩
def HBM_SPARE_pc_used (k : Nat) : Fld := ⟨HBM_SPARE k, 62, 62⟩
def HBM_SPARE_pc_failed (k : Nat) : Fld := ⟨HBM_SPARE k, 55, 50⟩
def HBM_SPARE_rows_spared (k : Nat) : Fld := ⟨HBM_SPARE k, 31, 16⟩
def HBM_SPARE_rows_left (k : Nat) : Fld := ⟨HBM_SPARE k, 15, 0⟩
def HBM_REGION_valid (s r : Nat) : Fld := ⟨HBM_REGION s r, 63, 63⟩
def HBM_REGION_pending (s r : Nat) : Fld := ⟨HBM_REGION s r, 62, 62⟩
def HBM_REGION_limit (s r : Nat) : Fld := ⟨HBM_REGION s r, 25, 16⟩
def HBM_REGION_base (s r : Nat) : Fld := ⟨HBM_REGION s r, 9, 0⟩
def LIMB_GLOBAL_CFG_domain_tag : Fld := ⟨LIMB_GLOBAL_CFG, 15, 0⟩
def LIMB_GLOBAL_STATUS_failed : Fld := ⟨LIMB_GLOBAL_STATUS, 53, 36⟩
def LIMB_GLOBAL_STATUS_reduced : Fld := ⟨LIMB_GLOBAL_STATUS, 35, 18⟩
def LIMB_GLOBAL_STATUS_active : Fld := ⟨LIMB_GLOBAL_STATUS, 17, 0⟩
def LIMB_CFG_retry_limit (l : Nat) : Fld := ⟨LIMB_CFG l, 15, 12⟩
def LIMB_CFG_l3_sched (l : Nat) : Fld := ⟨LIMB_CFG l, 11, 11⟩
def LIMB_CFG_allow_llp2 (l : Nat) : Fld := ⟨LIMB_CFG l, 10, 10⟩
def LIMB_CFG_reach (l : Nat) : Fld := ⟨LIMB_CFG l, 9, 8⟩
def LIMB_CFG_retrain (l : Nat) : Fld := ⟨LIMB_CFG l, 1, 1⟩
def LIMB_CFG_enable (l : Nat) : Fld := ⟨LIMB_CFG l, 0, 0⟩
def LIMB_STATUS_state (l : Nat) : Fld := ⟨LIMB_STATUS l, 63, 60⟩
def LIMB_STATUS_fail_cause (l : Nat) : Fld := ⟨LIMB_STATUS l, 59, 56⟩
def LIMB_STATUS_llp (l : Nat) : Fld := ⟨LIMB_STATUS l, 55, 54⟩
def LIMB_STATUS_width (l : Nat) : Fld := ⟨LIMB_STATUS l, 53, 52⟩
def LIMB_STATUS_same_domain (l : Nat) : Fld := ⟨LIMB_STATUS l, 51, 51⟩
def LIMB_STATUS_lane_reversed (l : Nat) : Fld := ⟨LIMB_STATUS l, 50, 50⟩
def LIMB_STATUS_partner_class (l : Nat) : Fld := ⟨LIMB_STATUS l, 49, 48⟩
def LIMB_STATUS_polarity (l : Nat) : Fld := ⟨LIMB_STATUS l, 47, 40⟩
def LIMB_STATUS_partner_limb (l : Nat) : Fld := ⟨LIMB_STATUS l, 39, 35⟩
def LIMB_STATUS_partner_node (l : Nat) : Fld := ⟨LIMB_STATUS l, 27, 16⟩
def LIMB_STATUS_partner_epoch (l : Nat) : Fld := ⟨LIMB_STATUS l, 15, 0⟩
def LIMB_TRAINED_rtt (l : Nat) : Fld := ⟨LIMB_TRAINED l, 47, 32⟩
def LIMB_TRAINED_retrain_count (l : Nat) : Fld := ⟨LIMB_TRAINED l, 31, 16⟩
def LIMB_TRAINED_c (l : Nat) : Fld := ⟨LIMB_TRAINED l, 5, 0⟩
def LIMB_FEC_corrected_cw (l : Nat) : Fld := ⟨LIMB_FEC l, 63, 32⟩
def LIMB_FEC_uncorrectable_cw (l : Nat) : Fld := ⟨LIMB_FEC l, 31, 0⟩
def LIMB_RETRY_late_packets (l : Nat) : Fld := ⟨LIMB_RETRY l, 63, 32⟩
def LIMB_RETRY_crc_fail (l : Nat) : Fld := ⟨LIMB_RETRY l, 31, 16⟩
def LIMB_RETRY_naks (l : Nat) : Fld := ⟨LIMB_RETRY l, 15, 0⟩
def LIMB_ELASTIC_comp_drop (l : Nat) : Fld := ⟨LIMB_ELASTIC l, 63, 48⟩
def LIMB_ELASTIC_comp_hold (l : Nat) : Fld := ⟨LIMB_ELASTIC l, 47, 32⟩
def LIMB_ELASTIC_occ_max (l : Nat) : Fld := ⟨LIMB_ELASTIC l, 23, 16⟩
def LIMB_ELASTIC_occ_min (l : Nat) : Fld := ⟨LIMB_ELASTIC l, 15, 8⟩
def LIMB_ELASTIC_occ_now (l : Nat) : Fld := ⟨LIMB_ELASTIC l, 7, 0⟩
def LIMB_CRYPTO_auth_fail (l : Nat) : Fld := ⟨LIMB_CRYPTO l, 63, 32⟩
def LIMB_CRYPTO_last_index (l : Nat) : Fld := ⟨LIMB_CRYPTO l, 28, 24⟩
def LIMB_CRYPTO_exhausted (l : Nat) : Fld := ⟨LIMB_CRYPTO l, 16, 0⟩
def LIMB_KEY_VALID_mgmt_gen (l : Nat) : Fld := ⟨LIMB_KEY_VALID l, 50, 50⟩
def LIMB_KEY_VALID_mgmt_rotate_due (l : Nat) : Fld := ⟨LIMB_KEY_VALID l, 49, 49⟩
def LIMB_KEY_VALID_mgmt_loaded (l : Nat) : Fld := ⟨LIMB_KEY_VALID l, 48, 48⟩
def LIMB_KEY_VALID_rotate_due (l : Nat) : Fld := ⟨LIMB_KEY_VALID l, 47, 32⟩
def LIMB_KEY_VALID_gen (l : Nat) : Fld := ⟨LIMB_KEY_VALID l, 31, 16⟩
def LIMB_KEY_VALID_valid (l : Nat) : Fld := ⟨LIMB_KEY_VALID l, 15, 0⟩
def LIMB_EVENT_partner_hold (l : Nat) : Fld := ⟨LIMB_EVENT l, 7, 7⟩
def LIMB_EVENT_key_exhausted (l : Nat) : Fld := ⟨LIMB_EVENT l, 6, 6⟩
def LIMB_EVENT_rotate_due (l : Nat) : Fld := ⟨LIMB_EVENT l, 5, 5⟩
def LIMB_EVENT_auth_fail (l : Nat) : Fld := ⟨LIMB_EVENT l, 4, 4⟩
def LIMB_EVENT_elastic_fault (l : Nat) : Fld := ⟨LIMB_EVENT l, 3, 3⟩
def LIMB_EVENT_reduced (l : Nat) : Fld := ⟨LIMB_EVENT l, 2, 2⟩
def LIMB_EVENT_retrain (l : Nat) : Fld := ⟨LIMB_EVENT l, 1, 1⟩
def LIMB_EVENT_late (l : Nat) : Fld := ⟨LIMB_EVENT l, 0, 0⟩
def NI_NODE_valid : Fld := ⟨NI_NODE, 63, 63⟩
def NI_NODE_node_epoch : Fld := ⟨NI_NODE, 31, 16⟩
def NI_NODE_node_id : Fld := ⟨NI_NODE, 11, 0⟩
def NI_CFG_be_fill : Fld := ⟨NI_CFG, 63, 63⟩
def NI_CFG_be_hi : Fld := ⟨NI_CFG, 47, 40⟩
def NI_CFG_be_lo : Fld := ⟨NI_CFG, 39, 32⟩
def NI_CFG_be_quota : Fld := ⟨NI_CFG, 31, 24⟩
def NI_CFG_op_timeout : Fld := ⟨NI_CFG, 23, 16⟩
def NI_CFG_mcast_rings : Fld := ⟨NI_CFG, 15, 8⟩
def NI_DRAIN_state : Fld := ⟨NI_DRAIN, 63, 62⟩
def NI_DRAIN_release : Fld := ⟨NI_DRAIN, 33, 33⟩
def NI_DRAIN_start : Fld := ⟨NI_DRAIN, 32, 32⟩
def NI_DRAIN_stand : Fld := ⟨NI_DRAIN, 19, 16⟩
def NI_DRAIN_drain_knot : Fld := ⟨NI_DRAIN, 11, 0⟩
def NI_EVENT_fault_overflow : Fld := ⟨NI_EVENT, 6, 6⟩
def NI_EVENT_mcast_late : Fld := ⟨NI_EVENT, 5, 5⟩
def NI_EVENT_stale_src : Fld := ⟨NI_EVENT, 4, 4⟩
def NI_EVENT_rank_invalid : Fld := ⟨NI_EVENT, 3, 3⟩
def NI_EVENT_table_refused : Fld := ⟨NI_EVENT, 2, 2⟩
def NI_EVENT_mask_overlap : Fld := ⟨NI_EVENT, 1, 1⟩
def NI_EVENT_rx_drop : Fld := ⟨NI_EVENT, 0, 0⟩
def NI_RX_DROP0_epoch_drop : Fld := ⟨NI_RX_DROP0, 63, 32⟩
def NI_RX_DROP0_bounds_drop : Fld := ⟨NI_RX_DROP0, 31, 0⟩
def NI_RX_DROP1_stand_mismatch : Fld := ⟨NI_RX_DROP1, 63, 48⟩
def NI_RX_DROP1_stand_absent : Fld := ⟨NI_RX_DROP1, 47, 32⟩
def NI_RX_DROP1_type_err : Fld := ⟨NI_RX_DROP1, 31, 16⟩
def NI_RX_DROP1_mcast_drop : Fld := ⟨NI_RX_DROP1, 15, 0⟩
def NI_LAST_DROP_check : Fld := ⟨NI_LAST_DROP, 58, 56⟩
def NI_LAST_DROP_dst_stand : Fld := ⟨NI_LAST_DROP, 55, 52⟩
def NI_LAST_DROP_src_node : Fld := ⟨NI_LAST_DROP, 51, 40⟩
def NI_LAST_DROP_src_epoch : Fld := ⟨NI_LAST_DROP, 39, 24⟩
def NI_LAST_DROP_limb : Fld := ⟨NI_LAST_DROP, 20, 16⟩
def NI_LAST_DROP_src_rank : Fld := ⟨NI_LAST_DROP, 15, 0⟩
def NI_RX_LATE_late : Fld := ⟨NI_RX_LATE, 63, 32⟩
def NI_RX_LATE_offsched : Fld := ⟨NI_RX_LATE, 31, 16⟩
def NI_RX_LATE_rx_poison : Fld := ⟨NI_RX_LATE, 15, 0⟩
def NI_FAULT_STATUS_in_use : Fld := ⟨NI_FAULT_STATUS, 40, 32⟩
def NI_FAULT_STATUS_overflow : Fld := ⟨NI_FAULT_STATUS, 31, 0⟩
def NI_MCAST_LATE_last_group : Fld := ⟨NI_MCAST_LATE, 63, 52⟩
def NI_MCAST_LATE_last_member : Fld := ⟨NI_MCAST_LATE, 51, 44⟩
def NI_MCAST_LATE_count : Fld := ⟨NI_MCAST_LATE, 31, 0⟩
def NI_OP_EXPIRED_last_src_node : Fld := ⟨NI_OP_EXPIRED, 63, 52⟩
def NI_OP_EXPIRED_last_dst_stand : Fld := ⟨NI_OP_EXPIRED, 51, 48⟩
def NI_OP_EXPIRED_last_src_epoch : Fld := ⟨NI_OP_EXPIRED, 47, 32⟩
def NI_OP_EXPIRED_count : Fld := ⟨NI_OP_EXPIRED, 31, 0⟩
def NI_FSLOT_MASK_slots (s : Nat) : Fld := ⟨NI_FSLOT_MASK s, 61, 0⟩
def NI_RANK_GRANT_valid (s : Nat) : Fld := ⟨NI_RANK_GRANT s, 63, 63⟩
def NI_RANK_GRANT_base (s : Nat) : Fld := ⟨NI_RANK_GRANT s, 21, 16⟩
def NI_RANK_GRANT_count (s : Nat) : Fld := ⟨NI_RANK_GRANT s, 6, 0⟩
def NI_FAULT_ENTRY_valid (i : Nat) : Fld := ⟨NI_FAULT_ENTRY i, 63, 63⟩
def NI_FAULT_ENTRY_node (i : Nat) : Fld := ⟨NI_FAULT_ENTRY i, 62, 51⟩
def NI_FAULT_ENTRY_code (i : Nat) : Fld := ⟨NI_FAULT_ENTRY i, 50, 43⟩
def NI_FAULT_ENTRY_epoch (i : Nat) : Fld := ⟨NI_FAULT_ENTRY i, 42, 27⟩
def NI_FAULT_ENTRY_idle_rings (i : Nat) : Fld := ⟨NI_FAULT_ENTRY i, 26, 16⟩
def NI_FAULT_ENTRY_count (i : Nat) : Fld := ⟨NI_FAULT_ENTRY i, 15, 0⟩
def NI_CONG_queued (n : Nat) : Fld := ⟨NI_CONG n, 63, 48⟩
def NI_CONG_stall (n : Nat) : Fld := ⟨NI_CONG n, 47, 0⟩
def NI_MCAST_GROUP_valid (g : Nat) : Fld := ⟨NI_MCAST_GROUP g, 63, 63⟩
def NI_MCAST_GROUP_sender (g : Nat) : Fld := ⟨NI_MCAST_GROUP g, 62, 62⟩
def NI_MCAST_GROUP_stand (g : Nat) : Fld := ⟨NI_MCAST_GROUP g, 61, 58⟩
def NI_MCAST_GROUP_member (g : Nat) : Fld := ⟨NI_MCAST_GROUP g, 57, 50⟩
def NI_MCAST_GROUP_count (g : Nat) : Fld := ⟨NI_MCAST_GROUP g, 49, 41⟩
def NI_MCAST_GROUP_route (g : Nat) : Fld := ⟨NI_MCAST_GROUP g, 17, 0⟩
def NI_RANK_ENTRY_valid (i : Nat) : Fld := ⟨NI_RANK_ENTRY i, 63, 63⟩
def NI_RANK_ENTRY_sched_ok (i : Nat) : Fld := ⟨NI_RANK_ENTRY i, 62, 62⟩
def NI_RANK_ENTRY_route (i : Nat) : Fld := ⟨NI_RANK_ENTRY i, 61, 44⟩
def NI_RANK_ENTRY_dst_stand (i : Nat) : Fld := ⟨NI_RANK_ENTRY i, 43, 40⟩
def NI_RANK_ENTRY_node (i : Nat) : Fld := ⟨NI_RANK_ENTRY i, 39, 28⟩
def NI_RANK_ENTRY_epoch (i : Nat) : Fld := ⟨NI_RANK_ENTRY i, 27, 12⟩
def NI_RANK_ENTRY_budget (i : Nat) : Fld := ⟨NI_RANK_ENTRY i, 11, 0⟩
def CQ_TRIG_CFG_enable (s : Nat) : Fld := ⟨CQ_TRIG_CFG s, 63, 63⟩
def CQ_TRIG_CFG_base (s : Nat) : Fld := ⟨CQ_TRIG_CFG s, 47, 12⟩
def CQ_TRIG_CFG_irq_en (s : Nat) : Fld := ⟨CQ_TRIG_CFG s, 8, 8⟩
def CQ_TRIG_CFG_log2_size (s : Nat) : Fld := ⟨CQ_TRIG_CFG s, 4, 0⟩
def CQ_TRIG_CPL_BASE_cpl_base (s : Nat) : Fld := ⟨CQ_TRIG_CPL_BASE s, 47, 12⟩
def CQ_TRIG_DOORBELL_resume (s : Nat) : Fld := ⟨CQ_TRIG_DOORBELL s, 63, 63⟩
def CQ_TRIG_DOORBELL_tail (s : Nat) : Fld := ⟨CQ_TRIG_DOORBELL s, 15, 0⟩
def CQ_TRIG_STATE_halted (s : Nat) : Fld := ⟨CQ_TRIG_STATE s, 63, 63⟩
def CQ_TRIG_STATE_halt_code (s : Nat) : Fld := ⟨CQ_TRIG_STATE s, 55, 48⟩
def CQ_TRIG_STATE_cfg_err (s : Nat) : Fld := ⟨CQ_TRIG_STATE s, 47, 47⟩
def CQ_TRIG_STATE_doorbell_err (s : Nat) : Fld := ⟨CQ_TRIG_STATE s, 46, 46⟩
def CQ_TRIG_STATE_quota_wait (s : Nat) : Fld := ⟨CQ_TRIG_STATE s, 45, 45⟩
def CQ_TRIG_STATE_head (s : Nat) : Fld := ⟨CQ_TRIG_STATE s, 31, 16⟩
def CQ_TRIG_STATE_tail_seen (s : Nat) : Fld := ⟨CQ_TRIG_STATE s, 15, 0⟩
def CQ_TRIG_LATE_ERR_last_op (s : Nat) : Fld := ⟨CQ_TRIG_LATE_ERR s, 63, 32⟩
def CQ_TRIG_LATE_ERR_last_cause (s : Nat) : Fld := ⟨CQ_TRIG_LATE_ERR s, 31, 24⟩
def CQ_TRIG_LATE_ERR_count (s : Nat) : Fld := ⟨CQ_TRIG_LATE_ERR s, 23, 0⟩
def COLL_STATUS_zero_units1 : Fld := ⟨COLL_STATUS, 40, 32⟩
def COLL_STATUS_zero_units0 : Fld := ⟨COLL_STATUS, 8, 0⟩
def COLL_EVENT_sched_rejected : Fld := ⟨COLL_EVENT, 5, 5⟩
def COLL_EVENT_area_rejected : Fld := ⟨COLL_EVENT, 4, 4⟩
def COLL_EVENT_quota_rejected : Fld := ⟨COLL_EVENT, 3, 3⟩
def COLL_EVENT_crc_auto_on : Fld := ⟨COLL_EVENT, 2, 2⟩
def COLL_EVENT_stage_conflict : Fld := ⟨COLL_EVENT, 1, 1⟩
def COLL_EVENT_late_err : Fld := ⟨COLL_EVENT, 0, 0⟩
def COLL_CRC_WINDOW_rings : Fld := ⟨COLL_CRC_WINDOW, 15, 0⟩
def COLL_STAND_QUOTA_used1 (s : Nat) : Fld := ⟨COLL_STAND_QUOTA s, 59, 48⟩
def COLL_STAND_QUOTA_used0 (s : Nat) : Fld := ⟨COLL_STAND_QUOTA s, 43, 32⟩
def COLL_STAND_QUOTA_quota1 (s : Nat) : Fld := ⟨COLL_STAND_QUOTA s, 27, 16⟩
def COLL_STAND_QUOTA_quota0 (s : Nat) : Fld := ⟨COLL_STAND_QUOTA s, 11, 0⟩
def COLL_CHAN_CFG_valid (c : Nat) : Fld := ⟨COLL_CHAN_CFG c, 63, 63⟩
def COLL_CHAN_CFG_pending (c : Nat) : Fld := ⟨COLL_CHAN_CFG c, 62, 62⟩
def COLL_CHAN_CFG_engine (c : Nat) : Fld := ⟨COLL_CHAN_CFG c, 61, 61⟩
def COLL_CHAN_CFG_crc_e2e (c : Nat) : Fld := ⟨COLL_CHAN_CFG c, 60, 60⟩
def COLL_CHAN_CFG_crc_auto (c : Nat) : Fld := ⟨COLL_CHAN_CFG c, 59, 59⟩
def COLL_CHAN_CFG_stand (c : Nat) : Fld := ⟨COLL_CHAN_CFG c, 51, 48⟩
def COLL_CHAN_CFG_crc_thresh (c : Nat) : Fld := ⟨COLL_CHAN_CFG c, 39, 32⟩
def COLL_CHAN_CFG_size (c : Nat) : Fld := ⟨COLL_CHAN_CFG c, 24, 16⟩
def COLL_CHAN_CFG_base (c : Nat) : Fld := ⟨COLL_CHAN_CFG c, 7, 0⟩
def COLL_CHAN_STATUS_dropped (c : Nat) : Fld := ⟨COLL_CHAN_STATUS c, 63, 32⟩
def COLL_CHAN_STATUS_stage_conflicts (c : Nat) : Fld := ⟨COLL_CHAN_STATUS c, 31, 16⟩
def COLL_CHAN_STATUS_open_chunks (c : Nat) : Fld := ⟨COLL_CHAN_STATUS c, 4, 0⟩
def COLL_CHAN_CODE_raw_kib (c : Nat) : Fld := ⟨COLL_CHAN_CODE c, 63, 32⟩
def COLL_CHAN_CODE_coded_kib (c : Nat) : Fld := ⟨COLL_CHAN_CODE c, 31, 0⟩
def COLL_CHAN_CRC_resends (c : Nat) : Fld := ⟨COLL_CHAN_CRC c, 63, 48⟩
def COLL_CHAN_CRC_crc_fails (c : Nat) : Fld := ⟨COLL_CHAN_CRC c, 47, 32⟩
def COLL_CHAN_CRC_naks_window (c : Nat) : Fld := ⟨COLL_CHAN_CRC c, 31, 16⟩
def COLL_CHAN_CRC_rx_crc_fail (c : Nat) : Fld := ⟨COLL_CHAN_CRC c, 15, 0⟩
def STAND_EVENT_assign_rejected : Fld := ⟨STAND_EVENT, 63, 63⟩
def STAND_EVENT_key_rejected : Fld := ⟨STAND_EVENT, 62, 62⟩
def STAND_EVENT_freed : Fld := ⟨STAND_EVENT, 47, 32⟩
def STAND_EVENT_reset_done : Fld := ⟨STAND_EVENT, 31, 16⟩
def STAND_EVENT_active : Fld := ⟨STAND_EVENT, 15, 0⟩
def STAND_CFG_state (s : Nat) : Fld := ⟨STAND_CFG s, 63, 60⟩
def STAND_CFG_c_own (s : Nat) : Fld := ⟨STAND_CFG s, 47, 32⟩
def STAND_CFG_consent (s : Nat) : Fld := ⟨STAND_CFG s, 7, 7⟩
def STAND_CFG_park_allowed (s : Nat) : Fld := ⟨STAND_CFG s, 3, 3⟩
def STAND_CFG_trace_allowed (s : Nat) : Fld := ⟨STAND_CFG s, 2, 2⟩
def STAND_CFG_precision_consent_allowed (s : Nat) : Fld := ⟨STAND_CFG s, 1, 1⟩
def STAND_CFG_read_perf (s : Nat) : Fld := ⟨STAND_CFG s, 0, 0⟩
def STAND_MEM_SLOTS_slots (s : Nat) : Fld := ⟨STAND_MEM_SLOTS s, 61, 0⟩
def STAND_KEY_generate (s : Nat) : Fld := ⟨STAND_KEY s, 63, 63⟩
def STAND_KEY_loaded (s : Nat) : Fld := ⟨STAND_KEY s, 32, 32⟩
def STAND_KEY_handle (s : Nat) : Fld := ⟨STAND_KEY s, 31, 0⟩
def STAND_FAULT_last_cause (s : Nat) : Fld := ⟨STAND_FAULT s, 63, 56⟩
def STAND_FAULT_fault_count (s : Nat) : Fld := ⟨STAND_FAULT s, 31, 0⟩
def STAND_CTRL_reset (s : Nat) : Fld := ⟨STAND_CTRL s, 0, 0⟩
def STAND_TWIG_OWNER_valid (t : Nat) : Fld := ⟨STAND_TWIG_OWNER t, 63, 63⟩
def STAND_TWIG_OWNER_stand (t : Nat) : Fld := ⟨STAND_TWIG_OWNER t, 3, 0⟩
def MBX_FN_STATUS_hw_responder (m : Nat) : Fld := ⟨MBX_FN_STATUS m, 63, 63⟩
def MBX_FN_STATUS_b_serving (m : Nat) : Fld := ⟨MBX_FN_STATUS m, 62, 62⟩
def MBX_FN_STATUS_a_serving (m : Nat) : Fld := ⟨MBX_FN_STATUS m, 61, 61⟩
def MBX_FN_STATUS_load_level (m : Nat) : Fld := ⟨MBX_FN_STATUS m, 57, 56⟩
def MBX_FN_STATUS_session_major (m : Nat) : Fld := ⟨MBX_FN_STATUS m, 55, 48⟩
def MBX_FN_STATUS_session_minor (m : Nat) : Fld := ⟨MBX_FN_STATUS m, 47, 40⟩
def MBX_FN_STATUS_credit (m : Nat) : Fld := ⟨MBX_FN_STATUS m, 39, 32⟩
def MBX_FN_STATUS_exp_seq (m : Nat) : Fld := ⟨MBX_FN_STATUS m, 31, 0⟩
def MBX_REQ_DOORBELL_tail (m : Nat) : Fld := ⟨MBX_REQ_DOORBELL m, 15, 0⟩
def MBX_REQ_STATE_doorbell_err (m : Nat) : Fld := ⟨MBX_REQ_STATE m, 63, 63⟩
def MBX_REQ_STATE_in_intake (m : Nat) : Fld := ⟨MBX_REQ_STATE m, 55, 48⟩
def MBX_REQ_STATE_retire_seen (m : Nat) : Fld := ⟨MBX_REQ_STATE m, 47, 32⟩
def MBX_REQ_STATE_head (m : Nat) : Fld := ⟨MBX_REQ_STATE m, 31, 16⟩
def MBX_REQ_STATE_tail_seen (m : Nat) : Fld := ⟨MBX_REQ_STATE m, 15, 0⟩
def MBX_REQ_RETIRE_retire (m : Nat) : Fld := ⟨MBX_REQ_RETIRE m, 15, 0⟩
def MBX_EVT_HEAD_head (m : Nat) : Fld := ⟨MBX_EVT_HEAD m, 15, 0⟩
def MBX_EVT_STATE_lost (m : Nat) : Fld := ⟨MBX_EVT_STATE m, 47, 32⟩
def MBX_EVT_STATE_tail (m : Nat) : Fld := ⟨MBX_EVT_STATE m, 15, 0⟩
def MBX_IRQ_CFG_evt_irq_en (m : Nat) : Fld := ⟨MBX_IRQ_CFG m, 1, 1⟩
def MBX_IRQ_CFG_rsp_irq_en (m : Nat) : Fld := ⟨MBX_IRQ_CFG m, 0, 0⟩
def MBX_LOAD_CFG_stale_limit : Fld := ⟨MBX_LOAD_CFG, 63, 48⟩
def MBX_LOAD_CFG_shed_t3 : Fld := ⟨MBX_LOAD_CFG, 23, 16⟩
def MBX_LOAD_CFG_shed_t2 : Fld := ⟨MBX_LOAD_CFG, 15, 8⟩
def MBX_LOAD_CFG_shed_t1 : Fld := ⟨MBX_LOAD_CFG, 7, 0⟩
def MBX_LOAD_STATUS_level : Fld := ⟨MBX_LOAD_STATUS, 57, 56⟩
def MBX_LOAD_STATUS_intake_used : Fld := ⟨MBX_LOAD_STATUS, 55, 48⟩
def MBX_LOAD_STATUS_p0_in_reserve : Fld := ⟨MBX_LOAD_STATUS, 43, 40⟩
def MBX_LOAD_STATUS_oldest_p1_age : Fld := ⟨MBX_LOAD_STATUS, 31, 16⟩
def MBX_LOAD_STATUS_oldest_p2_age : Fld := ⟨MBX_LOAD_STATUS, 15, 0⟩
def MBX_SHED_COUNT_p1_busy : Fld := ⟨MBX_SHED_COUNT, 63, 32⟩
def MBX_SHED_COUNT_p2_busy : Fld := ⟨MBX_SHED_COUNT, 31, 0⟩
def MBX_CAL_STATUS_valid : Fld := ⟨MBX_CAL_STATUS, 63, 63⟩
def MBX_CAL_STATUS_at_end : Fld := ⟨MBX_CAL_STATUS, 62, 62⟩
def MBX_CAL_STATUS_set_ring : Fld := ⟨MBX_CAL_STATUS, 47, 0⟩
def MBX_LOG_STATUS_entries : Fld := ⟨MBX_LOG_STATUS, 45, 32⟩
def MBX_LOG_STATUS_next_log_seq : Fld := ⟨MBX_LOG_STATUS, 31, 0⟩
def MBX_EVENT_hw_responder : Fld := ⟨MBX_EVENT, 6, 6⟩
def MBX_EVENT_seq_error : Fld := ⟨MBX_EVENT, 5, 5⟩
def MBX_EVENT_event_lost : Fld := ⟨MBX_EVENT, 4, 4⟩
def MBX_EVENT_stale : Fld := ⟨MBX_EVENT, 3, 3⟩
def MBX_EVENT_shed_p1 : Fld := ⟨MBX_EVENT, 2, 2⟩
def MBX_EVENT_shed_p2 : Fld := ⟨MBX_EVENT, 1, 1⟩
def MBX_EVENT_cfg_rejected : Fld := ⟨MBX_EVENT, 0, 0⟩
def MBX_HEARTWOOD_token : Fld := ⟨MBX_HEARTWOOD, 7, 6⟩
def MBX_HEARTWOOD_b_running : Fld := ⟨MBX_HEARTWOOD, 1, 1⟩
def MBX_HEARTWOOD_a_running : Fld := ⟨MBX_HEARTWOOD, 0, 0⟩
def MBX_RED_CFG_auto_remap : Fld := ⟨MBX_RED_CFG, 63, 63⟩
def MBX_RED_CFG_fault_send_en : Fld := ⟨MBX_RED_CFG, 62, 62⟩
def MBX_RED_CFG_sink1_valid : Fld := ⟨MBX_RED_CFG, 29, 29⟩
def MBX_RED_CFG_sink0_valid : Fld := ⟨MBX_RED_CFG, 28, 28⟩
def MBX_RED_CFG_sink1 : Fld := ⟨MBX_RED_CFG, 23, 12⟩
def MBX_RED_CFG_sink0 : Fld := ⟨MBX_RED_CFG, 11, 0⟩
def MBX_RED_STATUS_a_healthy : Fld := ⟨MBX_RED_STATUS, 61, 61⟩
def MBX_RED_STATUS_b_healthy : Fld := ⟨MBX_RED_STATUS, 60, 60⟩
def MBX_RED_STATUS_takeover_running : Fld := ⟨MBX_RED_STATUS, 59, 59⟩
def MBX_RED_STATUS_drill_running : Fld := ⟨MBX_RED_STATUS, 58, 58⟩
def MBX_RED_STATUS_safe_hold : Fld := ⟨MBX_RED_STATUS, 57, 57⟩
def MBX_RED_STATUS_last_cause : Fld := ⟨MBX_RED_STATUS, 51, 48⟩
def MBX_RED_STATUS_lease_left : Fld := ⟨MBX_RED_STATUS, 44, 40⟩
def MBX_RED_STATUS_a_health_rings : Fld := ⟨MBX_RED_STATUS, 31, 16⟩
def MBX_RED_STATUS_takeovers : Fld := ⟨MBX_RED_STATUS, 15, 0⟩
def MBX_RED_NOTICE_sent : Fld := ⟨MBX_RED_NOTICE, 63, 32⟩
def MBX_RED_NOTICE_dropped : Fld := ⟨MBX_RED_NOTICE, 31, 0⟩
def MBX_RED_ROUTE_sink1_route : Fld := ⟨MBX_RED_ROUTE, 49, 32⟩
def MBX_RED_ROUTE_sink0_route : Fld := ⟨MBX_RED_ROUTE, 17, 0⟩
def PWR_STATUS_state : Fld := ⟨PWR_STATUS, 63, 61⟩
def PWR_STATUS_tier : Fld := ⟨PWR_STATUS, 60, 58⟩
def PWR_STATUS_cap_tier : Fld := ⟨PWR_STATUS, 57, 55⟩
def PWR_STATUS_narrow : Fld := ⟨PWR_STATUS, 54, 54⟩
def PWR_STATUS_ramp : Fld := ⟨PWR_STATUS, 53, 53⟩
def PWR_STATUS_brake : Fld := ⟨PWR_STATUS, 52, 52⟩
def PWR_STATUS_limit : Fld := ⟨PWR_STATUS, 51, 51⟩
def PWR_STATUS_throttle : Fld := ⟨PWR_STATUS, 50, 50⟩
def PWR_STATUS_steps_left : Fld := ⟨PWR_STATUS, 49, 46⟩
def PWR_STATUS_reach_ring : Fld := ⟨PWR_STATUS, 31, 0⟩
def PWR_ENVELOPE_prec_ok : Fld := ⟨PWR_ENVELOPE, 33, 33⟩
def PWR_ENVELOPE_park_ok : Fld := ⟨PWR_ENVELOPE, 32, 32⟩
def PWR_ENVELOPE_target : Fld := ⟨PWR_ENVELOPE, 11, 0⟩
def PWR_SEQ_narrow_req : Fld := ⟨PWR_SEQ, 3, 3⟩
def PWR_SEQ_tier_req : Fld := ⟨PWR_SEQ, 2, 0⟩
def PWR_CFG_trip_c : Fld := ⟨PWR_CFG, 39, 32⟩
def PWR_CFG_limit_c : Fld := ⟨PWR_CFG, 31, 24⟩
def PWR_CFG_throttle_c : Fld := ⟨PWR_CFG, 23, 16⟩
def PWR_CFG_release_c : Fld := ⟨PWR_CFG, 15, 8⟩
def PWR_CFG_park_free : Fld := ⟨PWR_CFG, 0, 0⟩
def PWR_THERM0_bough3 : Fld := ⟨PWR_THERM0, 63, 48⟩
def PWR_THERM0_bough2 : Fld := ⟨PWR_THERM0, 47, 32⟩
def PWR_THERM0_bough1 : Fld := ⟨PWR_THERM0, 31, 16⟩
def PWR_THERM0_bough0 : Fld := ⟨PWR_THERM0, 15, 0⟩
def PWR_THERM1_sample_seq : Fld := ⟨PWR_THERM1, 63, 32⟩
def PWR_THERM1_io1 : Fld := ⟨PWR_THERM1, 31, 16⟩
def PWR_THERM1_io0 : Fld := ⟨PWR_THERM1, 15, 0⟩
def PWR_EVENT_ramp_done : Fld := ⟨PWR_EVENT, 8, 8⟩
def PWR_EVENT_env_rejected : Fld := ⟨PWR_EVENT, 7, 7⟩
def PWR_EVENT_park_rejected : Fld := ⟨PWR_EVENT, 6, 6⟩
def PWR_EVENT_stack_hot : Fld := ⟨PWR_EVENT, 5, 5⟩
def PWR_EVENT_trip : Fld := ⟨PWR_EVENT, 4, 4⟩
def PWR_EVENT_limit : Fld := ⟨PWR_EVENT, 3, 3⟩
def PWR_EVENT_throttle : Fld := ⟨PWR_EVENT, 2, 2⟩
def PWR_EVENT_brake_release : Fld := ⟨PWR_EVENT, 1, 1⟩
def PWR_EVENT_brake_assert : Fld := ⟨PWR_EVENT, 0, 0⟩
def PWR_POWER_vin_mv : Fld := ⟨PWR_POWER, 63, 48⟩
def PWR_POWER_iin : Fld := ⟨PWR_POWER, 47, 32⟩
def PWR_POWER_power_w : Fld := ⟨PWR_POWER, 15, 0⟩
def PWR_HOLDUP_holdup_ok : Fld := ⟨PWR_HOLDUP, 16, 16⟩
def PWR_HOLDUP_commit_threshold : Fld := ⟨PWR_HOLDUP, 15, 8⟩
def PWR_HOLDUP_charge : Fld := ⟨PWR_HOLDUP, 7, 0⟩
def PWR_TRIP_REC_valid : Fld := ⟨PWR_TRIP_REC, 63, 63⟩
def PWR_TRIP_REC_source : Fld := ⟨PWR_TRIP_REC, 59, 56⟩
def PWR_TRIP_REC_stack : Fld := ⟨PWR_TRIP_REC, 55, 52⟩
def PWR_TRIP_REC_temp : Fld := ⟨PWR_TRIP_REC, 47, 32⟩
def PWR_TRIP_REC_ring : Fld := ⟨PWR_TRIP_REC, 31, 0⟩
def ID_PART_stepping : Fld := ⟨ID_PART, 31, 24⟩
def ID_PART_variant : Fld := ⟨ID_PART, 23, 16⟩
def ID_PART_part : Fld := ⟨ID_PART, 15, 0⟩
def ID_DIE_wafer (d : Nat) : Fld := ⟨ID_DIE d, 62, 58⟩
def ID_DIE_die_y (d : Nat) : Fld := ⟨ID_DIE d, 57, 53⟩
def ID_DIE_die_x (d : Nat) : Fld := ⟨ID_DIE d, 52, 48⟩
def ID_DIE_lot (d : Nat) : Fld := ⟨ID_DIE d, 47, 0⟩
def ID_BOOT_path : Fld := ⟨ID_BOOT, 63, 62⟩
def ID_BOOT_done : Fld := ⟨ID_BOOT, 61, 61⟩
def ID_BOOT_fail : Fld := ⟨ID_BOOT, 60, 60⟩
def ID_BOOT_stage : Fld := ⟨ID_BOOT, 59, 56⟩
def ID_BOOT_fail_cause : Fld := ⟨ID_BOOT, 55, 48⟩
def ID_BOOT_last_cause : Fld := ⟨ID_BOOT, 47, 45⟩
def ID_BOOT_stack_failed : Fld := ⟨ID_BOOT, 35, 24⟩
def ID_BOOT_boot_ms : Fld := ⟨ID_BOOT, 23, 0⟩
def ID_RESET_COUNT_warm_count : Fld := ⟨ID_RESET_COUNT, 63, 32⟩
def ID_RESET_COUNT_cold_count : Fld := ⟨ID_RESET_COUNT, 31, 0⟩
def ID_RESET_key : Fld := ⟨ID_RESET, 63, 48⟩
def ID_RESET_warm : Fld := ⟨ID_RESET, 0, 0⟩
def ID_LEAF_RESET_busy : Fld := ⟨ID_LEAF_RESET, 63, 63⟩
def ID_LEAF_RESET_result : Fld := ⟨ID_LEAF_RESET, 62, 60⟩
def ID_LEAF_RESET_twig : Fld := ⟨ID_LEAF_RESET, 15, 8⟩
def ID_LEAF_RESET_slot : Fld := ⟨ID_LEAF_RESET, 4, 0⟩
def ID_FUSE_SPARE_fuse_spare (t : Nat) : Fld := ⟨ID_FUSE_SPARE t, 38, 33⟩
def ID_FUSE_SPARE_bad_mask (t : Nat) : Fld := ⟨ID_FUSE_SPARE t, 32, 0⟩
def FLASH_STATUS_active_bank : Fld := ⟨FLASH_STATUS, 63, 63⟩
def FLASH_STATUS_bank0_state : Fld := ⟨FLASH_STATUS, 62, 60⟩
def FLASH_STATUS_bank1_state : Fld := ⟨FLASH_STATUS, 59, 57⟩
def FLASH_STATUS_phy_pending : Fld := ⟨FLASH_STATUS, 56, 56⟩
def FLASH_STATUS_recovery : Fld := ⟨FLASH_STATUS, 55, 55⟩
def FLASH_STATUS_floor : Fld := ⟨FLASH_STATUS, 47, 40⟩
def FLASH_STATUS_active_arb : Fld := ⟨FLASH_STATUS, 39, 32⟩
def FLASH_STATUS_active_version : Fld := ⟨FLASH_STATUS, 31, 0⟩
def FLASH_POLICY_refuse_migration : Fld := ⟨FLASH_POLICY, 3, 3⟩
def FLASH_POLICY_refuse_holdup : Fld := ⟨FLASH_POLICY, 2, 2⟩
def FLASH_POLICY_refuse_ramp : Fld := ⟨FLASH_POLICY, 1, 1⟩
def FLASH_POLICY_owner_lock : Fld := ⟨FLASH_POLICY, 0, 0⟩
def FLASH_XFER_state : Fld := ⟨FLASH_XFER, 63, 60⟩
def FLASH_XFER_header_result : Fld := ⟨FLASH_XFER, 59, 56⟩
def FLASH_XFER_act_cause : Fld := ⟨FLASH_XFER, 55, 52⟩
def FLASH_XFER_blocks_total : Fld := ⟨FLASH_XFER, 41, 32⟩
def FLASH_XFER_blocks_forwarded : Fld := ⟨FLASH_XFER, 25, 16⟩
def FLASH_XFER_blocks_stored : Fld := ⟨FLASH_XFER, 9, 0⟩
def FLASH_JOURNAL_seq : Fld := ⟨FLASH_JOURNAL, 63, 32⟩
def FLASH_JOURNAL_half : Fld := ⟨FLASH_JOURNAL, 16, 16⟩
def FLASH_JOURNAL_free_pages : Fld := ⟨FLASH_JOURNAL, 15, 8⟩
def FLASH_JOURNAL_page : Fld := ⟨FLASH_JOURNAL, 6, 0⟩
def FLASH_REC_CTRL_rec_state : Fld := ⟨FLASH_REC_CTRL, 63, 60⟩
def FLASH_REC_CTRL_rec_result : Fld := ⟨FLASH_REC_CTRL, 59, 56⟩
def FLASH_REC_CTRL_rec_stored : Fld := ⟨FLASH_REC_CTRL, 41, 32⟩
def FLASH_REC_CTRL_go : Fld := ⟨FLASH_REC_CTRL, 31, 31⟩
def FLASH_REC_CTRL_kind : Fld := ⟨FLASH_REC_CTRL, 30, 29⟩
def FLASH_REC_CTRL_block : Fld := ⟨FLASH_REC_CTRL, 9, 0⟩
def PERF_WIN_CFG_win_rings : Fld := ⟨PERF_WIN_CFG, 7, 0⟩
def PERF_SAMPLE_CTRL_irq_en : Fld := ⟨PERF_SAMPLE_CTRL, 63, 63⟩
def PERF_SAMPLE_CTRL_lost : Fld := ⟨PERF_SAMPLE_CTRL, 47, 32⟩
def PERF_SAMPLE_CTRL_tail : Fld := ⟨PERF_SAMPLE_CTRL, 21, 16⟩
def PERF_SAMPLE_CTRL_head : Fld := ⟨PERF_SAMPLE_CTRL, 5, 0⟩
def PERFW_SAMPLE_CTRL_irq_en (s : Nat) : Fld := ⟨PERFW_SAMPLE_CTRL s, 63, 63⟩
def PERFW_SAMPLE_CTRL_lost (s : Nat) : Fld := ⟨PERFW_SAMPLE_CTRL s, 47, 32⟩
def PERFW_SAMPLE_CTRL_tail (s : Nat) : Fld := ⟨PERFW_SAMPLE_CTRL s, 21, 16⟩
def PERFW_SAMPLE_CTRL_head (s : Nat) : Fld := ⟨PERFW_SAMPLE_CTRL s, 5, 0⟩
def TRC_CFG_bark_en : Fld := ⟨TRC_CFG, 63, 63⟩
def TRC_CFG_leaf_slots : Fld := ⟨TRC_CFG, 31, 0⟩
def TRC_STAND_EN_stand : Fld := ⟨TRC_STAND_EN, 15, 0⟩
def TRC_DROP_dropped : Fld := ⟨TRC_DROP, 63, 32⟩
def TRC_DROP_sent : Fld := ⟨TRC_DROP, 31, 0⟩
def TRC_FROST_frozen : Fld := ⟨TRC_FROST, 63, 63⟩
def TRC_FROST_pending : Fld := ⟨TRC_FROST, 62, 62⟩
def TRC_FROST_pin_en : Fld := ⟨TRC_FROST, 61, 61⟩
def TRC_FROST_knot_en : Fld := ⟨TRC_FROST, 60, 60⟩
def TRC_FROST_knot : Fld := ⟨TRC_FROST, 59, 48⟩
def TRC_FROST_at_ring : Fld := ⟨TRC_FROST, 47, 0⟩
def TRC_FROST_CTRL_release : Fld := ⟨TRC_FROST_CTRL, 1, 1⟩
def TRC_FROST_CTRL_freeze_next : Fld := ⟨TRC_FROST_CTRL, 0, 0⟩
def TRC_FROST_LOG_ring : Fld := ⟨TRC_FROST_LOG, 63, 16⟩
def TRC_FROST_LOG_ignored : Fld := ⟨TRC_FROST_LOG, 15, 8⟩
def TRC_FROST_LOG_source : Fld := ⟨TRC_FROST_LOG, 2, 0⟩
def TRC_HANG_CFG_enable : Fld := ⟨TRC_HANG_CFG, 63, 63⟩
def TRC_HANG_CFG_rings : Fld := ⟨TRC_HANG_CFG, 15, 0⟩
def TRC_HANG_STATUS_last_stand : Fld := ⟨TRC_HANG_STATUS, 51, 48⟩
def TRC_HANG_STATUS_last_queue : Fld := ⟨TRC_HANG_STATUS, 47, 45⟩
def TRC_HANG_STATUS_expired : Fld := ⟨TRC_HANG_STATUS, 15, 0⟩
def TRC_DUMP_STATUS_written : Fld := ⟨TRC_DUMP_STATUS, 63, 32⟩
def TRC_DUMP_STATUS_in_progress : Fld := ⟨TRC_DUMP_STATUS, 28, 28⟩
def TRC_DUMP_STATUS_next_slot : Fld := ⟨TRC_DUMP_STATUS, 27, 24⟩
def PWR_WAKE_pending : Fld := ⟨PWR_WAKE, 63, 63⟩
def PWR_WAKE_collided : Fld := ⟨PWR_WAKE, 62, 62⟩
def PWR_WAKE_pme_sent : Fld := ⟨PWR_WAKE, 61, 61⟩
def PWR_WAKE_wake_n : Fld := ⟨PWR_WAKE, 60, 60⟩
def PWR_WAKE_ring : Fld := ⟨PWR_WAKE, 47, 16⟩
def PWR_WAKE_reason : Fld := ⟨PWR_WAKE, 4, 0⟩
def PWR_WAKE_CFG_enable : Fld := ⟨PWR_WAKE_CFG, 4, 0⟩
def ID_I3C_dyn_valid : Fld := ⟨ID_I3C, 63, 63⟩
def ID_I3C_i2c_mode : Fld := ⟨ID_I3C, 62, 62⟩
def ID_I3C_ibi_en : Fld := ⟨ID_I3C, 61, 61⟩
def ID_I3C_hj_en : Fld := ⟨ID_I3C, 60, 60⟩
def ID_I3C_dyn_addr : Fld := ⟨ID_I3C, 56, 50⟩
def ID_I3C_pid : Fld := ⟨ID_I3C, 47, 0⟩

/-- Rows of the register map, part 0. -/
def regRows0 : List RegRow :=
  [ ⟨0x0, 1, 0x1, 1, 0x1, 1, 0x1, 0x0, 0x0, 0x0, 0x0, 0x0⟩ /- CLK_STATUS -/,
    ⟨0x8, 1, 0x1, 1, 0x1, 1, 0x1, 0x200, 0x0, 0x0, 0x0, 0x3ff⟩ /- CLK_IOSC_TRIM -/,
    ⟨0x10, 1, 0x1, 1, 0x1, 1, 0x1, 0x141913e72000, 0x0, 0x0, 0x0, 0x8000000000000001⟩ /- CLK_MON_CFG -/,
    ⟨0x18, 1, 0x1, 1, 0x1, 1, 0x1, 0xffff0000, 0x0, 0x0, 0x0, 0x0⟩ /- CLK_MON_COUNT -/,
    ⟨0x20, 1, 0x1, 1, 0x1, 1, 0x1, 0x1010, 0x3f, 0x0, 0x0, 0x0⟩ /- CLK_SSC_CFG -/,
    ⟨0x28, 1, 0x1, 1, 0x1, 1, 0x1, 0x1fffff, 0x1fffff, 0x0, 0x0, 0x0⟩ /- CLK_GATE_RUN -/,
    ⟨0x30, 1, 0x1, 1, 0x1, 1, 0x1, 0x1e7f00, 0x1fffff, 0x0, 0x0, 0x0⟩ /- CLK_GATE_SLEEP -/,
    ⟨0x38, 1, 0x1, 1, 0x1, 1, 0x1, 0x64000, 0x1fffff, 0x0, 0x0, 0x0⟩ /- CLK_GATE_DEEP -/,
    ⟨0x40, 1, 0x1, 1, 0x1, 1, 0x1, 0x0, 0x0, 0xf, 0x0, 0x0⟩ /- CLK_EVENT -/,
    ⟨0x100000, 1, 0x1, 1, 0x1, 1, 0x1, 0x10000001f1, 0xffff000101f3, 0x0, 0x0, 0x0⟩ /- RING_CFG -/,
    ⟨0x100008, 1, 0x1, 1, 0x1, 1, 0x1, 0x10, 0x0, 0x0, 0x0, 0x0⟩ /- RING_STATUS -/,
    ⟨0x100010, 1, 0x1, 1, 0x1, 1, 0x1, 0x0, 0x0, 0x0, 0x0, 0x0⟩ /- RING_TIME -/,
    ⟨0x100018, 1, 0x1, 1, 0x1, 1, 0x1, 0x0, 0x0, 0x0, 0x0, 0x0⟩ /- RING_LCLK -/,
    ⟨0x100020, 1, 0x1, 1, 0x1, 1, 0x1, 0x1f0000, 0x0, 0x0, 0x0, 0x0⟩ /- RING_SLIP_COUNT -/,
    ⟨0x100028, 1, 0x1, 1, 0x1, 1, 0x1, 0x0, 0x0, 0xf, 0x0, 0x0⟩ /- RING_EVENT -/,
    ⟨0x300000, 1, 0x1, 1, 0x1, 1, 0x1, 0x0, 0x0, 0x0, 0x1ff3f, 0x0⟩ /- TWIG_REMAP -/,
    ⟨0x300008, 1, 0x1, 1, 0x1, 1, 0x1, 0x0, 0x0, 0x0, 0x0, 0x0⟩ /- TWIG_WINDOW_REFUSED -/,
    ⟨0x300010, 1, 0x1, 1, 0x1, 1, 0x1, 0x0, 0x0, 0x8000000000000000, 0x0, 0x0⟩ /- TWIG_BBUF_STATUS -/,
    ⟨0x320000, 4, 0x80, 16, 0x8, 1, 0x1, 0x0, 0x8000000000003f3f, 0x0, 0x0, 0x0⟩ /- TWIG_BBUF_REGION -/,
    ⟨0x310000, 144, 0x80, 1, 0x1, 1, 0x1, 0xfc0, 0x0, 0x0, 0x0, 0x0⟩ /- TWIG_STATUS -/,
    ⟨0x310008, 144, 0x80, 1, 0x1, 1, 0x1, 0x0, 0x0, 0x0, 0x0, 0x0⟩ /- TWIG_OOS -/,
    ⟨0x310010, 144, 0x80, 1, 0x1, 1, 0x1, 0x0, 0x0, 0x0, 0x0, 0x0⟩ /- TWIG_STALE -/,
    ⟨0x310018, 144, 0x80, 1, 0x1, 1, 0x1, 0x0, 0x0, 0xffffffff, 0x0, 0x0⟩ /- TWIG_LEAF_FAULT -/,
    ⟨0x310020, 144, 0x80, 1, 0x1, 1, 0x1, 0x8786858483828180, 0x0, 0x0, 0x0, 0x0⟩ /- TWIG_SLOT_MAP0 -/ ]

/-- Rows of the register map, part 1. -/
def regRows1 : List RegRow :=
  [ ⟨0x310028, 144, 0x80, 1, 0x1, 1, 0x1, 0x8f8e8d8c8b8a8988, 0x0, 0x0, 0x0, 0x0⟩ /- TWIG_SLOT_MAP1 -/,
    ⟨0x310030, 144, 0x80, 1, 0x1, 1, 0x1, 0x9796959493929190, 0x0, 0x0, 0x0, 0x0⟩ /- TWIG_SLOT_MAP2 -/,
    ⟨0x310038, 144, 0x80, 1, 0x1, 1, 0x1, 0x9f9e9d9c9b9a9998, 0x0, 0x0, 0x0, 0x0⟩ /- TWIG_SLOT_MAP3 -/,
    ⟨0x310040, 144, 0x80, 1, 0x1, 1, 0x1, 0x101010101010101, 0x0, 0x0, 0x0, 0x0⟩ /- TWIG_EPOCH0 -/,
    ⟨0x310048, 144, 0x80, 1, 0x1, 1, 0x1, 0x101010101010101, 0x0, 0x0, 0x0, 0x0⟩ /- TWIG_EPOCH1 -/,
    ⟨0x310050, 144, 0x80, 1, 0x1, 1, 0x1, 0x101010101010101, 0x0, 0x0, 0x0, 0x0⟩ /- TWIG_EPOCH2 -/,
    ⟨0x310058, 144, 0x80, 1, 0x1, 1, 0x1, 0x101010101010101, 0x0, 0x0, 0x0, 0x0⟩ /- TWIG_EPOCH3 -/,
    ⟨0x1000000, 16, 0x1000, 4, 0x40, 1, 0x1, 0x4, 0x8000fffffffff11f, 0x0, 0x0, 0x0⟩ /- CQ_CFG -/,
    ⟨0x1000008, 16, 0x1000, 4, 0x40, 1, 0x1, 0x0, 0xfffffffff000, 0x0, 0x0, 0x0⟩ /- CQ_CPL_BASE -/,
    ⟨0x1000010, 16, 0x1000, 4, 0x40, 1, 0x1, 0x0, 0x0, 0x0, 0x800000000000ffff, 0x0⟩ /- CQ_DOORBELL -/,
    ⟨0x1000018, 16, 0x1000, 4, 0x40, 1, 0x1, 0x0, 0x0, 0xc00000000000, 0x0, 0x0⟩ /- CQ_STATE -/,
    ⟨0x1000100, 16, 0x1000, 1, 0x1, 1, 0x1, 0x0, 0x0, 0x0, 0x0, 0x0⟩ /- CQ_SHARE_MASK -/,
    ⟨0x1000108, 16, 0x1000, 1, 0x1, 1, 0x1, 0x0, 0x0, 0x0, 0x0, 0x0⟩ /- CQ_SHARE_RATE -/,
    ⟨0x200000, 1, 0x1, 1, 0x1, 1, 0x1, 0x0, 0x0, 0x0, 0x0, 0x0⟩ /- KNOT_STATUS -/,
    ⟨0x200008, 1, 0x1, 1, 0x1, 1, 0x1, 0x0, 0x0, 0x7, 0x0, 0x0⟩ /- KNOT_EVENT -/,
    ⟨0x200010, 1, 0x1, 1, 0x1, 1, 0x1, 0x0, 0x0, 0x0, 0x0, 0x0⟩ /- KNOT_LATE_COUNT -/,
    ⟨0x210000, 256, 0x8, 1, 0x1, 1, 0x1, 0x0, 0x800000000000000f, 0x0, 0x0, 0x0⟩ /- KNOT_GRANULE_OWNER -/,
    ⟨0x400000, 1, 0x1, 1, 0x1, 1, 0x1, 0x0, 0x0, 0x0, 0x0, 0x0⟩ /- HBM_STATUS -/,
    ⟨0x400008, 1, 0x1, 1, 0x1, 1, 0x1, 0x11820, 0x1fff0, 0x0, 0x0, 0x0⟩ /- HBM_CFG -/,
    ⟨0x400010, 1, 0x1, 1, 0x1, 1, 0x1, 0x0, 0x0, 0x3f, 0x0, 0x0⟩ /- HBM_EVENT -/,
    ⟨0x400018, 1, 0x1, 1, 0x1, 1, 0x1, 0x0, 0x80000000000003ff, 0x0, 0x0, 0x0⟩ /- HBM_RESERVE -/,
    ⟨0x400020, 1, 0x1, 1, 0x1, 1, 0x1, 0x0, 0x0, 0x0, 0x0, 0x0⟩ /- HBM_WINDOW_REFUSED -/,
    ⟨0x400028, 1, 0x1, 1, 0x1, 1, 0x1, 0x0, 0x0, 0x0, 0x0, 0x0⟩ /- HBM_FILL_STATUS -/,
    ⟨0x400030, 1, 0x1, 1, 0x1, 1, 0x1, 0x0, 0x0, 0x0, 0x0, 0x0⟩ /- HBM_KEY_STATUS -/ ]

/-- Rows of the register map, part 2. -/
def regRows2 : List RegRow :=
  [ ⟨0x400100, 12, 0x8, 1, 0x1, 1, 0x1, 0x0, 0x0, 0x0, 0x0, 0x0⟩ /- HBM_ECC_COUNT -/,
    ⟨0x400180, 1, 0x1, 1, 0x1, 1, 0x1, 0x0, 0x0, 0x0, 0x0, 0x0⟩ /- HBM_ECC_LAST -/,
    ⟨0x400200, 12, 0x8, 1, 0x1, 1, 0x1, 0x40, 0x0, 0x0, 0x0, 0x0⟩ /- HBM_SPARE -/,
    ⟨0x410000, 16, 0x20, 4, 0x8, 1, 0x1, 0x0, 0x8000000003ff03ff, 0x0, 0x0, 0x0⟩ /- HBM_REGION -/,
    ⟨0x500000, 1, 0x1, 1, 0x1, 1, 0x1, 0x0, 0xffff, 0x0, 0x0, 0x0⟩ /- LIMB_GLOBAL_CFG -/,
    ⟨0x500008, 1, 0x1, 1, 0x1, 1, 0x1, 0x0, 0x0, 0x0, 0x0, 0x0⟩ /- LIMB_GLOBAL_STATUS -/,
    ⟨0x510000, 18, 0x80, 1, 0x1, 1, 0x1, 0x4400, 0xff01, 0x0, 0x2, 0x0⟩ /- LIMB_CFG -/,
    ⟨0x510008, 18, 0x80, 1, 0x1, 1, 0x1, 0x0, 0x0, 0x0, 0x0, 0x0⟩ /- LIMB_STATUS -/,
    ⟨0x510010, 18, 0x80, 1, 0x1, 1, 0x1, 0x0, 0x0, 0x0, 0x0, 0x0⟩ /- LIMB_TRAINED -/,
    ⟨0x510018, 18, 0x80, 1, 0x1, 1, 0x1, 0x0, 0x0, 0x0, 0x0, 0x0⟩ /- LIMB_FEC -/,
    ⟨0x510020, 18, 0x80, 1, 0x1, 1, 0x1, 0x0, 0x0, 0x0, 0x0, 0x0⟩ /- LIMB_RETRY -/,
    ⟨0x510028, 18, 0x80, 1, 0x1, 1, 0x1, 0xff00, 0x0, 0x0, 0x0, 0x0⟩ /- LIMB_ELASTIC -/,
    ⟨0x510030, 18, 0x80, 1, 0x1, 1, 0x1, 0x0, 0x0, 0x0, 0x0, 0x0⟩ /- LIMB_CRYPTO -/,
    ⟨0x510038, 18, 0x80, 1, 0x1, 1, 0x1, 0x0, 0xffffffffffffffff, 0x0, 0x0, 0x0⟩ /- LIMB_KEY_MAP -/,
    ⟨0x510040, 18, 0x80, 1, 0x1, 1, 0x1, 0x0, 0xffff, 0x0, 0x0, 0x0⟩ /- LIMB_KEY_VALID -/,
    ⟨0x510048, 18, 0x80, 1, 0x1, 1, 0x1, 0x0, 0x0, 0xff, 0x0, 0x0⟩ /- LIMB_EVENT -/,
    ⟨0x600000, 1, 0x1, 1, 0x1, 1, 0x1, 0x0, 0x80000000ffff0fff, 0x0, 0x0, 0x0⟩ /- NI_NODE -/,
    ⟨0x600008, 1, 0x1, 1, 0x1, 1, 0x1, 0x201040400400, 0x8000ffffffffff00, 0x0, 0x0, 0x0⟩ /- NI_CFG -/,
    ⟨0x600010, 1, 0x1, 1, 0x1, 1, 0x1, 0x0, 0xf0fff, 0x0, 0x300000000, 0x0⟩ /- NI_DRAIN -/,
    ⟨0x600018, 1, 0x1, 1, 0x1, 1, 0x1, 0x0, 0x0, 0x7f, 0x0, 0x0⟩ /- NI_EVENT -/,
    ⟨0x600020, 1, 0x1, 1, 0x1, 1, 0x1, 0x0, 0x0, 0x0, 0x0, 0x0⟩ /- NI_RX_DROP0 -/,
    ⟨0x600028, 1, 0x1, 1, 0x1, 1, 0x1, 0x0, 0x0, 0x0, 0x0, 0x0⟩ /- NI_RX_DROP1 -/,
    ⟨0x600030, 1, 0x1, 1, 0x1, 1, 0x1, 0x0, 0x0, 0x0, 0x0, 0x0⟩ /- NI_LAST_DROP -/,
    ⟨0x600038, 1, 0x1, 1, 0x1, 1, 0x1, 0x0, 0x0, 0x0, 0x0, 0x0⟩ /- NI_RX_LATE -/ ]

/-- Rows of the register map, part 3. -/
def regRows3 : List RegRow :=
  [ ⟨0x600040, 1, 0x1, 1, 0x1, 1, 0x1, 0x0, 0x0, 0x0, 0x0, 0x0⟩ /- NI_FAULT_STATUS -/,
    ⟨0x600048, 1, 0x1, 1, 0x1, 1, 0x1, 0x0, 0x0, 0x0, 0x0, 0x0⟩ /- NI_MCAST_LATE -/,
    ⟨0x600050, 1, 0x1, 1, 0x1, 1, 0x1, 0x0, 0x0, 0x0, 0x0, 0x0⟩ /- NI_OP_EXPIRED -/,
    ⟨0x601000, 16, 0x8, 1, 0x1, 1, 0x1, 0x0, 0x3fffffffffffffff, 0x0, 0x0, 0x0⟩ /- NI_FSLOT_MASK -/,
    ⟨0x601080, 16, 0x8, 1, 0x1, 1, 0x1, 0x0, 0x80000000003f007f, 0x0, 0x0, 0x0⟩ /- NI_RANK_GRANT -/,
    ⟨0x602000, 256, 0x8, 1, 0x1, 1, 0x1, 0x0, 0x0, 0x0, 0x0, 0x0⟩ /- NI_FAULT_ENTRY -/,
    ⟨0x610000, 4096, 0x8, 1, 0x1, 1, 0x1, 0x0, 0x0, 0x0, 0x0, 0x0⟩ /- NI_CONG -/,
    ⟨0x604000, 4096, 0x8, 1, 0x1, 1, 0x1, 0x0, 0xfffffe000003ffff, 0x0, 0x0, 0x0⟩ /- NI_MCAST_GROUP -/,
    ⟨0x680000, 65536, 0x8, 1, 0x1, 1, 0x1, 0x0, 0xffffffffffffffff, 0x0, 0x0, 0x0⟩ /- NI_RANK_ENTRY -/,
    ⟨0x1000200, 16, 0x1000, 1, 0x1, 1, 0x1, 0x4, 0x8000fffffffff11f, 0x0, 0x0, 0x0⟩ /- CQ_TRIG_CFG -/,
    ⟨0x1000208, 16, 0x1000, 1, 0x1, 1, 0x1, 0x0, 0xfffffffff000, 0x0, 0x0, 0x0⟩ /- CQ_TRIG_CPL_BASE -/,
    ⟨0x1000210, 16, 0x1000, 1, 0x1, 1, 0x1, 0x0, 0x0, 0x0, 0x800000000000ffff, 0x0⟩ /- CQ_TRIG_DOORBELL -/,
    ⟨0x1000218, 16, 0x1000, 1, 0x1, 1, 0x1, 0x0, 0x0, 0xc00000000000, 0x0, 0x0⟩ /- CQ_TRIG_STATE -/,
    ⟨0x1000220, 16, 0x1000, 1, 0x1, 1, 0x1, 0x0, 0x0, 0x0, 0x0, 0x0⟩ /- CQ_TRIG_LATE_ERR -/,
    ⟨0x700000, 1, 0x1, 1, 0x1, 1, 0x1, 0x0, 0x0, 0x0, 0x0, 0x0⟩ /- COLL_STATUS -/,
    ⟨0x700008, 1, 0x1, 1, 0x1, 1, 0x1, 0x0, 0x0, 0x3f, 0x0, 0x0⟩ /- COLL_EVENT -/,
    ⟨0x700010, 1, 0x1, 1, 0x1, 1, 0x1, 0x100, 0xffff, 0x0, 0x0, 0x0⟩ /- COLL_CRC_WINDOW -/,
    ⟨0x701000, 2, 0x40, 8, 0x8, 1, 0x1, 0x0, 0xbfbfbfbfbfbfbfbf, 0x0, 0x0, 0x0⟩ /- COLL_SCHED -/,
    ⟨0x701100, 16, 0x8, 1, 0x1, 1, 0x1, 0x800080, 0xfff0fff, 0x0, 0x0, 0x0⟩ /- COLL_STAND_QUOTA -/,
    ⟨0x702000, 64, 0x20, 1, 0x1, 1, 0x1, 0x800001000000000, 0xb80f00ff01ff00ff, 0x0, 0x0, 0x0⟩ /- COLL_CHAN_CFG -/,
    ⟨0x702008, 64, 0x20, 1, 0x1, 1, 0x1, 0x0, 0x0, 0x0, 0x0, 0x0⟩ /- COLL_CHAN_STATUS -/,
    ⟨0x702010, 64, 0x20, 1, 0x1, 1, 0x1, 0x0, 0x0, 0x0, 0x0, 0x0⟩ /- COLL_CHAN_CODE -/,
    ⟨0x702018, 64, 0x20, 1, 0x1, 1, 0x1, 0x0, 0x0, 0x0, 0x0, 0x0⟩ /- COLL_CHAN_CRC -/,
    ⟨0x800000, 1, 0x1, 1, 0x1, 1, 0x1, 0x0, 0x0, 0x0, 0x0, 0x0⟩ /- STAND_STATUS -/ ]

/-- Rows of the register map, part 4. -/
def regRows4 : List RegRow :=
  [ ⟨0x800008, 1, 0x1, 1, 0x1, 1, 0x1, 0x0, 0x0, 0xc000ffffffffffff, 0x0, 0x0⟩ /- STAND_EVENT -/,
    ⟨0x801000, 16, 0x40, 1, 0x1, 1, 0x1, 0xffff00000000, 0xffff0000000f, 0x0, 0x0, 0x0⟩ /- STAND_CFG -/,
    ⟨0x801008, 16, 0x40, 1, 0x1, 1, 0x1, 0x0, 0x3fffffffffffffff, 0x0, 0x0, 0x0⟩ /- STAND_MEM_SLOTS -/,
    ⟨0x801010, 16, 0x40, 1, 0x1, 1, 0x1, 0x0, 0xffffffffffffffff, 0x0, 0x0, 0x0⟩ /- STAND_SEED -/,
    ⟨0x801018, 16, 0x40, 1, 0x1, 1, 0x1, 0x0, 0x0, 0x0, 0x8000000000000000, 0x0⟩ /- STAND_KEY -/,
    ⟨0x801020, 16, 0x40, 1, 0x1, 1, 0x1, 0x0, 0x0, 0x0, 0x0, 0x0⟩ /- STAND_FAULT -/,
    ⟨0x801028, 16, 0x40, 1, 0x1, 1, 0x1, 0x0, 0x0, 0x0, 0x1, 0x0⟩ /- STAND_CTRL -/,
    ⟨0x802000, 144, 0x8, 1, 0x1, 1, 0x1, 0x0, 0x800000000000000f, 0x0, 0x0, 0x0⟩ /- STAND_TWIG_OWNER -/,
    ⟨0x2000000, 16, 0x100, 1, 0x1, 1, 0x1, 0x400000000, 0x0, 0x0, 0x0, 0x0⟩ /- MBX_FN_STATUS -/,
    ⟨0x2001000, 1, 0x1, 1, 0x1, 1, 0x1, 0x2000000000, 0x0, 0x0, 0x0, 0x0⟩ /- MBX_FN_STATUS PF0 -/,
    ⟨0x2001100, 1, 0x1, 1, 0x1, 1, 0x1, 0x100000000, 0x0, 0x0, 0x0, 0x0⟩ /- MBX_FN_STATUS I3C -/,
    ⟨0x2000008, 18, 0x100, 1, 0x1, 1, 0x1, 0x0, 0x0, 0x0, 0xffff, 0x0⟩ /- MBX_REQ_DOORBELL -/,
    ⟨0x2000010, 18, 0x100, 1, 0x1, 1, 0x1, 0x0, 0x0, 0x8000000000000000, 0x0, 0x0⟩ /- MBX_REQ_STATE -/,
    ⟨0x2000018, 18, 0x100, 1, 0x1, 1, 0x1, 0x0, 0xffff, 0x0, 0x0, 0x0⟩ /- MBX_REQ_RETIRE -/,
    ⟨0x2000020, 18, 0x100, 1, 0x1, 1, 0x1, 0x0, 0xffff, 0x0, 0x0, 0x0⟩ /- MBX_EVT_HEAD -/,
    ⟨0x2000028, 18, 0x100, 1, 0x1, 1, 0x1, 0x0, 0x0, 0x0, 0x0, 0x0⟩ /- MBX_EVT_STATE -/,
    ⟨0x2000030, 18, 0x100, 1, 0x1, 1, 0x1, 0x0, 0x3, 0x0, 0x0, 0x0⟩ /- MBX_IRQ_CFG -/,
    ⟨0xa00000, 1, 0x1, 1, 0x1, 1, 0x1, 0x3333333333333333, 0x7777777777777777, 0x0, 0x0, 0x0⟩ /- MBX_CREDIT -/,
    ⟨0xa00008, 1, 0x1, 1, 0x1, 1, 0x1, 0x10000000100402, 0xffff000000ffffff, 0x0, 0x0, 0x0⟩ /- MBX_LOAD_CFG -/,
    ⟨0xa00010, 1, 0x1, 1, 0x1, 1, 0x1, 0x0, 0x0, 0x0, 0x0, 0x0⟩ /- MBX_LOAD_STATUS -/,
    ⟨0xa00018, 1, 0x1, 1, 0x1, 1, 0x1, 0x0, 0x0, 0x0, 0x0, 0x0⟩ /- MBX_SHED_COUNT -/,
    ⟨0xa00020, 1, 0x1, 1, 0x1, 1, 0x1, 0x0, 0x0, 0x0, 0x0, 0x0⟩ /- MBX_CAL_STATUS -/,
    ⟨0xa00028, 1, 0x1, 1, 0x1, 1, 0x1, 0x0, 0x0, 0x0, 0x0, 0x0⟩ /- MBX_LOG_STATUS -/,
    ⟨0xa00030, 1, 0x1, 1, 0x1, 1, 0x1, 0x0, 0x0, 0x7f, 0x0, 0x0⟩ /- MBX_EVENT -/ ]

/-- Rows of the register map, part 5. -/
def regRows5 : List RegRow :=
  [ ⟨0xa00038, 1, 0x1, 1, 0x1, 1, 0x1, 0x0, 0x0, 0x0, 0x0, 0x0⟩ /- MBX_HEARTWOOD -/,
    ⟨0xf00, 16, 0x100000, 1, 0x1, 1, 0x1, 0x0, 0xffffffffffffffff, 0x0, 0x0, 0x0⟩ /- BLOCK_SCRATCH -/,
    ⟨0xa00040, 1, 0x1, 1, 0x1, 1, 0x1, 0x8000000000000000, 0xc000000030ffffff, 0x0, 0x0, 0x0⟩ /- MBX_RED_CFG -/,
    ⟨0xa00048, 1, 0x1, 1, 0x1, 1, 0x1, 0x0, 0x0, 0x0, 0x0, 0x0⟩ /- MBX_RED_STATUS -/,
    ⟨0xa00050, 1, 0x1, 1, 0x1, 1, 0x1, 0x0, 0x0, 0x0, 0x0, 0x0⟩ /- MBX_RED_LAST -/,
    ⟨0xa00058, 1, 0x1, 1, 0x1, 1, 0x1, 0x0, 0x0, 0x0, 0x0, 0x0⟩ /- MBX_RED_NOTICE -/,
    ⟨0xa00060, 1, 0x1, 1, 0x1, 1, 0x1, 0x0, 0x3ffff0003ffff, 0x0, 0x0, 0x0⟩ /- MBX_RED_ROUTE -/,
    ⟨0x900000, 1, 0x1, 1, 0x1, 1, 0x1, 0x1000000000000000, 0x0, 0x0, 0x0, 0x0⟩ /- PWR_STATUS -/,
    ⟨0x900008, 1, 0x1, 1, 0x1, 1, 0x1, 0x960, 0x300000fff, 0x0, 0x0, 0x0⟩ /- PWR_ENVELOPE -/,
    ⟨0x900010, 1, 0x1, 1, 0x1, 1, 0x1, 0x0, 0xf, 0x0, 0x0, 0x0⟩ /- PWR_SEQ -/,
    ⟨0x900018, 3, 0x8, 1, 0x1, 1, 0x1, 0x0, 0xffffffffffffffff, 0x0, 0x0, 0x0⟩ /- PWR_PARK -/,
    ⟨0x900030, 1, 0x1, 1, 0x1, 1, 0x1, 0x7369645f01, 0x1, 0x0, 0x0, 0x0⟩ /- PWR_CFG -/,
    ⟨0x900040, 1, 0x1, 1, 0x1, 1, 0x1, 0x0, 0x0, 0x0, 0x0, 0x0⟩ /- PWR_THERM0 -/,
    ⟨0x900048, 1, 0x1, 1, 0x1, 1, 0x1, 0x0, 0x0, 0x0, 0x0, 0x0⟩ /- PWR_THERM1 -/,
    ⟨0x900050, 2, 0x8, 1, 0x1, 1, 0x1, 0x0, 0x0, 0x0, 0x0, 0x0⟩ /- PWR_THERM_HBM -/,
    ⟨0x900060, 1, 0x1, 1, 0x1, 1, 0x1, 0x0, 0x0, 0x1ff, 0x0, 0x0⟩ /- PWR_EVENT -/,
    ⟨0x900068, 1, 0x1, 1, 0x1, 1, 0x1, 0x0, 0x0, 0x0, 0x0, 0x0⟩ /- PWR_POWER -/,
    ⟨0x900070, 1, 0x1, 1, 0x1, 1, 0x1, 0x5a00, 0x0, 0x0, 0x0, 0x0⟩ /- PWR_HOLDUP -/,
    ⟨0x900078, 1, 0x1, 1, 0x1, 1, 0x1, 0x0, 0x0, 0x8000000000000000, 0x0, 0x0⟩ /- PWR_TRIP_REC -/,
    ⟨0xd00000, 1, 0x1, 1, 0x1, 1, 0x1, 0xb1424608, 0x0, 0x0, 0x0, 0x0⟩ /- ID_PART -/,
    ⟨0xd00008, 3, 0x8, 1, 0x1, 1, 0x1, 0x3030303030303030, 0x0, 0x0, 0x0, 0x0⟩ /- ID_SERIAL -/,
    ⟨0xd00100, 6, 0x8, 1, 0x1, 1, 0x1, 0x400303030303030, 0x0, 0x0, 0x0, 0x0⟩ /- ID_DIE -/,
    ⟨0xd00200, 1, 0x1, 1, 0x1, 1, 0x1, 0x0, 0x0, 0x0, 0x0, 0x0⟩ /- ID_BOOT -/,
    ⟨0xd00208, 1, 0x1, 1, 0x1, 1, 0x1, 0x0, 0x0, 0x0, 0x0, 0x0⟩ /- ID_RESET_COUNT -/ ]

/-- Rows of the register map, part 6. -/
def regRows6 : List RegRow :=
  [ ⟨0xd00210, 1, 0x1, 1, 0x1, 1, 0x1, 0x0, 0x0, 0x0, 0xffff000000000001, 0x0⟩ /- ID_RESET -/,
    ⟨0xd00218, 1, 0x1, 1, 0x1, 1, 0x1, 0x0, 0x0, 0x0, 0xff1f, 0x0⟩ /- ID_LEAF_RESET -/,
    ⟨0xd01000, 144, 0x8, 1, 0x1, 1, 0x1, 0x7e00000000, 0x0, 0x0, 0x0, 0x0⟩ /- ID_FUSE_SPARE -/,
    ⟨0xf00000, 1, 0x1, 1, 0x1, 1, 0x1, 0x0, 0x0, 0x0, 0x0, 0x0⟩ /- FLASH_STATUS -/,
    ⟨0xf00008, 1, 0x1, 1, 0x1, 1, 0x1, 0xe, 0xf, 0x0, 0x0, 0x0⟩ /- FLASH_POLICY -/,
    ⟨0xf00010, 1, 0x1, 1, 0x1, 1, 0x1, 0x0, 0x0, 0x0, 0x0, 0x0⟩ /- FLASH_XFER -/,
    ⟨0xf00018, 1, 0x1, 1, 0x1, 1, 0x1, 0x0, 0x0, 0x0, 0x0, 0x0⟩ /- FLASH_JOURNAL -/,
    ⟨0xf00020, 1, 0x1, 1, 0x1, 1, 0x1, 0x0, 0x0, 0x0, 0xe00003ff, 0x0⟩ /- FLASH_REC_CTRL -/,
    ⟨0xc00000, 1, 0x1, 1, 0x1, 1, 0x1, 0x0, 0xff, 0x0, 0x0, 0x0⟩ /- PERF_WIN_CFG -/,
    ⟨0xc00008, 1, 0x1, 1, 0x1, 1, 0x1, 0x0, 0x800000000000003f, 0x0, 0x0, 0x0⟩ /- PERF_SAMPLE_CTRL -/,
    ⟨0x3000000, 16, 0x8, 1, 0x1, 1, 0x1, 0x0, 0x800000000000003f, 0x0, 0x0, 0x0⟩ /- PERFW_SAMPLE_CTRL -/,
    ⟨0xb00000, 1, 0x1, 1, 0x1, 1, 0x1, 0x1, 0x80000000ffffffff, 0x0, 0x0, 0x0⟩ /- TRC_CFG -/,
    ⟨0xb00008, 1, 0x1, 1, 0x1, 1, 0x1, 0x0, 0xffff, 0x0, 0x0, 0x0⟩ /- TRC_STAND_EN -/,
    ⟨0xb00010, 1, 0x1, 1, 0x1, 1, 0x1, 0x0, 0x0, 0x0, 0x0, 0x0⟩ /- TRC_DROP -/,
    ⟨0xb00018, 1, 0x1, 1, 0x1, 1, 0x1, 0x0, 0x3fffffffffffffff, 0x0, 0x0, 0x0⟩ /- TRC_FROST -/,
    ⟨0xb00020, 1, 0x1, 1, 0x1, 1, 0x1, 0x0, 0x0, 0x0, 0x3, 0x0⟩ /- TRC_FROST_CTRL -/,
    ⟨0xb00028, 1, 0x1, 1, 0x1, 1, 0x1, 0x0, 0x0, 0x0, 0x0, 0x0⟩ /- TRC_FROST_LOG -/,
    ⟨0xb00030, 1, 0x1, 1, 0x1, 1, 0x1, 0x8000000000001000, 0x800000000000ffff, 0x0, 0x0, 0x0⟩ /- TRC_HANG_CFG -/,
    ⟨0xb00038, 1, 0x1, 1, 0x1, 1, 0x1, 0x0, 0x0, 0xffff, 0x0, 0x0⟩ /- TRC_HANG_STATUS -/,
    ⟨0xb00040, 1, 0x1, 1, 0x1, 1, 0x1, 0x0, 0x0, 0x0, 0x0, 0x0⟩ /- TRC_DUMP_STATUS -/,
    ⟨0x900080, 1, 0x1, 1, 0x1, 1, 0x1, 0x0, 0x0, 0x1f, 0x0, 0x0⟩ /- PWR_WAKE -/,
    ⟨0x900088, 1, 0x1, 1, 0x1, 1, 0x1, 0x1, 0x1f, 0x0, 0x0, 0x0⟩ /- PWR_WAKE_CFG -/,
    ⟨0xd00300, 1, 0x1, 1, 0x1, 1, 0x1, 0x700017cec13a6d6a, 0x0, 0x0, 0x0, 0x0⟩ /- ID_I3C -/,
    ⟨0xc10000, 4608, 0x20, 4, 0x8, 1, 0x1, 0x0, 0x0, 0x0, 0x0, 0x0⟩ /- PERF_LEAF_CTR -/ ]

/-- Rows of the register map, part 7. -/
def regRows7 : List RegRow :=
  [ ⟨0xc40000, 4608, 0x20, 4, 0x8, 1, 0x1, 0x0, 0xfffff, 0x0, 0x0, 0x0⟩ /- PERF_LEAF_SEL -/,
    ⟨0xc70000, 144, 0x40, 8, 0x8, 1, 0x1, 0x0, 0x0, 0x0, 0x0, 0x0⟩ /- PERF_TWIG_CTR -/,
    ⟨0xc74000, 144, 0x40, 8, 0x8, 1, 0x1, 0x0, 0xfffff, 0x0, 0x0, 0x0⟩ /- PERF_TWIG_SEL -/,
    ⟨0xc78000, 18, 0x80, 16, 0x8, 1, 0x1, 0x0, 0x0, 0x0, 0x0, 0x0⟩ /- PERF_LIMB_CTR -/,
    ⟨0xc79000, 18, 0x80, 16, 0x8, 1, 0x1, 0x0, 0xfffff, 0x0, 0x0, 0x0⟩ /- PERF_LIMB_SEL -/,
    ⟨0xc7a000, 16, 0x80, 16, 0x8, 1, 0x1, 0x0, 0x0, 0x0, 0x0, 0x0⟩ /- PERF_STAND_CTR -/,
    ⟨0xc7b000, 16, 0x480, 18, 0x40, 6, 0x8, 0x0, 0x0, 0x0, 0x0, 0x0⟩ /- PERF_STAND_LIMB -/,
    ⟨0xc80000, 62, 0x10, 2, 0x8, 1, 0x1, 0x0, 0x0, 0x0, 0x0, 0x0⟩ /- PERF_PORT_WIN -/ ]

/-- The whole register map. -/
def regRows : List RegRow :=
  regRows0 ++ regRows1 ++ regRows2 ++ regRows3 ++ regRows4 ++ regRows5 ++ regRows6 ++ regRows7

end Sys2Proof.Machine
end

