-- ==== Sys2Proof/Machine/Bits.lean ====
section
/-! DEFINITION. Bit fields, byte order and saturating counts. Every register field (R11), every little-endian structure of
memory and every mailbox slot is read and written through these. -/

namespace Sys2Proof.Machine

/-- Bits `hi` down to `lo` of a number. -/
def bitsOf (x hi lo : Nat) : Nat := (x >>> lo) % 2 ^ (hi + 1 - lo)

/-- Bit `i` of a number. -/
def bitOf (x i : Nat) : Bool := (x >>> i) % 2 == 1

/-- One or zero. -/
def bit (b : Bool) : Nat := if b then 1 else 0

/-- The mask of bits `hi` down to `lo`. -/
def maskOf (hi lo : Nat) : Word := BitVec.ofNat 64 ((2 ^ (hi + 1 - lo) - 1) <<< lo)

/-- A word with bits `hi` down to `lo` set to the low bits of `v`. -/
def putBits (w : Word) (hi lo v : Nat) : Word :=
  (w &&& ~~~(maskOf hi lo)) ||| (BitVec.ofNat 64 (v <<< lo) &&& maskOf hi lo)

/-- A field's value in a word. -/
def Fld.of (f : Fld) (w : Word) : Nat := bitsOf w.toNat f.hi f.lo

/-- A word with a field set. -/
def Fld.put (f : Fld) (w : Word) (v : Nat) : Word := putBits w f.hi f.lo v

/-- The largest value a field holds. -/
def Fld.max (f : Fld) : Nat := 2 ^ (f.hi + 1 - f.lo) - 1

/-- The low `n` bytes of a number, the least significant first. -/
def leBytes : Nat → Nat → List Byte
  | 0, _ => []
  | n + 1, v => BitVec.ofNat 8 v :: leBytes n (v >>> 8)

/-- The number a list of bytes spells, the least significant first. -/
def ofLe : List Byte → Nat
  | [] => 0
  | b :: bs => b.toNat + 256 * ofLe bs

/-- `n` bytes from offset `o` of a list, read as a number; bytes past its end are 0. -/
def bytesAt (bs : List Byte) (o n : Nat) : Nat := ofLe ((bs.drop o).take n)

/-- A list of exactly `n` bytes: cut, or filled with zeros. -/
def padTo (n : Nat) (bs : List Byte) : List Byte := bs.take n ++ List.replicate (n - bs.length) 0#8

/-- A list of bytes with `new` laid over it from offset `o`. -/
def splice (bs : List Byte) (o : Nat) (new : List Byte) : List Byte :=
  padTo o bs ++ new ++ bs.drop (o + new.length)

/-- A list with element `i` replaced. -/
def setAt {α : Type} (l : List α) (i : Nat) (x : α) : List α := l.set i x

/-- Byte `i` of a word. -/
def byteOf (w : Word) (i : Nat) : Nat := bitsOf w.toNat (8 * i + 7) (8 * i)

/-- A word with byte `i` replaced. -/
def putByte (w : Word) (i v : Nat) : Word := putBits w (8 * i + 7) (8 * i) v

/-- Number of bits set among the low `n` bits. -/
def popcount (n x : Nat) : Nat := (List.range n).countP (bitOf x)

/-- The positions of the bits set among the low `n` bits, rising. -/
def bitList (n x : Nat) : List Nat := (List.range n).filter (bitOf x)

/-- The number whose bits are those listed. -/
def maskOfList (l : List Nat) : Nat := l.foldl (fun m i => m ||| (1 <<< i)) 0

/-- A difference of 16-bit counters (R137, R328), modulo 2^16. -/
def sub16 (a b : Nat) : Nat := (a + 65536 - b % 65536) % 65536

/-- The smallest power-of-two exponent whose power is at least `n`. -/
def ceilDiv (a b : Nat) : Nat := (a + b - 1) / b

/-- An `n`-bit two's-complement number read as an integer. -/
def toSigned (n x : Nat) : Int := if x % 2 ^ n < 2 ^ (n - 1) then (x % 2 ^ n : Nat) else (x % 2 ^ n : Nat) - (2 ^ n : Nat)

/-- An integer as its `n`-bit two's-complement pattern. -/
def ofSigned (n : Nat) (i : Int) : Nat := (i % (2 ^ n : Nat)).toNat

/-- One bit into the reflected CRC-32C register (polynomial 0x1EDC6F41, reflected 0x82F63B78). -/
def crcBit (c : Nat) : Nat := if c % 2 = 1 then (c >>> 1) ^^^ 0x82F63B78 else c >>> 1

/-- One byte into the CRC-32C register. -/
def crcByte (c : Nat) (b : Byte) : Nat :=
  crcBit (crcBit (crcBit (crcBit (crcBit (crcBit (crcBit (crcBit (c ^^^ b.toNat))))))))

/-- CRC-32C of a byte string, initial value and final XOR all ones. -/
def crc32c (bs : List Byte) : Nat := (bs.foldl crcByte 0xFFFFFFFF) ^^^ 0xFFFFFFFF

end Sys2Proof.Machine
end

