-- ==== Sys2Proof/Machine/State.lean ====
section
/-! DEFINITION. The state of the Crown, as plain data. Registers (every register table of the spec) are one sparse map
from the addresses of Machine/RegMap.lean to words; an unlisted register holds its reset value. Everything the spec gives
the machine beside its registers stands in the structures below. -/

namespace Sys2Proof.Machine

/-- A sparse table: keys strictly rising, no entry equal to what an unlisted key holds. -/
abbrev SMap (α : Type) := List (Nat × α)

/-- One long accumulator (R113). `acc` counts units of 2^(4*anchor - 697), or 2^(4*anchor - 633) in the narrow window; `sat` marks
an anchor that would have passed 255 (R504). -/
structure Acc where
  acc    : Int := 0
  anchor : Nat := 0
  valid  : Bool := false
  sticky : Bool := false
  nan    : Bool := false
  pinf   : Bool := false
  ninf   : Bool := false
  sat    : Bool := false
deriving DecidableEq, Repr

/-- The arithmetic status of a command (R133, R80) and its trace flag (R156). -/
structure Status where
  accLoss   : Bool := false
  overflow  : Bool := false
  nanOut    : Bool := false
  narrow    : Bool := false
  formatErr : Bool := false
  emptyRow  : Bool := false
  nanRow    : Bool := false
  traced    : Bool := false
  flush     : Nat := 0
  memError  : Bool := false
deriving DecidableEq, Repr

/-- A sub-descriptor admitted to a leaf (R83, R151): the command it belongs to, its 64 bytes, the lclk it is planned to
start and end in, whether it runs in the narrow window, and whether its operation has run. -/
structure SubRun where
  stand  : Nat
  queue  : Nat
  index  : Nat
  uid    : Nat := 0
  opcode : Nat
  sub    : List Byte
  start  : Nat
  stop   : Nat
  narrow : Bool
  layer  : Nat
  ran    : Bool := false
deriving DecidableEq, Repr

/-- The state of one physical leaf beside its SRAM (03): the epoch stamp (R86), the clock enable, the 512 accumulators, the
attention streaming state (R78) with FP32 bit patterns, the vector register file, the admitted sub-descriptors, and the lclk from which its plan
leaves it free (*leaf_free* of R151). -/
structure Leaf where
  stamp  : Nat := 0
  clock  : Bool := false
  failed : Bool := false
  accs   : SMap Acc := []
  attnM  : SMap Nat := []
  attnL  : SMap Nat := []
  attnO  : SMap Nat := []
  vregs  : SMap Nat := []
  queue  : List SubRun := []
  free   : Nat := 0
deriving DecidableEq, Repr

/-- The fetch check a descriptor fails (R148): its status, the check and bough, the tag and ids of its record, and whether its completion
entry lies inside the stand's regions. -/
structure CheckFail where
  status  : Nat
  check   : Nat
  bough   : Nat
  tag     : Nat
  ids     : Nat
  written : Bool
deriving DecidableEq, Repr

/-- A fetched command (R148, R155): a number no other command of its queue has meanwhile (an entry may be used again while an earlier command of
it lives, R137), its descriptor, the sub-descriptor of each selected leaf, the boughs whose segment is
still to be admitted, the leaves that have not arrived, the slot it is eligible from, the boughs that deferred it and to which ring
(R152), and what its completion record will hold (R159): `last` is the lclk of its last arrive, and `failed` is a check
it failed while earlier commands of its queue still waited for admission (log entry 58). -/
structure Cmd where
  stand   : Nat
  queue   : Nat
  index   : Nat
  uid     : Nat := 0
  desc    : List Byte
  subs    : List (Nat × List Byte)
  boughs  : List Nat
  waiting : List Nat
  slot    : Nat
  status  : Nat := 0
  failBough : Nat := 0
  defers  : Nat := 0
  deferred : List (Nat × Nat) := []
  started : Option Nat := none
  ended   : Nat := 0
  last    : Nat := 0
  st      : Status := {}
  failed  : Option CheckFail := none
deriving DecidableEq, Repr

/-- The modes of a knot (*Knot record*). -/
inductive KnotMode where
  | count
  | flags
  | barrier
deriving DecidableEq, Repr

/-- A knot at its home slice (*Knot record*). `refire` marks a COUNT knot that fires again in the next lclk, `nextFire` is the lclk after its
last fire (R170). -/
structure Knot where
  value  : BitVec 32 := 0
  gen    : BitVec 16 := 0
  armed  : Bool := false
  mode   : KnotMode := .count
  step   : BitVec 32 := 0
  thresh : BitVec 32 := 0
  niMask : BitVec 2 := 0
  fireTime : Word := 0
  refire : Bool := false
  nextFire : Nat := 0
deriving DecidableEq, Repr

/-- The kinds of operation a knot takes (R165, *Knot record*). -/
inductive KnotOpKind where
  | arrive
  | add
  | signal
  | set
  | thresh
  | config
deriving DecidableEq, Repr

/-- A knot operation in flight (R165, R172, R175): its issuer's stand (none for PF0), its place in the source order of
R168, the lclk of issue, and the earliest lclk at the home slice (R176). `waits` says that it may be delayed behind another (R179). `home` is the
lclk it was applied there; the mirrors then take the mode and threshold it met, whether it was `taken`, and whether it `cleared` the knot. -/
structure KnotOp where
  knot  : Nat
  kind  : KnotOpKind
  data  : Nat
  stand : Option Nat
  source : Nat
  issue : Nat
  due   : Nat
  waits : Bool := false
  home  : Option Nat := none
  mode  : KnotMode := .count
  thresh : Nat := 0
  taken : Bool := false
  cleared : Bool := false
deriving DecidableEq, Repr

/-- A fire message on its way to an NI (R171). -/
structure FireMsg where
  io   : Nat
  knot : Nat
  gen  : Nat
  due  : Nat
deriving DecidableEq, Repr

/-- A line of HBM as stored: the key it was encrypted under (R198) and what its check symbols say (R201). -/
structure Line where
  key : Nat := 0
  err : LineErr := .clean
deriving DecidableEq, Repr

/-- The life of a posted trigger (R271-R276). -/
inductive TrigState where
  | posted
  | ready
  | running
  | finished
deriving DecidableEq, Repr

/-- A posted trigger (R272) with the operation it runs: packets still to send, packets sent and not yet acknowledged, what its
completion record will hold (R277), the members heard from and the ring of the bitmap of an MCAST_PUT (R262), the next group of a FOLD,
and under crc_e2e the packets sent that may still be resent (R296). -/
structure Trig where
  stand  : Nat
  index  : Nat
  io     : Nat
  desc   : List Byte
  state  : TrigState := .posted
  opId   : Nat := 0
  unsent : Nat := 0
  unacked : Nat := 0
  units  : Nat := 0
  status : Nat := 0
  cause  : Nat := 0
  flags  : Nat := 0
  crcOn  : Bool := false
  detail : List Byte := []
  bitmap : List Nat := []
  due    : Nat := 0
  nextGroup : Nat := 0
  kept   : List Packet := []
deriving DecidableEq, Repr

/-- A packet queued in an NI for a limb, or sent and not yet acknowledged (R247, R250, R258): `index` is its trigger's, `limb` its limb
once chosen (31 before), `group` the replay group of its last flit, `since` the ring in which a limb discarded it, `avoid` the limb that did (31 none),
`off` whether a scheduled trigger had to go best-effort (R254), `pad` the padding of its payload. -/
structure TxPkt where
  io     : Nat
  stand  : Nat
  index  : Nat
  sched  : Bool
  mgmt   : Bool
  route  : Nat
  limb   : Nat
  budget : Nat
  sent   : Bool
  lost   : Bool := false
  group  : Nat := 0
  since  : Nat
  avoid  : Nat := 31
  off    : Bool := false
  pad    : Nat := 0
  pkt    : Packet
deriving DecidableEq, Repr

/-- An open receive operation (R239-R241): `io` the NI that opened it, `fresh` whether a packet of it came in this ring. -/
structure RxOp where
  srcNode  : Nat
  srcEpoch : Nat
  srcStand : Nat
  opId     : Nat
  dstStand : Nat
  count    : Nat
  got      : List Nat
  highest  : List (Nat × Nat)
  io       : Nat := 0
  fresh    : Bool := true
  idle     : Nat := 0
  limb     : Nat := 0
  poison   : Bool := false
  late     : Bool := false
deriving DecidableEq, Repr

/-- A FAULT notice waiting in an NI for a management credit (R393): the NI, the sink, the reported node, code and epoch. -/
structure Notice where
  io    : Nat
  sink  : Nat
  node  : Nat
  code  : Nat
  epoch : Nat
deriving DecidableEq, Repr

/-- The network interfaces beside their registers (09, 10): fire counts (R273), keyed NI * 4096 + knot; posted triggers in posting
order; packets queued or unacknowledged; GET_RESP packets sent under crc_e2e (R296); packets that wait in receive buffers, oldest first (R239, R246); open receive operations; the
next op_id of each stand; credits in use at each limb's receiver; the I/O fabric cycle to which each limb and loopback path is taken by flits (R245); the
limbs that take no injection (R251); notices waiting, and those sent in this ring (R393); the stand and knot of the drain under way; stands NODE_SET holds drained, and those whose
held triggers resume at the next ring (R259); fault notices dropped in this ring (R266). -/
structure Ni where
  fires    : SMap Nat := []
  trigs    : List Trig := []
  txq      : List TxPkt := []
  replies  : List TxPkt := []
  rxBuf    : List Rx := []
  rxOps    : List RxOp := []
  nextOp   : SMap Nat := []
  busy     : SMap Nat := []
  beUsed   : SMap Nat := []
  mgUsed   : SMap Nat := []
  blocked  : List Nat := []
  notices  : List Notice := []
  noticed  : List Notice := []
  drainStand : Nat := 0
  drainKnot : Nat := 0
  held     : List Nat := []
  resume   : List Nat := []
  lostFaults : Nat := 0
deriving DecidableEq, Repr

/-- Contributions of one chunk of a channel (R282), and the slot (count of rings * 64 + slot) in which the last one was counted. -/
structure Chunk where
  channel : Nat
  chunk   : Nat
  count   : Nat
  slot    : Nat := 0
  poison  : Bool := false
deriving DecidableEq, Repr

/-- The reduction engines beside their registers (10): open chunk counts, the last slice a channel used (count of rings * 64 + slot + 1), the units
(engine, unit) still to be zeroized, whether a channel in change is to be valid with the units it left or entered (keyed by channel), the bytes under a KiB that LOSSLESS sends have not
brought to COLL_CHAN_CODE (keyed 2 * channel raw, + 1 coded), and the ring in which a channel's nak window began. -/
structure Coll where
  chunks : List Chunk := []
  sliced : SMap Nat := []
  dirty  : List (Nat × Nat) := []
  moved  : SMap (Bool × List (Nat × Nat)) := []
  spare  : SMap Nat := []
  window : SMap Nat := []
deriving DecidableEq, Repr

/-- One key index of a limb (R223-R225): the key of the current generation with its salt and counter, and the one before it, which the receiver
accepts while `old`. -/
structure LimbKey where
  handle : Nat := 0
  oldHandle : Nat := 0
  oldSalt : Nat := 0
  gen    : Bool := false
  old    : Bool := false
  counter : Nat := 0
  loadRing : Nat := 0
  salt   : Nat := 0
deriving DecidableEq, Repr

/-- What the header of a packet's or control flit's first flit holds beside its kind (R213): seq, the step of seq to the next flit (2 on a ×4 limb,
R230), how many leading flits are left out of a replay, retry, ack_group and nak. -/
structure FlitHead where
  seq      : Nat
  stride   : Nat := 1
  skip     : Nat := 0
  retry    : Bool := false
  ackGroup : Nat
  nak      : Bool
deriving DecidableEq, Repr

/-- The key a packet goes under (R222): index, generation, invocation counter, salt, and the key's handle. -/
structure SendKey where
  index   : Nat
  gen     : Bool
  counter : Nat
  salt    : Nat
  handle  : Nat
deriving DecidableEq, Repr

/-- What leaves the package at its boundary (R141, R213, R247, R338, R497). `Out.flits` in Machine/Frames.lean gives the flits of a packet or
control flit as bytes; subtype 0 is an idle flit. -/
inductive Out where
  | msix (fn vector : Nat)
  | data (bytes : List Byte) (poison : Bool)
  | packet (limb : Nat) (cls : Nat) (p : Packet) (head : FlitHead) (key : SendKey)
  | flit (limb : Nat) (subtype : Nat) (body : List Byte) (head : FlitHead)
  | ibi (byte : Nat)
  | i3c (bytes : List Byte)
  | pme
  | hotJoin
  | trace (bytes : List Byte)
deriving DecidableEq, Repr

/-- An entry of a limb's replay buffer (R217): the first and last replay group its flits lie in, and what was sent. -/
structure Sent where
  first : Nat
  last  : Nat
  out   : Out
deriving DecidableEq, Repr

/-- A packet a limb has accepted and its NI not yet taken (R220, R223): LATE, key index, class. -/
structure Handed where
  late  : Bool
  index : Nat
  vc    : Nat
deriving DecidableEq, Repr

/-- A limb beside its registers (08): lane failures, the partner's record, replay (R217-R219), cached coefficients (R226),
the marker baseline (R67) and its keys. `txNext` counts the flits sent and `acked` the groups acknowledged since training, both from replay group 64 on, so
that a flit's seq is its count modulo 4,096. `rxLate` and `rxKey` are of the packet in reception, `handed` of those received. -/
structure Limb where
  failed   : Nat := 0
  cached   : Bool := false
  cap      : Option Cap := none
  txNext   : Nat := 4096
  acked    : Nat := 64
  replay   : List Sent := []
  rxGroup  : Nat := 63
  rxNak    : Bool := false
  rxLate   : Bool := false
  rxKey    : Nat × Bool := (0, false)
  handed   : List Handed := []
  nakGroup : Option Nat := none
  nakCount : Nat := 0
  partnerHold : Bool := false
  baseline : Option Int := none
  slipFloor : Nat := 0
  keys     : SMap LimbKey := []
  pendKeys : List (Nat × LimbKey) := []
  cfg      : Word := 0
  tag      : Nat := 0
deriving DecidableEq, Repr

/-- The life of a stand beside STAND_CFG.state (R311-R316): the cause of a reset asked for or under way (0 owner, 1 tenant, 2 function-level
reset, 3 STAND_CTRL, 4 a teardown), the slot (count of rings * 64 + slot) it takes effect in, whether it has, and the ring whose guard band did its
work; a creation's writes that wait for a guard band; the step of a teardown (1 its reset, 2 its drain wanted, 3 its drain, 4 its clears
written, 5 committed); the ring of the guard band a creation or a teardown committed in; the consent flag to come. -/
structure Stand where
  resetCause : Option Nat := none
  resetSlot  : Nat := 0
  resetEntered : Bool := false
  bandRing   : Option Nat := none
  creating   : Bool := false
  teardown   : Nat := 0
  commitRing : Option Nat := none
  consentReq : Option Bool := none
deriving DecidableEq, Repr

/-- HBM beside its registers and contents (07): granules waiting for fill and in fill with the stand they enter, the committed word of each region
whose granules are not all filled (key 4 * stand + region; R207), the key a granule was last filled under, corrected reads per row in this scrub period, rows spared (once per spare row taken), rows being copied, rows with an
uncorrectable read, and fenced groups (R433). A row is (stack, row id). `bbufDirty` lists (bough, granule) of the bough
buffers awaiting zeroization (R96). -/
structure Hbm where
  waiting : List (Nat × Nat) := []
  filling : List (Nat × Nat) := []
  target  : SMap Word := []
  fillKey : SMap Nat := []
  rowHits : List ((Nat × Nat) × Nat) := []
  spared  : List (Nat × Nat) := []
  copying : List (Nat × Nat) := []
  badRows : List (Nat × Nat) := []
  fenced  : List Nat := []
  bbufDirty : List (Nat × Nat) := []
deriving DecidableEq, Repr

/-- The security blocks' keys (R199, R312): the key in each slot 0-16 (0 none), the next key number, the next handle, stand key loads
(slot, handle) that wait for step 5 of a guard band, and the transport key (TRANSPORT_KEY). -/
structure Keys where
  slots   : SMap Nat := []
  next    : Nat := 1
  handles : Nat := 1
  pending : List (Nat × Nat) := []
  transportPending : Bool := false
  transport : Bool := false
deriving DecidableEq, Repr

/-- The steps of R33. -/
inductive R33 where
  | waitEdges
  | trimming
  | windows
  | finished
deriving DecidableEq, Repr

/-- Clocks and the ring beside their registers (02): where R33 stands and the passing monitor windows it has counted in a row, whether the
ring counter runs, whether this ring establishes the epoch (R509), the current slot, the step of *Guard band order* this ring's guard band has
come to (0 before it; log entry 74), whether the standby PLLs had reported lock by the start of slot 62 (R52), the reference cycles of completed rings (their origin is arbitrary), the ring boundaries counted (R510), the latest lclk known and the lclk at which
this ring began (log entry 29), the first ring from whose slot 0 HBM serves scheduled access (R197), the tier the standby PLLs are set to and their lock, and a slip or disagreement to report. -/
structure Clock where
  r33      : R33 := .waitEdges
  windows  : Nat := 0
  ringOn   : Bool := false
  establishing : Bool := false
  slot     : Nat := 0
  band     : Nat := 0
  lockSeen : Bool := false
  refTotal : Nat := 65536
  rings    : Nat := 0
  now      : Nat := 0
  lclk0    : Nat := 0
  hbmFrom  : Nat := 0
  standby  : Option Nat := none
  standbyLocked : Bool := false
  slipDue  : Bool := false
deriving DecidableEq, Repr

/-- The sequencer beside its registers (15): the tier VDD_LC serves, whether a full set of readings is complete, the counts of
R411, a state asked for, an exit from deep sleep under way, a change waiting to commit, the ring a frequency fall is due in and
whether by the brake path, the ring VDD_LC falls in, the ring upward steps count from and how many are done, the ring in which
a change asked for a new choice (R406), and a trip (R413). -/
structure Power where
  vddTier  : Nat := 4
  fullSet  : Bool := false
  hotRings : Nat := 0
  coolRings : Nat := 0
  stateReq : Option Nat := none
  deepExit : Bool := false
  dirty    : Bool := false
  downAt   : Option Nat := none
  viaBrake : Bool := false
  vddDue   : Option Nat := none
  base     : Option Nat := none
  stepsDone : Nat := 0
  rechoose : Option Nat := none
  trip     : Bool := false
deriving DecidableEq, Repr

/-- Supplies, resets and bring-up (16): the causes of ID_RESET writes that wait, whether a bring-up completed since VIN, the cold
path, the HBM stage's end, waves enabled and scanned, the time of a flash commit the hold-up store
finishes (R500), the endpoint's release, and the images verified. -/
structure Boot where
  vin      : Bool := true
  vaux     : Bool := true
  warmPin  : Bool := false
  idReset  : List Nat := []
  everDone : Bool := false
  cold     : Bool := true
  hbmDone  : Bool := false
  leafRing : Nat := 0
  waves    : List Nat := []
  scanned  : List Nat := []
  holdup   : Option Nat := none
  endpoint : Bool := false
  imgA     : Bool := false
  imgB     : Bool := false
deriving DecidableEq, Repr

/-- A request fetched from a mailbox (R329, R331) with the class applied (R344) and the ring it entered intake. -/
structure Req where
  mbx    : Nat
  count  : Nat
  major  : Nat
  minor  : Nat
  opcode : Nat
  seq    : Nat
  stand  : Nat
  flags  : Nat
  cls    : Nat
  ring   : Nat
  payload : List Byte
deriving DecidableEq, Repr

/-- A request's record as mirrored to the standby (R336): the mailbox, the request counter, the response slot and payload,
whether the writes were done, and whether the standby holds it. -/
structure Record where
  mbx    : Nat
  count  : Nat
  slot   : List Byte
  body   : List Byte
  indirect : Option Nat
  held   : Bool := false
  done   : Bool := false
deriving DecidableEq, Repr

/-- A request whose response follows later (R311, R365, R366): `kind` 0 a creation, 1 register writes made while a stand is drained,
2 a limb key load with a new mapping, 3 NODE_SET, 4 rank entries; the stand and the drain knot; the writes; the stands NODE_SET has still to drain; the
phase (0 its drain is wanted, 1 draining, 2 written and waiting for the commit); for a key load its limbs and key; the response. -/
structure Admin where
  req    : Req
  kind   : Nat
  stand  : Nat
  knot   : Nat := 0
  writes : List (Nat × Word) := []
  left   : List (Nat × Nat) := []
  phase  : Nat := 0
  limbs  : Nat := 0
  index  : Nat := 0
  key    : LimbKey := {}
  body   : List Byte := []
deriving DecidableEq, Repr

/-- A telemetry sample of Heartwood (R349): its ring number and its place in the count of rings, package power, and the junction temperatures of the six dies. -/
structure Telemetry where
  ring  : Nat
  count : Nat
  power : Nat
  temps : List Int
deriving DecidableEq, Repr

/-- An entry of the event log (R353). `kind` is 0 for an event, 1 a calendar set, 2 a session opening, 3 a load level; `ref`
is the count of reference cycles when it was written (R383). -/
structure LogEntry where
  kind     : Nat := 0
  ref      : Nat := 0
  seq      : Nat
  ringTime : Word
  stamp    : Option Nat
  writer   : Nat
  severity : Nat
  code     : Nat
  stand    : Nat
  data     : List Byte
deriving DecidableEq, Repr

/-- An event to be posted (R338): its code, severity and stand, and for each mailbox its data bytes 8-31. -/
structure EventReq where
  code : Nat
  severity : Nat
  stand : Nat
  targets : List (Nat × List Byte)
deriving DecidableEq, Repr

/-- The management complex beside its registers (12, 14): the cause the token is to leave its holder for, a planned transfer's
cause and the ring from whose boundary on it may take place, a drill (ring of the request, hold, phase), the rings a takeover has run, a Safe Hold due at the next boundary, intake, the
P0 reserve, records, administration in progress, event sequences, discarded writes, the log and the calendar, the latest telemetry, leaf
faults told and not yet remapped, an activation pause, events that wait, the codes of those posted when they last could be, and the owner events
raised or posted in this ring. -/
structure Hw where
  leave    : Option Nat := none
  planned  : Option Nat := none
  plannedFrom : Nat := 0
  drill    : Option (Nat × Nat × Nat) := none
  takeoverRings : Nat := 0
  holdDue  : Bool := false
  intake   : List Req := []
  reserve  : List Req := []
  lastStand : Nat := 17
  records  : List Record := []
  admin    : List Admin := []
  evtSeq   : SMap Nat := []
  evtLost  : SMap Bool := []
  discardA : Nat := 0
  discardB : Nat := 0
  log      : List LogEntry := []
  calBase  : Nat := 0
  calRef   : Nat := 0
  telemetry : Option Telemetry := none
  remapWait : List (Nat × Nat) := []
  pausing  : Bool := false
  queued   : List EventReq := []
  posted   : List Nat := []
  once     : List Nat := []
deriving DecidableEq, Repr

/-- Firmware transfer, activation and recovery beside the FLASH registers (17). -/
structure Fw where
  nextNode  : Nat := 0xFFFF
  limbs     : Nat := 0
  half      : Option (List Byte) := none
  header    : List Byte := []
  parts     : List (Nat × List (Nat × List Byte)) := []
  complete  : List (Nat × List Byte) := []
  stored    : List Nat := []
  forward   : List Nat := []
  idleRings : Nat := 0
  activate  : Bool := false
deriving DecidableEq, Repr

/-- A trace record (R475) before its CRC. -/
structure TraceRec where
  kind   : Nat
  engine : Nat
  unit   : Nat
  stand  : Nat
  opcode : Nat
  status : Nat
  time   : Word
  ids    : Nat
  tag    : Nat
  detail : Nat
  seq    : Nat := 0
  offset : Nat := 0
deriving DecidableEq, Repr

/-- A sample taken and not yet written (R466, R467): its leaf and counter, the lclk of the crossing with its ring time and offset, the
value, the skid so far, and the sub-descriptor it names: opcode, queue, ids, tag. -/
structure Sample where
  leaf    : Nat
  counter : Nat
  t       : Nat
  time    : Nat
  offset  : Nat
  value   : Word
  skid    : Nat := 0
  named   : Option (Nat × Nat × Nat × Nat) := none
deriving DecidableEq, Repr

/-- A hang dump being written or waiting (R479, *Dump slot layout*): the stand (255 the package), the cause, the ring of the expiry, the first
capture ring, the writer, the queues expired. -/
structure Dump where
  stand : Nat
  cause : Nat
  time  : Nat
  first : Nat := 0
  writer : Nat := 0
  mask  : Nat := 0
  slot  : Nat := 0
deriving DecidableEq, Repr

/-- Counters, frost, trace and the hang watchdog beside their registers (18): samples to be written, whether the next sample follows
a drop, freezes due at a boundary with their source, the release due, the trace queues of R476 (0-3 the boughs, 4-5 the NIs) with the
source served next, rings without progress of each queue, and the bytes of the port windows (package port p; 64 + 36 s + p for stand
s) with the stands' latched windows and the window length in force. -/
structure Obs where
  samples   : List Sample := []
  lostFlag  : SMap Bool := []
  freezeAt  : List (Nat × Nat) := []
  releaseAt : Option Nat := none
  tracePort : Nat := 0
  traceQ    : SMap (List TraceRec) := []
  traceSeq  : SMap Nat := []
  traceLost : SMap Nat := []
  hang      : SMap Nat := []
  moved     : SMap Bool := []
  dump      : Option Dump := none
  dumpWait  : List Dump := []
  lastDump  : SMap Nat := []
  winBytes  : SMap Nat := []
  standWin  : SMap Nat := []
  winRings  : Nat := 1
deriving DecidableEq, Repr

/-- The identity registers of a PCIe function (R481, *PCIe identity*). -/
structure PcieId where
  vendor    : BitVec 16 := 0x1F64#16
  device    : BitVec 16
  revision  : BitVec 8 := 0xB1#8
  classCode : BitVec 24 := 0x120000#24
  subVendor : BitVec 16 := 0x1F64#16
  subsystem : BitVec 16
deriving DecidableEq, Repr

/-- The SR-IOV capability of PF0 (R482). -/
structure SrIov where
  totalVfs    : Nat := 16
  initialVfs  : Nat := 16
  firstOffset : Nat := 1
  stride      : Nat := 1
  pageSize    : Nat := 4096
deriving DecidableEq, Repr

/-- The PCIe endpoint (19): link with the width and the rate in GT/s it trained at (0 while it is down), SR-IOV settings, PF0 power management,
and the read-only part of configuration space: the identities of PF0 and of every VF, the SR-IOV capability. -/
structure Pcie where
  perst    : Bool := true
  link     : Bool := false
  l2       : Bool := false
  vfEnable : Bool := false
  numVfs   : Nat := 0
  d3       : Bool := false
  pmeEn    : Bool := false
  pmeStatus : Bool := false
  pmeDue   : Bool := false
  width    : Nat := 0
  rate     : Nat := 0
  pf0Id    : PcieId := { device := 0x4608#16, subsystem := 0x4608#16 }
  vfId     : PcieId := { device := 0x4609#16, subsystem := 0x4609#16 }
  sriov    : SrIov := {}
deriving DecidableEq, Repr

/-- The I3C port (19): unread response pairs and events, whether the last request has no response yet, the maximum lengths, the causes of the
next in-band interrupt, whether Hot-Join was raised. -/
structure I3c where
  rsp     : List (List Byte) := []
  evt     : List (List Byte) := []
  busy    : Bool := false
  mwl     : Nat := 65
  mrl     : Nat := 65
  ibi     : Nat := 0
  hotJoin : Bool := false
deriving DecidableEq, Repr

/-- The sideband output pins (R498); true is asserted. -/
structure Pins where
  thermtrip : Bool := false
  alert     : Bool := false
  hold      : Bool := false
  led       : Nat := 0
  ledLeft   : Nat := 0
deriving DecidableEq, Repr

/-- What the fuse bank holds (R437, R452, R489, log entry 4): the serial, the substrate lot, each die's ID_DIE word, each
twig's ID_FUSE_SPARE word, spare rows per stack, bytes 2-23 of each stack entry of R437, and the anti-rollback floor. -/
structure Fuses where
  serial    : List Byte := List.replicate 16 0x30#8
  substrate : List Byte := List.replicate 8 0x30#8
  dies      : List Word := List.replicate 6 0x0400303030303030#64
  spares    : SMap Word := []
  rowsLeft  : List Nat := List.replicate 12 64
  stackIds  : List (List Byte) := List.replicate 12 (List.replicate 22 0#8)
  floor     : Nat := 0
deriving DecidableEq, Repr

/-- The whole machine. `live` holds the values in force of registers whose writes commit at a guard band; `remap`, `restore` and `leafRst` the request of
TWIG_REMAP and of ID_LEAF_RESET in hand, with the count of the ring in whose guard band it acts (for a restore once its BIST has passed); `bells` the doorbells of
each queue (stand * 5 + queue, 4 for triggers) not yet used up, with the tail and the slot it counts from; `fetched` the descriptors a
queue fetched in this slot; `fence` the lclk of the last completion of a queue; `mirrors` the four dispatchers' mirrors, keyed by dispatcher * 4096 + knot;
`mirrorLog` their updates not yet read 2 lclk later, oldest first (R173): the lclk, the knot, the value before; `granules` the knot
granules that changed owner in this guard band. -/
structure State where
  regs    : SMap Word
  live    : SMap Word
  mem     : List Host.Cell
  lines   : SMap Line
  leaves  : SMap Leaf
  remap   : Option (Nat × Nat × Bool × Nat)
  restore : Option (Nat × Nat × Option Nat)
  leafRst : Option (Nat × Nat × Nat)
  bells   : List (Nat × Nat × Nat)
  fetched : SMap Nat
  fence   : SMap Nat
  cmds    : List Cmd
  knots   : SMap Knot
  mirrors : SMap (BitVec 32 × BitVec 16)
  mirrorLog : List (Nat × Nat × BitVec 32 × BitVec 16)
  granules : List Nat
  kops    : List KnotOp
  fires   : List FireMsg
  ni      : Ni
  coll    : Coll
  limbs   : SMap Limb
  stands  : SMap Stand
  hbm     : Hbm
  keys    : Keys
  clk     : Clock
  pwr     : Power
  boot    : Boot
  hw      : Hw
  fw      : Fw
  obs     : Obs
  pcie    : Pcie
  i3c     : I3c
  pins    : Pins
  fuses   : Fuses
  out     : List Out
  free    : Nat
  pending : List Instr
deriving DecidableEq, Repr

/-- Why the machine stops with a fault. No command of the Crown stops it: every row's effect is a next state. -/
inductive Fault where
  /-- Raised by no meaning; a closed inductive needs a constructor. Safe. -/
  | none
deriving DecidableEq, Repr

/-- Why a command is refused. -/
inductive Refusal where
  /-- Raised by a dispatch arm without a meaning, under the table's mnemonic. Safe. -/
  | notModelled (mnemonic : String)
deriving DecidableEq, Repr

/-- The machine right after a cold reset has taken effect: every register at the reset value of its table (nothing listed),
bring-up at stage 0, VIN and VAUX present, memory with nothing listed, no command waiting (log entries 3 to 6). -/
def State.reset : State where
  regs := []
  live := []
  mem := []
  lines := []
  leaves := []
  remap := none
  restore := none
  leafRst := none
  bells := []
  fetched := []
  fence := []
  cmds := []
  knots := []
  mirrors := []
  mirrorLog := []
  granules := []
  kops := []
  fires := []
  ni := {}
  coll := {}
  limbs := []
  stands := []
  hbm := {}
  keys := {}
  clk := {}
  pwr := {}
  boot := {}
  hw := {}
  fw := {}
  obs := {}
  pcie := {}
  i3c := {}
  pins := {}
  fuses := {}
  out := []
  free := 0
  pending := []

end Sys2Proof.Machine
end

