-- ==== Sys2Proof/Machine/Sparse.lean ====
section
/-! DEFINITION. Sparse tables in one canonical form: keys strictly rising and no entry equal to what an unlisted key
holds, so equal tables are equal data. Every table of the state and the memory are read and written here. Reading a key that
was set gives the value set, and every other key what it held, in every table, canonical or not. -/

namespace Sys2Proof.Machine

/-- What key `a` holds; `d` is what an unlisted key holds. -/
def SMap.get {α : Type} (d : α) : SMap α → Nat → α
  | [], _ => d
  | (k, v) :: m, a => if a = k then v else SMap.get d m a

/-- An entry for key `a` in its place. -/
def SMap.insert {α : Type} (a : Nat) (v : α) : SMap α → SMap α
  | [] => [(a, v)]
  | (k, w) :: m => if a < k then (a, v) :: (k, w) :: m else (k, w) :: SMap.insert a v m

/-- The table without key `a`. -/
def SMap.erase {α : Type} (m : SMap α) (a : Nat) : SMap α := m.filter fun e => decide (e.1 ≠ a)

/-- Set key `a` to `v`; `d` is what key `a` holds unlisted. -/
def SMap.set {α : Type} [DecidableEq α] (d : α) (m : SMap α) (a : Nat) (v : α) : SMap α :=
  if v = d then m.erase a else (m.erase a).insert a v

/-- Update key `a`. -/
def SMap.modify {α : Type} [DecidableEq α] (d : α) (m : SMap α) (a : Nat) (f : α → α) : SMap α :=
  m.set d a (f (m.get d a))

/-- Return every key from `lo` up to but not including `hi` to what an unlisted key holds. -/
def SMap.clear {α : Type} (m : SMap α) (lo hi : Nat) : SMap α :=
  m.filter fun e => decide (e.1 < lo) || decide (hi ≤ e.1)

/-- The keys rise strictly. -/
def SMap.sorted {α : Type} : SMap α → Bool
  | [] => true
  | [_] => true
  | (a, _) :: (b, w) :: m => decide (a < b) && SMap.sorted ((b, w) :: m)

/-- The canonical form: the keys rise strictly and no entry equals what its key holds unlisted. -/
def SMap.wf {α : Type} [DecidableEq α] (d : Nat → α) (m : SMap α) : Bool :=
  SMap.sorted m && m.all fun e => decide (e.2 ≠ d e.1)

end Sys2Proof.Machine
end

