-- ==== Sys2Proof/Machine/Ops.lean ====
section
/-! DEFINITION. The named operations of the machine: register fields, bytes of memory, time, free values, outputs, the
event log and the events of R338. -/

namespace Sys2Proof.Machine

/-- The answer of a meaning. -/
abbrev Res := Host.Outcome State Fault Refusal

/-- A command whose rule's condition holds has its effect; otherwise its event does not occur in this state and nothing
changes (log entry 14). -/
def State.when (c : Bool) (s t : State) : Res := .next (if c then t else s)

/-! ### Registers -/

/-- Whether `d` is `i * s1 + j * s2 + k * s3` for indices within the row's counts. -/
def RegRow.hasOffset (r : RegRow) (d : Nat) : Bool :=
  let i := if r.n1 ≤ 1 then 0 else min (d / r.s1) (r.n1 - 1)
  let d1 := d - i * r.s1
  let j := if r.n2 ≤ 1 then 0 else min (d1 / r.s2) (r.n2 - 1)
  let d2 := d1 - j * r.s2
  let k := if r.n3 ≤ 1 then 0 else min (d2 / r.s3) (r.n3 - 1)
  d2 - k * r.s3 == 0

/-- The row of the register map at an address. -/
def regRow (a : Nat) : Option RegRow := regRows.find? fun r => decide (r.base ≤ a) && r.hasOffset (a - r.base)

/-- A register's reset value (R11, column Reset). An address without a register reads 0. -/
def regReset (a : Nat) : Word :=
  match regRow a with
  | some r => BitVec.ofNat 64 r.reset
  | none => 0#64

/-- A register's value. -/
def State.rd (s : State) (a : Nat) : Word := s.regs.get (regReset a) a

/-- Set a register. -/
def State.wr (s : State) (a : Nat) (w : Word) : State := { s with regs := s.regs.set (regReset a) a w }

/-- A field's value. -/
def State.fld (s : State) (f : Fld) : Nat := f.of (s.rd f.reg)

/-- Set a field. -/
def State.setFld (s : State) (f : Fld) (v : Nat) : State := s.wr f.reg (f.put (s.rd f.reg) v)

/-- A one-bit field. -/
def State.flag (s : State) (f : Fld) : Bool := s.fld f == 1

/-- Set a one-bit field. -/
def State.setFlag (s : State) (f : Fld) (b : Bool) : State := s.setFld f (bit b)

/-- Count in a field that saturates. -/
def State.count (s : State) (f : Fld) (n : Nat) : State := s.setFld f (min f.max (s.fld f + n))

/-- Count in a field that wraps. -/
def State.countWrap (s : State) (f : Fld) (n : Nat) : State := s.setFld f (s.fld f + n)

/-- The value in force of a register whose writes commit at a guard band (R24). -/
def State.liveRd (s : State) (a : Nat) : Word := s.live.get (regReset a) a

/-- A field in force. -/
def State.liveFld (s : State) (f : Fld) : Nat := f.of (s.liveRd f.reg)

/-- A one-bit field in force. -/
def State.liveFlag (s : State) (f : Fld) : Bool := s.liveFld f == 1

/-- Put a value in force. -/
def State.setLive (s : State) (a : Nat) (w : Word) : State := { s with live := s.live.set (regReset a) a w }

/-- The register now holds the value in force. -/
def State.commitReg (s : State) (a : Nat) : State := s.setLive a (s.rd a)

/-! ### Memory: one address space for every byte the package holds -/

/-- HBM physical addresses (R183) are the first 576 GiB. -/
def hbmTop : Nat := 576 * 2 ^ 30

/-- The SRAM of the leaf at physical position `p` of twig `t` (R69). -/
def sramAt (t p : Nat) : Nat := 2 ^ 48 + (t * 33 + p) * 2 ^ 18

/-- The bough buffer of bough `b` (R92). -/
def bbufAt (b : Nat) : Nat := 2 ^ 49 + b * 2 ^ 26

/-- The fold buffer of engine `e` (R280). -/
def foldAt (e : Nat) : Nat := 2 ^ 49 + 2 ^ 30 + e * 2 ^ 24

/-- The window of mailbox `m` (R326). -/
def mbxAt (m : Nat) : Nat := 2 ^ 50 + m * 2 ^ 16

/-- The flash (R438). -/
def flashAt : Nat := 2 ^ 51

/-- The recovery buffer FLASH_REC_BUF (R459). -/
def recBufAt : Nat := 2 ^ 52

/-- The journal page a part leaves the factory with (log entry 15): record 1 names bank 0 active and valid, bank 1 empty. -/
def shippedRecord (o : Nat) : Byte :=
  match o with
  | 0 => 0x50#8 | 1 => 0x4C#8 | 2 => 0x4A#8 | 3 => 0x52#8 | 4 => 0x01#8 | 9 => 0x03#8 | 11 => 0x02#8
  | 244 => 0x39#8 | 245 => 0x51#8 | 246 => 0x30#8 | 247 => 0x9C#8
  | _ => 0x00#8

/-- What a byte nothing has written reads as: the first journal page as shipped, every other flash byte erased, every other
byte of the package 0 (log entry 15). -/
def memDefault (a : Nat) : Byte :=
  if a < flashAt then 0#8
  else if a < flashAt + 256 then shippedRecord (a - flashAt)
  else if a < flashAt + 2 ^ 27 then 0xFF#8 else 0#8

/-- The memory's canonical form. -/
def Memory.wf (m : List Host.Cell) : Bool := SMap.wf memDefault m

/-- One byte of memory. -/
def Memory.read (m : List Host.Cell) (a : Nat) : Byte := SMap.get (memDefault a) m a

/-- Write one byte. -/
def Memory.write (m : List Host.Cell) (a : Nat) (b : Byte) : List Host.Cell := SMap.set (memDefault a) m a b

/-- `n` bytes from `a`. -/
def Memory.readN (m : List Host.Cell) (a n : Nat) : List Byte := (List.range n).map fun i => Memory.read m (a + i)

/-- Write bytes from `a` on. -/
def Memory.writeN : List Host.Cell → Nat → List Byte → List Host.Cell
  | m, _, [] => m
  | m, a, b :: bs => Memory.writeN (Memory.write m a b) (a + 1) bs

/-- Return `n` bytes from `a` to the value of a byte nothing has written. -/
def Memory.blank (m : List Host.Cell) (a n : Nat) : List Host.Cell := SMap.clear m a (a + n)

/-- `n` bytes of the machine's memory. -/
def State.bytes (s : State) (a n : Nat) : List Byte := Memory.readN s.mem a n

/-- Write bytes to the machine's memory. -/
def State.store (s : State) (a : Nat) (bs : List Byte) : State := { s with mem := Memory.writeN s.mem a bs }

/-- Zeroize `n` bytes outside the flash. -/
def State.zeroize (s : State) (a n : Nat) : State := { s with mem := Memory.blank s.mem a n }

/-! ### Free values and outputs -/

/-- The next free word (log entry 7). -/
def State.freeWord (s : State) : Word := Config.freeWord s.free

/-- Advance the free-value counter. -/
def State.drawn (s : State) : State := { s with free := s.free + 1 }

/-- Bytes the spec leaves open (log entry 7). -/
def State.freeBytes (s : State) (n : Nat) : List Byte :=
  (List.range n).map fun i => BitVec.ofNat 8 ((Config.freeWord (s.free + i / 8)).toNat >>> (8 * (i % 8)))

/-- Advance the free-value counter past `n` bytes. -/
def State.drawnBytes (s : State) (n : Nat) : State := { s with free := s.free + n / 8 + 1 }

/-- Something leaves the package. -/
def State.emit (s : State) (o : Out) : State := { s with out := o :: s.out }

/-! ### Time and standing conditions -/

/-- The ring number (R10). -/
def State.ring (s : State) : Nat := s.fld RING_TIME_ring

/-- The ring in progress in the count of rings, which no renumbering moves (R510). -/
def State.rings (s : State) : Nat := s.clk.rings

/-- The count of the ring in whose guard band a change asked for now takes effect (R24): this ring's, while its guard band has not begun. -/
def State.nextBand (s : State) : Nat := if s.clk.band = 0 then s.rings else s.rings + 1

/-- Whether step 2 of *Guard band order* is under way, in a guard band of ring `r` or a later one. -/
def State.inStep2 (s : State) (r : Nat) : Bool := s.clk.band == 2 && decide (r ≤ s.rings)

/-- The ring period code in force (R42). -/
def State.period (s : State) : Nat := s.fld RING_STATUS_period

/-- The tier the tier-scaled clocks run at (PWR_STATUS.tier). -/
def State.tier (s : State) : Nat := min 4 (s.fld PWR_STATUS_tier)

/-- lclk per slot (R44). -/
def State.slotLen (s : State) : Nat := Config.slotLclk s.period s.tier

/-- lclk of the ring, at depth `cur_depth` (R47). -/
def State.ringLen (s : State) : Nat := Config.ringLclk s.period s.tier (s.fld CLK_SSC_CFG_cur_depth)

/-- Whether an epoch is established (R36). -/
def State.epoch (s : State) : Bool := s.flag RING_STATUS_epoch_valid

/-- The package power state: 0 run, 1 sleep, 2 stand-down, 3 deep sleep, 4 VAUX-only, 5 Safe Hold (R416). -/
def State.pwrState (s : State) : Nat := s.fld PWR_STATUS_state

/-- Safe Hold (R387). -/
def State.safeHold (s : State) : Bool := s.pwrState == 5

/-- The management-domain, core and leaf domains have power and clocks: VIN is present and no warm reset is held. -/
def State.powered (s : State) : Bool := s.boot.vin && !s.boot.warmPin

/-- The package after bring-up (R436) in a state other than Safe Hold. -/
def State.serving (s : State) : Bool := s.powered && s.flag ID_BOOT_done && !s.safeHold

/-- The clock enables in force (R55): stand-down applies those of run. -/
def State.gates (s : State) : Nat :=
  (s.liveRd (if s.pwrState = 1 then CLK_GATE_SLEEP else if s.pwrState = 3 then CLK_GATE_DEEP else CLK_GATE_RUN)).toNat

/-- Whether the core domain of a bough is clocked: its knots, mesh and dispatcher run (R55, R387, R413). -/
def State.coreOn (s : State) (b : Nat) : Bool := s.powered && !s.safeHold && !s.pwr.trip && bitOf s.gates (4 + b)

/-- Whether the leaves of a bough run: in the run state, with their domain clocked (R55, R416). -/
def State.leavesOn (s : State) (b : Nat) : Bool := s.coreOn b && s.pwrState == 0 && bitOf s.gates b

/-- The holder of the control token: 0 none, 1 A, 2 B (R371). -/
def State.token (s : State) : Nat := s.fld MBX_HEARTWOOD_token

/-- Whether the flash controller is clocked (R55). -/
def State.flashOn (s : State) : Bool := s.powered && bitOf s.gates 16

/-- Whether a security block is clocked (R55); either carries out a key load (log entry 90). -/
def State.secblkOn (s : State) : Bool := s.powered && bitsOf s.gates 20 19 != 0

/-- A Heartwood that acts: it holds the token, its clock runs (R55), and no takeover, activation pause or Safe Hold is under way. -/
def State.hwActs (s : State) : Bool :=
  s.powered && decide (s.token ≠ 0) && bitOf s.gates (16 + s.token) && !s.flag MBX_RED_STATUS_takeover_running && !s.safeHold && !s.hw.pausing

/-- A stand's state: STAND_CFG.state (R310): 0 FREE, 1 BUILDING, 2 ACTIVE, 3 RESETTING, 4 TEARDOWN. -/
def State.standState (s : State) (st : Nat) : Nat := s.fld (STAND_CFG_state st)

/-- The twig's stand in force (R308), if any. -/
def State.twigStand (s : State) (t : Nat) : Option Nat :=
  if s.liveFlag (STAND_TWIG_OWNER_valid t) then some (s.liveFld (STAND_TWIG_OWNER_stand t)) else none

/-- The twigs of a stand, rising. -/
def State.twigsOf (s : State) (st : Nat) : List Nat := (List.range 144).filter fun t => s.twigStand t == some st

/-- Apply a step over a list. -/
def State.forEach {α : Type} (s : State) (l : List α) (f : α → State → State) : State := l.foldl (fun s a => f a s) s

/-! ### Update of parts -/

/-- Change the NI part. -/
def State.onNi (s : State) (f : Ni → Ni) : State := { s with ni := f s.ni }
/-- Change the reduction engines' part. -/
def State.onColl (s : State) (f : Coll → Coll) : State := { s with coll := f s.coll }
/-- Change the HBM part. -/
def State.onHbm (s : State) (f : Hbm → Hbm) : State := { s with hbm := f s.hbm }
/-- Change the keys. -/
def State.onKeys (s : State) (f : Keys → Keys) : State := { s with keys := f s.keys }
/-- Change the clock part. -/
def State.onClk (s : State) (f : Clock → Clock) : State := { s with clk := f s.clk }
/-- Change the sequencer's part. -/
def State.onPwr (s : State) (f : Power → Power) : State := { s with pwr := f s.pwr }
/-- Change the bring-up part. -/
def State.onBoot (s : State) (f : Boot → Boot) : State := { s with boot := f s.boot }
/-- Change the management complex. -/
def State.onHw (s : State) (f : Hw → Hw) : State := { s with hw := f s.hw }
/-- Change the firmware part. -/
def State.onFw (s : State) (f : Fw → Fw) : State := { s with fw := f s.fw }
/-- Change the observability part. -/
def State.onObs (s : State) (f : Obs → Obs) : State := { s with obs := f s.obs }
/-- Change the PCIe endpoint. -/
def State.onPcie (s : State) (f : Pcie → Pcie) : State := { s with pcie := f s.pcie }
/-- Change the I3C port. -/
def State.onI3c (s : State) (f : I3c → I3c) : State := { s with i3c := f s.i3c }
/-- Change the output pins. -/
def State.onPins (s : State) (f : Pins → Pins) : State := { s with pins := f s.pins }
/-- One physical leaf. -/
def State.leaf (s : State) (t p : Nat) : Leaf := s.leaves.get {} (t * 33 + p)
/-- Change one physical leaf. -/
def State.onLeaf (s : State) (t p : Nat) (f : Leaf → Leaf) : State :=
  { s with leaves := s.leaves.modify {} (t * 33 + p) f }
/-- One limb. -/
def State.limb (s : State) (l : Nat) : Limb := s.limbs.get {} l
/-- Change one limb. -/
def State.onLimb (s : State) (l : Nat) (f : Limb → Limb) : State := { s with limbs := s.limbs.modify {} l f }
/-- One stand's administration. -/
def State.stand (s : State) (st : Nat) : Stand := s.stands.get {} st
/-- Change one stand's administration. -/
def State.onStand (s : State) (st : Nat) (f : Stand → Stand) : State := { s with stands := s.stands.modify {} st f }
/-- One knot at its home slice. -/
def State.knot (s : State) (k : Nat) : Knot := s.knots.get {} k
/-- Set one knot. -/
def State.setKnot (s : State) (k : Nat) (x : Knot) : State := { s with knots := s.knots.set {} k x }
/-- Set bits of a saturating-free event register (R14: hardware's set wins). -/
def State.setBits (s : State) (a m : Nat) : State := s.wr a (s.rd a ||| BitVec.ofNat 64 m)

/-! ### The calendar (R354-R358) -/

/-- R355. -/
def leapYear (y : Nat) : Bool := y % 400 == 0 || (y % 4 == 0 && !(y % 100 == 0))

/-- R355. -/
def monthDays (y m : Nat) : Nat :=
  if m == 2 then (if leapYear y then 29 else 28)
  else if m == 4 || m == 6 || m == 9 || m == 11 then 30 else 31

/-- Days from 2000-01-01 to the first day of year 2000 + `n`. -/
def daysToYear (n : Nat) : Nat := 365 * n + (n + 3) / 4 - (n + 99) / 100 + (n + 399) / 400

/-- Days of year `y` before month `m`. -/
def daysToMonth (y m : Nat) : Nat := ((List.range (m - 1)).map fun i => monthDays y (i + 1)).sum

/-- Microseconds in a day. -/
def dayUs : Nat := 86400000000

/-- The last microsecond of the range: 2399-12-31 23:59:59.999999. -/
def calendarEndUs : Nat := 146097 * dayUs - 1

/-- Whether a 12-byte stamp is valid (R356). -/
def stampOk (b : List Byte) : Bool :=
  let y := bytesAt b 0 2
  let m := bytesAt b 2 1
  decide (2000 ≤ y) && decide (y ≤ 2399) && decide (1 ≤ m) && decide (m ≤ 12)
    && decide (1 ≤ bytesAt b 3 1) && decide (bytesAt b 3 1 ≤ monthDays y m)
    && decide (bytesAt b 4 1 ≤ 23) && decide (bytesAt b 5 1 ≤ 59) && decide (bytesAt b 6 1 ≤ 59)
    && bytesAt b 7 1 == 0 && decide (bytesAt b 8 4 ≤ 999999)

/-- Microseconds from 2000-01-01 of a valid stamp. -/
def stampToUs (b : List Byte) : Nat :=
  let y := bytesAt b 0 2
  (daysToYear (y - 2000) + daysToMonth y (bytesAt b 2 1) + (bytesAt b 3 1 - 1)) * dayUs
    + ((bytesAt b 4 1 * 60 + bytesAt b 5 1) * 60 + bytesAt b 6 1) * 1000000 + bytesAt b 8 4

/-- The greatest `i < n` with `f i ≤ x`, or 0. -/
def lastAtMost (n : Nat) (f : Nat → Nat) (x : Nat) : Nat :=
  (List.range n).foldl (fun best i => if f i ≤ x then i else best) 0

/-- The stamp of a microsecond count. -/
def usToStamp (us : Nat) : List Byte :=
  let d := us / dayUs
  let y := lastAtMost 400 daysToYear d
  let m := 1 + lastAtMost 12 (fun i => daysToMonth (2000 + y) (i + 1)) (d - daysToYear y)
  let day := d - daysToYear y - daysToMonth (2000 + y) m + 1
  let sec := us % dayUs / 1000000
  leBytes 2 (2000 + y) ++ leBytes 1 m ++ leBytes 1 day ++ leBytes 1 (sec / 3600) ++ leBytes 1 (sec / 60 % 60)
    ++ leBytes 1 (sec % 60) ++ [0#8] ++ leBytes 4 (us % 1000000)

/-- Reference cycles counted, across rings and accepted pulses (R357). -/
def State.refNow (s : State) : Nat := s.clk.refTotal + s.fld RING_TIME_ref_cycle

/-- The calendar's count of microseconds: 1 for each 125 reference cycles since the set, held at the end (R357, R358). -/
def State.calendarUs (s : State) : Nat := min calendarEndUs (s.hw.calBase + (s.refNow - s.hw.calRef) / 125)

/-- The 12-byte stamp; zero while cal_valid is 0 (R353). -/
def State.calendarStamp (s : State) : List Byte :=
  if s.flag MBX_CAL_STATUS_valid then usToStamp s.calendarUs else List.replicate 12 0#8

/-! ### MSI-X, wakes, in-band interrupts and ALERT_N -/

/-- An MSI-X message of function `fn` (0 PF0, s + 1 the VF of stand s): sent while the link is up and the function
exists; otherwise lost (R484; log entry 16). -/
def State.msix (s : State) (fn vector : Nat) : State :=
  if s.pcie.link && (fn == 0 || (s.pcie.vfEnable && decide (fn ≤ s.pcie.numVfs))) then s.emit (.msix fn vector) else s

/-- Latch a wake reason (R487): only while a wake is needed and the reason is enabled. -/
def State.wake (s : State) (reason : Nat) : State :=
  if ((s.pcie.d3 && s.pcie.pmeEn) || s.pcie.l2) && bitOf (s.fld PWR_WAKE_CFG_enable) reason then
    let first := !s.flag PWR_WAKE_pending
    let s := s.setFld PWR_WAKE_reason (s.fld PWR_WAKE_reason ||| (1 <<< reason))
    if first then
      let s := ((s.setFlag PWR_WAKE_pending true).setFld PWR_WAKE_ring s.ring).onPcie fun p => { p with pmeDue := true }
      if s.pcie.l2 && s.boot.vin then s.setFlag PWR_WAKE_wake_n true else s
    else s
  else s

/-- Note a cause of the next IBI (R497): raised only while IBI is enabled and a dynamic address is assigned. -/
def State.ibi (s : State) (cause : Nat) : State :=
  if s.flag ID_I3C_ibi_en && s.flag ID_I3C_dyn_valid then
    s.onI3c fun i => { i with ibi := i.ibi ||| (1 <<< cause) }
  else s

/-- Drive ALERT_N to what R414 asks: asserted under throttle, limit, THERMTRIP_N or Safe Hold. -/
def State.alertPin (s : State) : State :=
  let on := s.flag PWR_STATUS_throttle || s.flag PWR_STATUS_limit || s.pins.thermtrip || s.safeHold
  let rise := on && !s.pins.alert
  let s := s.onPins fun p => { p with alert := on }
  if rise then s.ibi 2 else s

/-! ### The event log and events (R338, R352, R353) -/

/-- Write a log entry. -/
def State.logKind (s : State) (kind code severity stand : Nat) (data : List Byte) : State :=
  let e : LogEntry :=
    { kind, ref := s.refNow, seq := s.fld MBX_LOG_STATUS_next_log_seq, ringTime := s.rd RING_TIME,
      stamp := if s.flag MBX_CAL_STATUS_valid then some s.calendarUs else none,
      writer := s.token, severity, code, stand, data := padTo 32 data }
  ((s.onHw fun h => { h with log := (e :: h.log).take 8192 }).setFld MBX_LOG_STATUS_entries
      (min 8192 (s.fld MBX_LOG_STATUS_entries + 1))).countWrap MBX_LOG_STATUS_next_log_seq 1

/-- Log an event. -/
def State.log (s : State) (code severity stand : Nat) (data : List Byte) : State := s.logKind 0 code severity stand data

/-- Log a calendar set (1), a session opening (2) or a change of load level (3): the spec gives neither its code, its severity nor
its data (R353; log entry 26). -/
def State.logOther (s : State) (kind stand : Nat) : State :=
  s.logKind kind (Config.logCode kind) ((Config.logData kind 32).toNat % 5) stand ((List.range 32).map (Config.logData kind))

/-- The bytes of a log entry (*Log entry*). -/
def LogEntry.toBytes (e : LogEntry) : List Byte :=
  leBytes 4 e.seq ++ leBytes 8 e.ringTime.toNat
    ++ (match e.stamp with | some u => usToStamp u | none => List.replicate 12 0#8)
    ++ leBytes 1 (bit e.stamp.isSome + 2 * e.writer) ++ leBytes 1 e.severity ++ leBytes 2 e.code ++ leBytes 1 e.stand
    ++ leBytes 3 0 ++ padTo 32 e.data

/-- Slots of a mailbox's event ring (R325). -/
def evtSlots (m : Nat) : Nat := if m == 17 then 8 else 32

/-- Whether a mailbox's session is of SMP 2.x (R342). -/
def State.smp2 (s : State) (m : Nat) : Bool := s.fld (MBX_FN_STATUS_session_major m) == 2

/-- The 64 bytes of an event slot (R331, *Event payload*). -/
def State.eventSlot (s : State) (m : Nat) (code severity stand logSeq : Nat) (data : List Byte) : List Byte :=
  let seq := s.hw.evtSeq.get 0 m
  let old := s.smp2 m
  leBytes 1 (s.fld (MBX_FN_STATUS_session_major m)) ++ leBytes 1 (s.fld (MBX_FN_STATUS_session_minor m)) ++ leBytes 2 0
    ++ leBytes 4 seq ++ leBytes 1 stand ++ leBytes 1 0
    ++ leBytes 2 (16 * bit (bitOf seq 5) + 64 * bit (s.hw.evtLost.get false m)) ++ leBytes 4 32
    ++ leBytes 1 (if old then 0 else s.token) ++ leBytes 1 0 ++ leBytes 2 0 ++ leBytes 2 0 ++ leBytes 2 0
    ++ leBytes 8 (if old then 0 else (s.rd RING_TIME).toNat)
    ++ leBytes 2 code ++ leBytes 1 severity ++ leBytes 1 0 ++ leBytes 4 logSeq ++ padTo 24 data

/-- The posting of an event raises the mailbox's vector or IBI and may latch a wake (R487). -/
def State.evtSignal (s : State) (m : Nat) : State :=
  if m = 17 then s.ibi 1
  else
    let s := if s.flag (MBX_IRQ_CFG_evt_irq_en m) then (if m = 16 then s.msix 0 0 else s.msix (m + 1) 5) else s
    s.wake (if m = 16 then 0 else 1)

/-- Post an event into one mailbox's ring (R338): a full ring drops it. -/
def State.postTo (s : State) (code severity stand logSeq m : Nat) (data : List Byte) : State :=
  if decide (evtSlots m ≤ sub16 (s.fld (MBX_EVT_STATE_tail m)) (s.fld (MBX_EVT_HEAD_head m))) then
    ((s.count (MBX_EVT_STATE_lost m) 1).setFlag MBX_EVENT_event_lost true).onHw fun h =>
      { h with evtLost := h.evtLost.set false m true }
  else
    let slot := s.eventSlot m code severity stand logSeq data
    let seq := s.hw.evtSeq.get 0 m
    let s := s.onHw fun h => { h with evtSeq := h.evtSeq.set 0 m ((seq + 1) % 2 ^ 32), evtLost := h.evtLost.set false m false }
    let s := (s.store (mbxAt m + 0x3000 + 64 * (seq % evtSlots m)) slot).countWrap (MBX_EVT_STATE_tail m) 1
    (if m = 17 then s.onI3c fun i => { i with evt := i.evt ++ [slot] } else s).evtSignal m

/-- Log an event and post it to its mailboxes. -/
def State.postNow (s : State) (e : EventReq) : State :=
  let seq := s.fld MBX_LOG_STATUS_next_log_seq
  let s := s.log e.code e.severity e.stand (match e.targets with | (_, d) :: _ => d | [] => [])
  s.forEach e.targets fun t s => s.postTo e.code e.severity e.stand seq t.1 t.2

/-- Post an event, or queue it behind the takeover while no Heartwood acts (R386). -/
def State.event (s : State) (e : EventReq) : State :=
  if s.hwActs then s.postNow e else s.onHw fun h => { h with queued := h.queued ++ [e] }

/-- Post an event to the owner: PF0 and I3C (R338). -/
def State.eventOwner (s : State) (code severity stand : Nat) (data : List Byte) : State :=
  s.event { code, severity, stand, targets := [(16, data), (17, data)] }

/-- Post an event to the owner and a stand's VF. -/
def State.eventBoth (s : State) (code severity stand : Nat) (data vf : List Byte) : State :=
  s.event { code, severity, stand, targets := [(16, data), (17, data), (stand, vf)] }

/-- The codes of the events posted at most once per ring (R67, R266, R338, R391). -/
def onceCodes : List Nat := [0x0010, 0x0022, 0x0023]

/-- Post the events that waited (R386): of those limited to once per ring one of a code now, the others in later rings (R338; log entry
98). -/
def State.postQueued (s : State) : State :=
  let q := s.hw.queued
  (s.onHw fun h => { h with queued := [], posted := [] }).forEach q fun e s =>
    if onceCodes.contains e.code && s.hw.posted.contains e.code then s.onHw fun h => { h with queued := h.queued ++ [e] }
    else (s.onHw fun h => { h with posted := e.code :: h.posted, once := e.code :: h.once }).postNow e

/-- An owner event limited to once per ring (R338): posted once, then not again before the next ring boundary. -/
def State.eventOnce (s : State) (code severity stand : Nat) (data : List Byte) : State :=
  if s.hw.once.contains code then s
  else (s.onHw fun h => { h with once := code :: h.once }).eventOwner code severity stand data

/-- Event data with fields at payload offsets 8 to 31: each entry is an offset, a width in bytes and a value. -/
def evData (fs : List (Nat × Nat × Nat)) : List Byte :=
  fs.foldl (fun bs f => splice bs (f.1 - 8) (leBytes f.2.1 f.2.2)) (List.replicate 24 0#8)

end Sys2Proof.Machine
end

