-- ==== Sys2Proof/Machine/Counters.lean ====
section
/-! DEFINITION. Counters, frost and the trace queues (18_observability.md), used by everything that is counted or traced. -/

namespace Sys2Proof.Machine

/-- Whether counters are frozen (R469). -/
def State.frozen (s : State) : Bool := s.flag TRC_FROST_frozen

/-- Add to a 64-bit counter, which wraps (R460) and holds while frozen (R469). -/
def State.bump (s : State) (a n : Nat) : State := if s.frozen ∨ n = 0 then s else s.wr a (s.rd a + BitVec.ofNat 64 n)

/-- Count in a stand counter (R463). -/
def State.standCtr (s : State) (st i n : Nat) : State := if s.standState st = 0 then s else s.bump (PERF_STAND_CTR st i) n

/-- Count in the stand limb view (R464). -/
def State.limbView (s : State) (st l i n : Nat) : State := s.bump (PERF_STAND_LIMB st l i) n

/-- Bytes in a port window (R465). -/
def State.portBytes (s : State) (p n : Nat) : State :=
  if s.frozen then s else s.onObs fun o => { o with winBytes := o.winBytes.modify 0 p (· + n) }

/-- Bytes of a stand through a limb, in the package's window and in the stand's (R465): ports 0-17 transmit, 18-35 receive. -/
def State.limbBytes (s : State) (st p n : Nat) : State := (s.portBytes p n).portBytes (64 + 36 * st + p) n

/-- A window closes in step 5 of the guard band of ring `r` when (r + 1) mod W = 0 (R465); a change of W takes effect at a close. -/
def State.closeWindows (s : State) : State :=
  let r := s.ring
  if s.frozen ∨ (r + 1) % s.obs.winRings ≠ 0 then s
  else
    let w := s.obs.winBytes
    let s := s.forEach (List.range 62) fun p s =>
      (s.wr (PERF_PORT_WIN p 0) (BitVec.ofNat 64 (w.get 0 p))).wr (PERF_PORT_WIN p 1) (BitVec.ofNat 64 r)
    let latch := (List.range 576).foldl (fun m i =>
      (m.set 0 (2 * i) (w.get 0 (64 + i))).set 0 (2 * i + 1) r) s.obs.standWin
    s.onObs fun o => { o with winBytes := [], standWin := latch, winRings := s.fld PERF_WIN_CFG_win_rings + 1 }

/-! ### Selectable counters (R460, R461) -/

/-- A selectable counter adds for an event: `cycles` in level mode, `edges` in edge mode. -/
def State.selCount (s : State) (sel ctr ev cycles edges : Nat) : State :=
  let w := (s.liveRd sel).toNat
  if bitsOf w 6 0 = ev then s.bump ctr (if bitOf w 7 then cycles else edges) else s

/-- The *n* of R466. -/
def sampleLog2 (w : Nat) : Nat := max 4 (min 47 (bitsOf w 14 9))

/-- The ring time of an lclk of this ring, and its offset within the reference cycle (R475). -/
def State.timeAt (s : State) (t : Nat) : Nat × Nat :=
  let d := t - s.clk.lclk0
  let m := Config.leafMult s.tier
  (s.ring * 65536 + min (Config.ringRef s.period - 1) (d / m), d % m)

/-- A sampling leaf counter takes a sample at each multiple of 2^n it crosses (R466), unless frozen. -/
def State.takeSamples (s : State) (n i : Nat) (old : Word) : State :=
  let w := (s.liveRd (PERF_LEAF_SEL n i)).toNat
  let new := s.rd (PERF_LEAF_CTR n i)
  if !bitOf w 8 ∨ s.frozen ∨ new = old then s
  else
    let k := sampleLog2 w
    let first := old.toNat / 2 ^ k + 1
    let (time, offset) := s.timeAt s.clk.now
    s.onObs fun o => { o with samples := o.samples ++ (List.range (new.toNat / 2 ^ k + 1 - first)).map fun j =>
      { leaf := n, counter := i, t := s.clk.now, time, offset, value := BitVec.ofNat 64 ((first + j) * 2 ^ k) } }

/-- An arrive of leaf `n` in lclk `t` is skid of its waiting samples, or is the one they name (R467). -/
def State.nameSamples (s : State) (n t : Nat) (who : Nat × Nat × Nat × Nat) : State :=
  s.onObs fun o => { o with samples := o.samples.map fun x =>
    if x.leaf ≠ n ∨ x.named.isSome ∨ t < x.t then x
    else if x.t + 24 ≤ t then { x with named := some who }
    else { x with skid := min 3 (x.skid + 1) } }

/-- An event of logical leaf `n`, true for `cycles` lclk in `edges` runs. -/
def State.leafEvent (s : State) (n ev cycles edges : Nat) : State :=
  s.forEach (List.range 4) fun i s =>
    let old := s.rd (PERF_LEAF_CTR n i)
    (s.selCount (PERF_LEAF_SEL n i) (PERF_LEAF_CTR n i) ev cycles edges).takeSamples n i old

/-- An event of a twig. -/
def State.twigEvent (s : State) (t ev cycles edges : Nat) : State :=
  s.forEach (List.range 8) fun i s => s.selCount (PERF_TWIG_SEL t i) (PERF_TWIG_CTR t i) ev cycles edges

/-- An event of a limb; `st` is the packet's stand for stand_filter, if it has one (R461). -/
def State.limbEvent (s : State) (l ev : Nat) (st : Option Nat) (n : Nat) : State :=
  s.forEach (List.range 16) fun i s =>
    let w := (s.liveRd (PERF_LIMB_SEL l i)).toNat
    if bitOf w 15 && st != some (bitsOf w 19 16) then s else s.selCount (PERF_LIMB_SEL l i) (PERF_LIMB_CTR l i) ev n n

/-- The counters and selection words of a twig and of its leaves return to 0 (R462). -/
def State.clearTwigCounters (s : State) (t : Nat) : State :=
  let zero := fun (m : SMap Word) =>
    ((((m.clear (PERF_LEAF_CTR (32 * t) 0) (PERF_LEAF_CTR (32 * t + 32) 0)).clear (PERF_LEAF_SEL (32 * t) 0)
      (PERF_LEAF_SEL (32 * t + 32) 0)).clear (PERF_TWIG_CTR t 0) (PERF_TWIG_CTR (t + 1) 0)).clear (PERF_TWIG_SEL t 0)
      (PERF_TWIG_SEL (t + 1) 0))
  { s with
    regs := zero s.regs, live := zero s.live,
    obs := { s.obs with samples := s.obs.samples.filter fun x => x.leaf / 32 != t } }

/-- A stand's counters, limb view and port windows return to 0 at its creation (R462). -/
def State.clearStandCounters (s : State) (st : Nat) : State :=
  { s with
    regs := (s.regs.clear (PERF_STAND_CTR st 0) (PERF_STAND_CTR (st + 1) 0)).clear (PERF_STAND_LIMB st 0 0) (PERF_STAND_LIMB (st + 1) 0 0),
    obs := { s.obs with
      winBytes := s.obs.winBytes.clear (64 + 36 * st) (100 + 36 * st), standWin := s.obs.standWin.clear (72 * st) (72 * st + 72) } }

/-! ### Frost (R469-R471) -/

/-- The ring a trigger or release recognized now acts at the start of (R470). -/
def State.frostRing (s : State) : Nat := if s.clk.slot < 62 then s.ring + 1 else s.ring + 2

/-- TRC_FROST.pending. -/
def State.frostPending (s : State) : State :=
  s.setFlag TRC_FROST_pending (decide (s.fld TRC_FROST_at_ring ≠ 0) || !s.obs.freezeAt.isEmpty)

/-- A freeze trigger: source 2 the next boundary, 3 the pin, 4 a knot (R470, R471). -/
def State.frostTrigger (s : State) (source : Nat) : State :=
  let r := s.frostRing
  if s.frozen || s.fld TRC_FROST_at_ring == r || s.obs.freezeAt.any (fun e => e.1 == r) then s.count TRC_FROST_LOG_ignored 1
  else (s.onObs fun o => { o with freezeAt := o.freezeAt ++ [(r, source)] }).frostPending

/-- A release (R471). -/
def State.frostRelease (s : State) : State := s.onObs fun o => { o with releaseAt := some s.frostRing }

/-- A fire of the knot TRC_FROST names freezes while knot_en is 1 (R469). -/
def State.frostKnot (s : State) (k : Nat) : State :=
  if s.flag TRC_FROST_knot_en && s.fld TRC_FROST_knot == k then s.frostTrigger 4 else s

/-! ### Trace (R473-R477) -/

/-- Whether trace is enabled for a stand: its bit in force, and allowed (R156, R474). -/
def State.traceOn (s : State) (st : Nat) : Bool :=
  bitOf (s.liveFld TRC_STAND_EN_stand) st && s.liveFlag (STAND_CFG_trace_allowed st)

/-- Whether the bark lanes run (R473). -/
def State.barkRuns (s : State) : Bool :=
  s.flag TRC_CFG_bark_en && s.liveFlag (if s.pwrState = 1 then CLK_GATE_SLEEP_bark else if s.pwrState = 3 then CLK_GATE_DEEP_bark
    else CLK_GATE_RUN_bark)

/-- A record enters its source's queue, or is dropped and counted; a DROP record goes before the first record after a drop (R476). -/
def State.traceRaw (s : State) (src : Nat) (r : TraceRec) : State :=
  let q := s.obs.traceQ.get [] src
  if (if src < 4 then 4096 else 1024) ≤ q.length then
    (s.count TRC_DROP_dropped 1).onObs fun o => { o with traceLost := o.traceLost.modify 0 src (· + 1) }
  else
    let lost := s.obs.traceLost.get 0 src
    let n := s.obs.traceSeq.get 0 src
    let drop : TraceRec := { r with kind := 5, opcode := 0, status := 0, ids := 0, tag := 0, detail := lost, seq := n % 65536 }
    let pre := if lost = 0 then [] else [drop]
    let r := { r with seq := (n + pre.length) % 65536 }
    s.onObs fun o => { o with
      traceQ := o.traceQ.set [] src (q ++ pre ++ [r]), traceSeq := o.traceSeq.set 0 src ((n + pre.length + 1) % 65536),
      traceLost := o.traceLost.set 0 src 0 }

/-- Emit a record for a stand's engine while it is traced (R474). -/
def State.trace (s : State) (src : Nat) (r : TraceRec) : State :=
  if s.traceOn r.stand && s.barkRuns then s.traceRaw src r else s

/-- One bit of CRC-16/CCITT-FALSE (polynomial 0x1021). -/
def crc16Bit (c : Nat) : Nat := if bitOf c 15 then ((c <<< 1) ^^^ 0x1021) % 65536 else (c <<< 1) % 65536

/-- One byte of CRC-16/CCITT-FALSE. -/
def crc16Byte (c : Nat) (b : Byte) : Nat :=
  crc16Bit (crc16Bit (crc16Bit (crc16Bit (crc16Bit (crc16Bit (crc16Bit (crc16Bit (c ^^^ (b.toNat <<< 8)))))))))

/-- The 32 bytes of a record (*Trace record*). -/
def TraceRec.toBytes (r : TraceRec) : List Byte :=
  let b := leBytes 1 r.kind ++ leBytes 1 r.engine ++ leBytes 2 r.unit
    ++ leBytes 1 (r.stand % 16 + 16 * r.offset) ++ leBytes 1 r.opcode ++ leBytes 2 r.status ++ leBytes 8 r.time.toNat
    ++ leBytes 4 r.ids ++ leBytes 4 r.tag ++ leBytes 4 r.detail ++ leBytes 2 r.seq
  b ++ leBytes 2 (b.foldl crc16Byte 0xFFFF)

/-- The port sends one record: of the first non-empty source from the pointer on (R476). -/
def State.traceSend (s : State) : State :=
  let order := (List.range 6).map fun i => (s.obs.tracePort + i) % 6
  match order.find? fun src => !(s.obs.traceQ.get [] src).isEmpty with
  | none => s
  | some src =>
    match s.obs.traceQ.get [] src with
    | [] => s
    | r :: q => ((s.onObs fun o => { o with traceQ := o.traceQ.set [] src q, tracePort := (src + 1) % 6 }).count TRC_DROP_sent 1).emit
        (.trace r.toBytes)

/-- What the port sends in `cycles` reference cycles: two records per 4.0625 ns, 256 records in 65 reference cycles (R473). -/
def State.traceDrain (s : State) (cycles : Nat) : State :=
  if s.barkRuns then s.forEach (List.range (cycles * 256 / 65)) fun _ s => s.traceSend else s

/-- A record of I/O-1 itself: RING or FROST (R475). -/
def State.traceIo (s : State) (kind detail : Nat) : State :=
  let r : TraceRec :=
    { kind, engine := 2, unit := 1, stand := 0, opcode := 0, status := 0, time := s.rd RING_TIME, ids := 0, tag := 0, detail }
  if s.barkRuns then s.traceRaw 5 r else s

/-- Ring numbers change in the middle of the count: what waits for the boundary that begins ring `old` waits for the one that begins ring `new` (R510).
A freeze asked for by its ring number is compared with the new numbers. -/
def State.renumberFrost (s : State) (old new : Nat) : State :=
  s.onObs fun o => { o with
    freezeAt := o.freezeAt.map fun e => (e.1 + new - old, e.2), releaseAt := o.releaseAt.map fun r => r + new - old }

/-- Freeze and release at the boundary that begins the current ring (R470, R471). -/
def State.frostBoundary (s : State) : State :=
  let r := s.ring
  let source := if s.fld TRC_FROST_at_ring = r ∧ r ≠ 0 then some 1 else (s.obs.freezeAt.find? fun e => e.1 == r).map (·.2)
  let release := s.obs.releaseAt == some r
  let s := s.onObs fun o => { o with
    freezeAt := o.freezeAt.filter (fun e => decide (r < e.1)), releaseAt := if release then none else o.releaseAt }
  let s := if s.fld TRC_FROST_at_ring = r then s.setFld TRC_FROST_at_ring 0 else s
  let s := s.frostPending
  match source with
  | some k =>
    if s.frozen then s
    else (((s.setFlag TRC_FROST_frozen true).setFld TRC_FROST_LOG_ring r).setFld TRC_FROST_LOG_source k).traceIo 7 0
  | none => if release && s.frozen then (s.setFlag TRC_FROST_frozen false).traceIo 7 1 else s

/-- The RING record of a boundary (R475). -/
def State.traceRing (s : State) : State :=
  s.traceIo 6 (s.tier + 8 * s.fld CLK_SSC_CFG_cur_depth + 128 * s.fld PWR_STATUS_narrow)

end Sys2Proof.Machine
end

