-- ==== Sys2Proof/Machine/Operands.lean ====
section
/-! DEFINITION. Number formats (04_exact_sum_arithmetic.md): what each stored element is worth, the long accumulator, the one final
rounding of R121 to R125, FP32 arithmetic of the vector unit and its special functions. -/

namespace Sys2Proof.Machine

/-- The value of an operand (R100, R119): a finite number (-1)^neg * m * 2^e, zero when `m` is 0, an infinity, or a NaN. -/
inductive Val where
  | fin (neg : Bool) (m : Nat) (e : Int)
  | inf (neg : Bool)
  | nan
deriving DecidableEq, Repr

/-! ### Format codes (R101) -/

/-- Bits of one element of a format (R507). -/
def elemBits (fmt : Nat) : Nat :=
  match fmt with
  | 0 => 8 | 1 => 8 | 2 => 6 | 3 => 6 | 4 => 4 | 5 => 8 | 6 => 12 | 7 => 16 | 8 => 16 | 9 => 32 | 10 => 16
  | _ => 0

/-- MX and PB12 formats. -/
def isBlockFmt (fmt : Nat) : Bool := decide (fmt ≤ 6)

/-- Formats with a scale array as an input (R507). -/
def hasScale (fmt : Nat) : Bool := decide (fmt ≤ 6) || fmt == 10

/-- Formats a matrix operation reads. -/
def matrixFmt (fmt : Nat) : Bool := decide (fmt ≤ 6) || fmt == 8 || fmt == 9 || fmt == 10

/-- Formats of vector loads and stores, and of a final rounding. -/
def vectorFmt (fmt : Nat) : Bool := decide (fmt ≤ 9)

/-- The group of R108: 0 4-bit, 1 8-bit, 2 wide, 3 FP32. -/
def pairGroup (fmt : Nat) : Nat := if fmt = 4 then 0 else if fmt = 6 ∨ fmt = 8 then 2 else if fmt = 9 then 3 else 1

/-- Half-lclk per *k*-step of an operand pair; none when the pair is not permitted (R108). -/
def pairCost (a b : Nat) : Option Nat :=
  if !(matrixFmt a && matrixFmt b) then none
  else match pairGroup a, pairGroup b with
    | 0, 0 => some 1
    | 2, 3 => none
    | 3, 2 => none
    | 3, 3 => some 18
    | x, y => if x = 3 ∨ y = 3 then some 6 else if x = 2 ∨ y = 2 then some 4 else some 2

/-! ### Decoding (R102-R110) -/

/-- An IEEE word of `mb` fraction and `eb` exponent bits (R106). -/
def decodeIeee (mb eb w : Nat) : Val :=
  let neg := bitOf w (mb + eb)
  let ex := bitsOf w (mb + eb - 1) mb
  let f := w % 2 ^ mb
  let bias := 2 ^ (eb - 1) - 1
  if ex = 2 ^ eb - 1 then (if f = 0 then .inf neg else .nan)
  else if ex = 0 then .fin neg f (1 - (bias : Int) - mb)
  else .fin neg (2 ^ mb + f) ((ex : Int) - bias - mb)

/-- An FP32 bit pattern's value. -/
def f32Val (w : Nat) : Val := decodeIeee 23 8 (w % 2 ^ 32)

/-- Fraction bits, exponent bits and bias of an MX element type (*MX element types*). -/
def mxShape (fmt : Nat) : Nat × Nat × Int :=
  match fmt with
  | 0 => (3, 4, 7)
  | 1 => (2, 5, 15)
  | 2 => (2, 3, 3)
  | 3 => (3, 2, 1)
  | _ => (1, 2, 1)

/-- The code of the largest magnitude of an MX floating-point element type (*MX element types*). -/
def mxTop (fmt : Nat) : Nat :=
  match fmt with
  | 0 => 0x7E
  | 1 => 0x7B
  | 2 => 0x1F
  | 3 => 0x1F
  | _ => 0x7

/-- *e*max_el of R123. -/
def mxEmax (fmt : Nat) : Int :=
  match fmt with
  | 0 => 8 | 1 => 15 | 2 => 4 | 3 => 2 | 4 => 2
  | _ => 0

/-- An MX element before its block scale (R102). -/
def decodeMx (fmt w : Nat) : Val :=
  if fmt = 5 then
    let x := toSigned 8 w
    .fin (decide (x < 0)) x.natAbs (-6)
  else
    let (mb, eb, bias) := mxShape fmt
    let neg := bitOf w (mb + eb)
    let ex := bitsOf w (mb + eb - 1) mb
    let f := w % 2 ^ mb
    if fmt = 0 ∧ ex = 15 ∧ f = 7 then .nan
    else if fmt = 1 ∧ ex = 31 then (if f = 0 then .inf neg else .nan)
    else if ex = 0 then .fin neg f (1 - bias - mb)
    else .fin neg (2 ^ mb + f) ((ex : Int) - bias - mb)

/-- A value scaled by an E8M0 byte (R103). -/
def scaled (x : Nat) (v : Val) : Val :=
  if x = 255 then .nan
  else match v with
    | .fin neg m e => .fin neg m (e + x - 127)
    | v => v

/-- An element of a format under its block's scale byte (R102-R110). -/
def decodeElem (fmt w x : Nat) : Val :=
  match fmt with
  | 6 => scaled x (.fin (bitOf w 11) (w % 256) (-7 - (bitsOf w 10 8 : Nat)))
  | 7 => decodeIeee 7 8 w
  | 8 => decodeIeee 10 5 w
  | 9 => decodeIeee 23 8 w
  | 10 =>
    if bitsOf w 14 13 = 0 then scaled x (.fin (bitOf w 15) (w % 256) (-7 - (bitsOf w 12 8 : Nat)))
    else if x = 255 ∨ bitsOf w 14 13 ≠ 1 then .nan
    else .inf (bitOf w 15)
  | f => scaled x (decodeMx f w)

/-- A BF16A element of the reserved class (R110). -/
def elemBad (fmt w : Nat) : Bool := fmt == 10 && bitsOf w 14 13 == 3

/-- An array of elements in memory: where it lies, its format, and where its scale array lies. -/
structure Arr where
  base  : Nat
  fmt   : Nat
  scale : Nat
deriving DecidableEq, Repr

/-- The stored code of element `i` (R104, R105). -/
def Arr.code (a : Arr) (m : List Host.Cell) (i : Nat) : Nat :=
  let w := elemBits a.fmt
  bitsOf (ofLe (Memory.readN m (a.base + w * i / 8) 5)) (w * i % 8 + w - 1) (w * i % 8)

/-- The scale byte of element `i`'s block. -/
def Arr.scaleOf (a : Arr) (m : List Host.Cell) (i : Nat) : Nat :=
  if hasScale a.fmt then (Memory.read m (a.scale + i / 32)).toNat else 0

/-- The value of element `i`. -/
def Arr.get (a : Arr) (m : List Host.Cell) (i : Nat) : Val := decodeElem a.fmt (a.code m i) (a.scaleOf m i)

/-- Whether element `i` is of the reserved class. -/
def Arr.bad (a : Arr) (m : List Host.Cell) (i : Nat) : Bool := elemBad a.fmt (a.code m i)

/-! ### The long accumulator (R113-R119, R129, R504) -/

/-- What is left of `acc` by an anchor rise. At anchor 255 nothing rises and the accumulator saturates by the sign given (R504). -/
def Acc.raise (a : Acc) (neg : Bool) : Acc :=
  if a.anchor = 255 then { a with sat := true, pinf := a.pinf || !neg, ninf := a.ninf || neg }
  else { a with sticky := a.sticky || decide (a.acc % 16 ≠ 0), acc := a.acc / 16, anchor := a.anchor + 1 }

/-- The exponent of one unit of `acc` (R113, R129). -/
def unitExp (narrow : Bool) (anchor : Nat) : Int := 4 * (anchor : Int) - (if narrow then 633 else 697)

/-- Raise until a contribution of magnitude exponent `e` lies below the head, at most `n` times. -/
def Acc.raiseFor : Nat → Acc → Int → Bool → Acc
  | 0, a, _, _ => a
  | n + 1, a, e, neg => if a.sat ∨ e < 4 * (a.anchor : Int) - 560 then a else Acc.raiseFor n (a.raise neg) e neg

/-- Whether `acc` calls for a growth rise (R114, R129). -/
def Acc.grown (a : Acc) (narrow : Bool) : Bool :=
  if narrow then decide ((2 : Int) ^ 94 ≤ a.acc) || decide (a.acc ≤ -(2 : Int) ^ 94)
  else decide ((2 : Int) ^ 158 ≤ a.acc) || decide (a.acc < -(2 : Int) ^ 158)

/-- Add a finite non-zero contribution (-1)^neg * m * 2^e (R114). A saturated accumulator takes none (R504). -/
def Acc.addFin (narrow : Bool) (a : Acc) (neg : Bool) (m : Nat) (e : Int) : Acc :=
  if a.sat then a
  else
    let top := e + (Nat.log2 m : Nat)
    let a := if a.valid then a else { a with anchor := ((top + 564) / 4).toNat, valid := true }
    let a := Acc.raiseFor 256 a top neg
    if a.sat then a
    else
      let sh := e - unitExp narrow a.anchor
      let t := if 0 ≤ sh then m <<< sh.toNat else m >>> (-sh).toNat
      let lost := decide (sh < 0) && decide (m % 2 ^ (-sh).toNat ≠ 0)
      let a := { a with acc := if neg then a.acc - t else a.acc + t, sticky := a.sticky || lost }
      if a.grown narrow then a.raise (decide (a.acc < 0)) else a

/-- Add one value: a contribution, a zero, or a special that sets its flag (R119). -/
def Acc.add (narrow : Bool) (a : Acc) (v : Val) : Acc :=
  match v with
  | .fin neg m e => if m = 0 then a else a.addFin narrow neg m e
  | .inf neg => { a with pinf := a.pinf || !neg, ninf := a.ninf || neg }
  | .nan => { a with nan := true }

/-- The slices of an FP32 significand (R112), highest first: significand and exponent. -/
def slices (m : Nat) (e : Int) : List (Nat × Int) :=
  [(m / 65536 % 256, e + 16), (m / 256 % 256, e + 8), (m % 256, e)]

/-- Put a pair into a list ordered by key. -/
def insertKey {α : Type} (k : Nat) (x : α) : List (Nat × α) → List (Nat × α)
  | [] => [(k, x)]
  | (j, y) :: l => if k < j then (k, x) :: (j, y) :: l else (j, y) :: insertKey k x l

/-- The contributions of a product of finite operands: one, or its slice products when an operand is FP32 (R112). -/
def partials (fa fb : Nat) (ma : Nat) (ea : Int) (mb : Nat) (eb : Int) : List (Nat × Int) :=
  let sa := if fa = 9 then slices ma ea else [(ma, ea)]
  let sb := if fb = 9 then slices mb eb else [(mb, eb)]
  let all := (List.range sa.length).flatMap fun i => (List.range sb.length).map fun j =>
    (Config.sliceKey i j, ((sa.getD i (0, 0)).1 * (sb.getD j (0, 0)).1, (sa.getD i (0, 0)).2 + (sb.getD j (0, 0)).2))
  (all.foldl (fun l p => insertKey p.1 p.2 l) []).map (·.2)

/-- Add the product of two operands of formats `fa` and `fb` (R112, R119). -/
def Acc.addProd (narrow : Bool) (a : Acc) (fa fb : Nat) (x y : Val) : Acc :=
  match x, y with
  | .nan, _ => { a with nan := true }
  | _, .nan => { a with nan := true }
  | .fin na ma ea, .fin nb mb eb =>
    if ma = 0 ∨ mb = 0 then a
    else (partials fa fb ma ea mb eb).foldl
      (fun a p => if p.1 = 0 then a else a.addFin narrow (na != nb) p.1 p.2) a
  | .inf na, .fin nb m _ => if m = 0 then { a with nan := true } else a.add narrow (.inf (na != nb))
  | .fin na m _, .inf nb => if m = 0 then { a with nan := true } else a.add narrow (.inf (na != nb))
  | .inf na, .inf nb => a.add narrow (.inf (na != nb))

/-- What an accumulator holds, as the final rounding sees it (R120). -/
def Acc.value (narrow : Bool) (a : Acc) : Val :=
  if a.nan || (a.pinf && a.ninf) then .nan
  else if a.pinf then .inf false
  else if a.ninf then .inf true
  else if !a.valid then .fin false 0 0
  else .fin (decide (a.acc < 0)) a.acc.natAbs (unitExp narrow a.anchor)

/-- The 32 bytes of a raw record (R73), of the same value whatever the window (R132). -/
def Acc.toRecord (narrow : Bool) (a : Acc) : List Byte :=
  leBytes 20 (ofSigned 160 (if narrow then a.acc * 2 ^ 64 else a.acc)) ++ leBytes 1 a.anchor
    ++ leBytes 1 (bit a.sticky + 2 * bit a.valid + 4 * bit a.nan + 8 * bit a.pinf + 16 * bit a.ninf) ++ leBytes 10 0

/-- The accumulator a raw record loads (R73, R132). The record has no bit for R504's "no finite contribution is added", so the accumulator it
loads takes finite contributions again; its infinity flag stands (DESIGN CHOICE, log entry 93). -/
def Acc.ofRecord (narrow : Bool) (b : List Byte) : Acc :=
  let v := toSigned 160 (bytesAt b 0 20)
  let f := bytesAt b 21 1
  { acc := if narrow then v / 2 ^ 64 else v, anchor := bytesAt b 20 1, valid := bitOf f 1,
    sticky := bitOf f 0 || (narrow && decide (v % 2 ^ 64 ≠ 0)), nan := bitOf f 2, pinf := bitOf f 3, ninf := bitOf f 4 }

/-- Whether a raw record has non-zero reserved bits (R73). -/
def recordBad (b : List Byte) : Bool := decide (32 ≤ bytesAt b 21 1) || decide (bytesAt b 22 10 ≠ 0)

/-! ### Final rounding (R121-R125) -/

/-- A rounding mode with the generator's value in stochastic mode. -/
inductive Rnd where
  | rne
  | rtz
  | stoch (r : Nat)
deriving DecidableEq, Repr

/-- sr_value of R125. -/
def srValue (seed layer index : Nat) : Nat :=
  let m64 := 2 ^ 64
  let z := (seed ^^^ (layer * 0x9E3779B97F4A7C15 % m64)) ^^^ (index * 0xD1B54A32D192ED03 % m64)
  let z := (z ^^^ (z >>> 30)) * 0xBF58476D1CE4E5B9 % m64
  let z := (z ^^^ (z >>> 27)) * 0x94D049BB133111EB % m64
  (z ^^^ (z >>> 31)) >>> 32

/-- The rounding mode of a descriptor's round_mode for one element (R121). -/
def roundMode (mode seed layer index : Nat) : Rnd :=
  match mode with
  | 0 => .rne
  | 1 => .rtz
  | _ => .stoch (srValue seed layer index)

/-- The magnitude m * 2^e as a multiple of 2^g, rounded (R121, R125). -/
def roundGrid (r : Rnd) (m : Nat) (e g : Int) : Nat :=
  if g ≤ e then m <<< (e - g).toNat
  else
    let d := (g - e).toNat
    let q := m >>> d
    let rem := m % 2 ^ d
    let up := match r with
      | .rne => decide (2 ^ d < 2 * rem) || (2 * rem == 2 ^ d && q % 2 == 1)
      | .rtz => false
      | .stoch x => decide (x < (rem <<< 32) >>> d)
    if up then q + 1 else q

/-- Floor of the base-2 logarithm of m * 2^e. -/
def magExp (m : Nat) (e : Int) : Int := e + (Nat.log2 m : Nat)

/-- Fraction and exponent bits of an IEEE output format. -/
def ieeeShape (fmt : Nat) : Nat × Nat :=
  match fmt with
  | 7 => (7, 8)
  | 8 => (10, 5)
  | _ => (23, 8)

/-- A result in an IEEE format (R120, R122): its word, and whether it overflows. -/
def packIeee (fmt : Nat) (r : Rnd) (v : Val) : Nat × Bool :=
  let (mb, eb) := ieeeShape fmt
  let sgn := fun (neg : Bool) => bit neg <<< (mb + eb)
  let infW := (2 ^ eb - 1) <<< mb
  match v with
  | .nan => (infW + 2 ^ (mb - 1), false)
  | .inf neg => (sgn neg + infW, false)
  | .fin neg m e =>
    if m = 0 then (sgn neg, false)
    else
      let gmin : Int := 2 - 2 ^ (eb - 1) - mb
      let g := max gmin (magExp m e - mb)
      let q := roundGrid r m e g
      let w := (g - gmin).toNat * 2 ^ mb + q
      if w < infW then (sgn neg + w, false)
      else match r with
        | .rtz => (sgn neg + infW - 1, true)
        | _ => (sgn neg + infW, true)

/-- The FP32 word nearest a value, and whether it overflows (R126). -/
def toF32 (v : Val) : Nat × Bool := packIeee 9 .rne v

/-- Whether a value is a NaN or an infinity. -/
def Val.special : Val → Bool
  | .fin _ _ _ => false
  | _ => true

/-- The largest magnitude exponent of a block's finite non-zero values (R123, R124). -/
def blockExp (vs : List Val) : Option Int :=
  vs.foldl (fun best v => match v with
    | .fin _ m e => if m = 0 then best else match best with
      | none => some (magExp m e)
      | some b => some (max b (magExp m e))
    | _ => best) none

/-- A scale byte (R123, R124). -/
def clampScale (x : Int) : Nat := (max 0 (min 254 x)).toNat

/-- One MX element of a block with scale `x` (R123): its code, and whether it was clamped. -/
def packMx (fmt x : Nat) (r : Rnd) (v : Val) : Nat × Bool :=
  match v with
  | .fin neg m e =>
    if fmt = 5 then
      let q := if m = 0 then 0 else roundGrid r m (e - x + 127) (-6)
      if q ≤ 127 then (if neg then (256 - q) % 256 else q, false)
      else if neg then (128, decide (128 < q))
      else if q = 128 then (Config.int8Top.1.toNat, Config.int8Top.2) else (Config.int8Top.1.toNat, true)
    else
      let (mb, eb, bias) := mxShape fmt
      let sgn := bit neg <<< (mb + eb)
      if m = 0 then (sgn, false)
      else
        let e := e - x + 127
        let gmin := 1 - bias - mb
        let g := max gmin (magExp m e - mb)
        let q := roundGrid r m e g
        let w := (g - gmin).toNat * 2 ^ mb + q
        let wmax := mxTop fmt
        if w ≤ wmax then (sgn + w, false) else (sgn + wmax, true)
  | _ => (0, false)

/-- An MX block (R120, R123): its codes, its scale byte, whether an element was clamped. -/
def packMxBlock (fmt : Nat) (r : Nat → Rnd) (vs : List Val) : List Nat × Nat × Bool :=
  if vs.any Val.special then (vs.map fun _ => 0, 255, false)
  else
    let x := match blockExp vs with
      | none => 0
      | some e => clampScale (e - mxEmax fmt + 127)
    let es := (List.range vs.length).map fun i => packMx fmt x (r i) (vs.getD i .nan)
    (es.map (·.1), x, es.any (·.2))

/-- One PB12 element of a block with top exponent `ex` (R124): code, saturation, and whether the block is to be quantized once more. Where the
scale is clamped at 254 and *sig* comes out above 256, which R124 does not name, it saturates as a *sig* of 256 does: 255, *off* as it is, overflow
(DESIGN CHOICE, log entry 94). -/
def packPb (ex : Int) (r : Rnd) (v : Val) : Nat × Bool × Bool :=
  match v with
  | .fin neg m e =>
    let sgn := bit neg * 2048
    if m = 0 then (sgn, false, false)
    else
      let x := clampScale (ex + 127)
      let off := (min 7 (ex - magExp m e)).toNat
      let sig := roundGrid r m e ((x : Int) - 134 - off)
      if sig < 256 then (sgn + off * 256 + sig, false, false)
      else if sig = 256 ∧ 0 < off then (sgn + (off - 1) * 256 + 128, false, false)
      else if x = 254 then (sgn + off * 256 + 255, true, false)
      else (sgn + 255, true, true)
  | _ => (0, false, false)

/-- A PB12 block (R120, R124). A block without a finite non-zero value has scale 0x00, as R123 gives an MX block; R124 names none (DESIGN CHOICE,
log entry 94). -/
def packPbBlock (r : Nat → Rnd) (vs : List Val) : List Nat × Nat × Bool :=
  if vs.any Val.special then (vs.map fun _ => 0, 255, false)
  else match blockExp vs with
    | none => (vs.map fun v => (packPb 0 .rne v).1, 0, false)
    | some e =>
      let run := fun (ex : Int) => (List.range vs.length).map fun i => packPb ex (r i) (vs.getD i .nan)
      let es := run e
      if es.any (·.2.2) then
        let es := run (e + 1)
        (es.map (·.1), clampScale (e + 128), es.any (·.2.1))
      else (es.map (·.1), clampScale (e + 127), es.any (·.2.1))

/-- Codes of `w` bits laid side by side, least significant first (R104). -/
def packCodes (w : Nat) (codes : List Nat) : List Byte :=
  leBytes ((w * codes.length + 7) / 8) (codes.foldr (fun c acc => acc * 2 ^ w + c) 0)

/-- Results of a rounding in row-major order (R121-R125): the element bytes, the scale bytes, overflow, and whether a NaN result or a
scale of 0xFF is written (R133). `fuel` counts blocks. -/
def packBlocks (fmt : Nat) (r : Nat → Rnd) : Nat → Nat → List Val → List Nat × List Byte × Bool × Bool
  | 0, _, _ => ([], [], false, false)
  | fuel + 1, i, vs =>
    if vs = [] then ([], [], false, false)
    else
      let b := vs.take 32
      let (codes, x, ovf) := if fmt = 6 then packPbBlock (fun j => r (i + j)) b else packMxBlock fmt (fun j => r (i + j)) b
      let (cs, xs, o, n) := packBlocks fmt r fuel (i + 32) (vs.drop 32)
      (codes ++ cs, BitVec.ofNat 8 x :: xs, ovf || o, x == 255 || n)

/-- An array of results: the bytes written (elements, then scales), overflow, and NaN written. -/
def packArray (fmt : Nat) (r : Nat → Rnd) (vs : List Val) : List Byte × Bool × Bool :=
  if isBlockFmt fmt then
    let (codes, xs, o, n) := packBlocks fmt r (vs.length / 32 + 1) 0 vs
    (packCodes (elemBits fmt) codes ++ xs, o, n)
  else
    let es := (List.range vs.length).map fun i => packIeee fmt (r i) (vs.getD i .nan)
    (packCodes (elemBits fmt) (es.map (·.1)), es.any (·.2), vs.any fun v => v == .nan)

/-! ### FP32 arithmetic (R126, R127) -/

/-- The exact sum of two finite values; an exact zero is +0 unless both are -0. -/
def addFin (n1 : Bool) (m1 : Nat) (e1 : Int) (n2 : Bool) (m2 : Nat) (e2 : Int) : Val :=
  let e := min e1 e2
  let a : Int := (m1 <<< (e1 - e).toNat : Nat)
  let b : Int := (m2 <<< (e2 - e).toNat : Nat)
  let t := (if n1 then -a else a) + (if n2 then -b else b)
  if t = 0 then .fin (n1 && n2 && m1 == 0 && m2 == 0) 0 0 else .fin (decide (t < 0)) t.natAbs e

/-- The exact sum of two values (IEEE 754). -/
def Val.plus (x y : Val) : Val :=
  match x, y with
  | .nan, _ => .nan
  | _, .nan => .nan
  | .inf a, .inf b => if a = b then .inf a else .nan
  | .inf a, _ => .inf a
  | _, .inf b => .inf b
  | .fin n1 m1 e1, .fin n2 m2 e2 => addFin n1 m1 e1 n2 m2 e2

/-- The exact product of two values (IEEE 754). -/
def Val.times (x y : Val) : Val :=
  match x, y with
  | .nan, _ => .nan
  | _, .nan => .nan
  | .fin n1 m1 e1, .fin n2 m2 e2 => .fin (n1 != n2) (m1 * m2) (e1 + e2)
  | .inf a, .fin b m _ => if m = 0 then .nan else .inf (a != b)
  | .fin a m _, .inf b => if m = 0 then .nan else .inf (a != b)
  | .inf a, .inf b => .inf (a != b)

/-- A value with its sign turned. -/
def Val.neg : Val → Val
  | .fin n m e => .fin (!n) m e
  | .inf n => .inf (!n)
  | .nan => .nan

/-- A value as an integer that orders finite values with zeros signed: -0 is below +0. -/
def Val.lt (x y : Val) : Bool :=
  match x, y with
  | .inf a, .inf b => a && !b
  | .inf a, .fin _ _ _ => a
  | .fin _ _ _, .inf b => !b
  | .fin n1 m1 e1, .fin n2 m2 e2 =>
    let e := min e1 e2
    let a : Int := (m1 <<< (e1 - e).toNat : Nat)
    let b : Int := (m2 <<< (e2 - e).toNat : Nat)
    let a := if n1 then -a else a
    let b := if n2 then -b else b
    decide (a < b) || (a == b && m1 == 0 && m2 == 0 && n1 && !n2)
  | _, _ => false

/-- IEEE 754-2019 maximum and minimum (R506). -/
def Val.max (x y : Val) : Val := if x = .nan ∨ y = .nan then .nan else if x.lt y then y else x
/-- IEEE 754-2019 minimum (R506). -/
def Val.min (x y : Val) : Val := if x = .nan ∨ y = .nan then .nan else if y.lt x then y else x

/-- a[i] > b[i] as numbers: zeros are equal (R506). -/
def Val.gt (x y : Val) : Bool :=
  match x, y with
  | .fin _ 0 _, .fin _ 0 _ => false
  | _, _ => y.lt x

/-- A value loaded into the vector unit (R127): FP32, with overflow. -/
def loadF32 (v : Val) : Nat × Bool := toF32 v

/-! ### Special functions (R128) -/

/-- Fixed-point places of the enclosures below. -/
def fixP : Nat := 256

/-- Terms of atanh(z) = z + z^3/3 + ..., in fixed point. -/
def atanhTerms : Nat → Nat → Nat → Nat → Nat
  | 0, _, _, acc => acc
  | n + 1, p, z2, acc =>
    let k := 2 * (200 - (n + 1)) + 1
    atanhTerms n ((p * z2) >>> fixP) z2 (acc + p / k)

/-- atanh of a fixed-point number in [0, 1/2]. -/
def atanhFix (z : Nat) : Nat := atanhTerms 200 z ((z * z) >>> fixP) 0

/-- ln 2 in fixed point: 2 atanh (1/3). -/
def ln2Fix : Nat := 2 * atanhFix (2 ^ fixP / 3)

/-- Terms of exp(r), in fixed point. -/
def expTerms : Nat → Nat → Nat → Nat → Nat
  | 0, _, _, acc => acc
  | n + 1, p, r, acc =>
    let k := 100 - (n + 1) + 1
    let p := ((p * r) >>> fixP) / k
    expTerms n p r (acc + p)

/-- exp of a fixed-point number in [0, 1). -/
def expFix (r : Nat) : Nat := expTerms 100 (2 ^ fixP) r (2 ^ fixP)

/-- The FP32 word of a magnitude q * 2^g with q below 2^25, on the grid of FP32. -/
def gridWord (neg : Bool) (q : Nat) (g : Int) : Nat := (packIeee 9 .rne (.fin neg q g)).1

/-- A result within `n` ulp of the magnitude m * 2^e (R128): the free choice picks among the grid values inside the bound. -/
def within (fn x n : Nat) (neg : Bool) (m : Nat) (e : Int) : Nat :=
  let g := max (-126) (magExp m e) - 23
  let q := roundGrid .rtz m e g
  let lo := q + 1 - n
  gridWord neg (lo + Config.sfu fn x % (q + n - lo + 1)) g

/-- exp of a finite non-zero FP32 value. -/
def sfuExp (x : Nat) (neg : Bool) (m : Nat) (e : Int) : Nat :=
  let f := if 0 ≤ e then (m <<< e.toNat) <<< fixP else (m <<< fixP) >>> (-e).toNat
  let n := f / ln2Fix
  let r := f % ln2Fix
  if neg then
    if r = 0 then within 0 x 2 false (expFix 0) (-(fixP : Int) - n)
    else within 0 x 2 false (expFix (ln2Fix - r)) (-(fixP : Int) - n - 1)
  else within 0 x 2 false (expFix r) (-(fixP : Int) + n)

/-- The natural logarithm of m * 2^e, m > 0, not 1: 2 atanh of (y - 1) / (y + 1) for the significand y in [1, 2), and ln 2 times the
exponent. -/
def sfuLog (x m : Nat) (e : Int) : Nat :=
  let top := magExp m e
  let y := m <<< (fixP - Nat.log2 m)
  let one := 2 ^ fixP
  let l : Int := (2 * atanhFix (((y - one) <<< fixP) / (y + one)) : Nat)
  let v := l + top * (ln2Fix : Nat)
  within 1 x 2 (decide (v < 0)) v.natAbs (-(fixP : Int))

/-- A bracketed result within 1 ulp: exact when the division or root is (R128). -/
def sfuBracket (fn x : Nat) (neg : Bool) (q : Nat) (exact : Bool) (g : Int) : Nat :=
  gridWord neg (if exact then q else q + Config.sfu fn x % 2) g

/-- The reciprocal of m * 2^e, m > 0. Of a subnormal whose reciprocal lies beyond FP32 the table of R128 says nothing: it is the infinity of its
sign and sets overflow (DESIGN CHOICE, log entry 95). -/
def sfuRecip (x : Nat) (neg : Bool) (m : Nat) (e : Int) : Nat × Bool :=
  let k := Nat.log2 m
  let t : Int := if m = 2 ^ k then -(k : Int) - e else -(k : Int) - e - 1
  let g := max (-126) t - 23
  let s := -e - g
  let num := if 0 ≤ s then 1 <<< s.toNat else 1
  let den := if 0 ≤ s then m else m <<< (-s).toNat
  if 127 < t then (if neg then 0xFF800000 else 0x7F800000, true)
  else
    let w := sfuBracket 2 x neg (num / den) (num % den == 0) g
    (w, w % 2 ^ 31 == 0x7F800000)

/-- The greatest `r` with r * r <= n among the numbers below 2^k, bit by bit. -/
def isqrtBits : Nat → Nat → Nat → Nat
  | 0, _, r => r
  | k + 1, n, r => let t := r + 2 ^ k; isqrtBits k n (if t * t ≤ n then t else r)

/-- The reciprocal square root of m * 2^e, m > 0. -/
def sfuRsqrt (x m : Nat) (e : Int) : Nat :=
  let (m, e) := if e % 2 = 0 then (m, e) else (2 * m, e - 1)
  let k := Nat.log2 m
  let h : Int := e / 2
  let t : Int := -h - (k : Nat) / 2 - 1
  let g : Int := (if m = 2 ^ k ∧ k % 2 = 0 then t + 1 else t) - 23
  let s := (-h - g).toNat
  let q := isqrtBits 60 (2 ^ (2 * s) / m) 0
  sfuBracket 3 x false q (q * q * m == 2 ^ (2 * s)) g

/-- A special function of an FP32 word (R128): 0 exp, 1 log, 2 reciprocal, 3 rsqrt. The flag is overflow. -/
def sfu (fn x : Nat) : Nat × Bool :=
  let nanW := 0x7FC00000
  let infW := 0x7F800000
  match f32Val x with
  | .nan => (nanW, false)
  | .inf neg =>
    match fn with
    | 0 => (if neg then 0 else infW, false)
    | 1 => (if neg then nanW else infW, false)
    | 2 => (if neg then 0x80000000 else 0, false)
    | _ => (if neg then nanW else 0, false)
  | .fin neg m e =>
    if m = 0 then
      match fn with
      | 0 => (0x3F800000, false)
      | 1 => (0xFF800000, false)
      | _ => (if neg then 0xFF800000 else infW, false)
    else
      match fn with
      | 0 =>
        if !neg && decide (0x42B17218 ≤ x) then (infW, true)
        else if neg && decide (0xC3000000 ≤ x) then (gridWord false (Config.sfu 0 x % 3) (-149), false)
        else (sfuExp x neg m e, false)
      | 1 => if neg then (nanW, false) else if x = 0x3F800000 then (0, false) else (sfuLog x m e, false)
      | 2 => sfuRecip x neg m e
      | _ => if neg then (nanW, false) else (sfuRsqrt x m e, false)

end Sys2Proof.Machine
end

