-- ==== Sys2Proof/Machine/Flags.lean ====
section
/-! DEFINITION. The arithmetic status a command reports (R133, R80) and how each result sets it. -/

namespace Sys2Proof.Machine

/-- Two parts of a command's status taken together; flush_count saturates at 16 bits. -/
def Status.join (a b : Status) : Status where
  accLoss := a.accLoss || b.accLoss
  overflow := a.overflow || b.overflow
  nanOut := a.nanOut || b.nanOut
  narrow := a.narrow || b.narrow
  formatErr := a.formatErr || b.formatErr
  emptyRow := a.emptyRow || b.emptyRow
  nanRow := a.nanRow || b.nanRow
  traced := a.traced || b.traced
  flush := min 65535 (a.flush + b.flush)
  memError := a.memError || b.memError

/-- The flags byte of a completion record (R159). -/
def Status.byte (a : Status) : Nat :=
  bit a.accLoss + 2 * bit a.overflow + 4 * bit a.nanOut + 8 * bit a.narrow + 16 * bit a.formatErr + 32 * bit a.emptyRow
    + 64 * bit a.nanRow + 128 * bit a.traced

/-- What accumulators that are drained or saved report: a sticky one, and one that saturated in this command (R133, R504). -/
def accStatus (before after : List Acc) : Status :=
  { accLoss := after.any (·.sticky),
    overflow := (List.range after.length).any fun i => (after.getD i {}).sat && !(before.getD i {}).sat }

/-- What a written array reports: overflow and NaN results (R133). -/
def packStatus (overflow nan : Bool) : Status := { overflow, nanOut := nan }

end Sys2Proof.Machine
end

