-- ==== Sys2Proof/Machine/Wire.lean ====
section
/-! DEFINITION. Wire modes (10_collectives.md, R289-R295): element types, the LOSSLESS coder, and BQE blocks. -/

namespace Sys2Proof.Machine

/-- Bytes of an element of a type code (R289). -/
def typeBytes (ty : Nat) : Nat :=
  match ty with
  | 0 => 4
  | 3 => 32
  | _ => 2

/-- The arithmetic format of an element type other than XP: FP32, BF16, FP16. -/
def typeFmt (ty : Nat) : Nat :=
  match ty with
  | 0 => 9
  | 1 => 7
  | _ => 8

/-- Whether a wire mode and an element type are defined together (R289). -/
def wireOk (mode ty : Nat) : Bool := decide (ty ≤ 3) && decide (mode ≤ 3) && !(decide (2 ≤ mode) && ty == 3)

/-- Whether a wire mode is BQE8 or BQE4. -/
def isBqe (mode : Nat) : Bool := mode == 2 || mode == 3

/-- *k* of R291. -/
def bqeBits (mode : Nat) : Nat := if mode = 2 then 8 else 4

/-- Bytes of a BQE block (R291). -/
def bqeBytes (mode : Nat) : Nat := if mode = 2 then 33 else 17

/-- Staged bytes of `n` elements (R289). -/
def stagedBytes (mode ty n : Nat) : Nat := if isBqe mode then n * bqeBytes mode / 32 else n * typeBytes ty

/-! ### LOSSLESS (R290) -/

/-- The lag *L*. -/
def losslessLag (ty : Nat) : Nat := if ty = 3 then 8 else 1

/-- The 32 words of block `b` of a byte string; bytes past its end are 0. -/
def blockWords (bs : List Byte) (b : Nat) : List Nat := (List.range 32).map fun i => bytesAt bs (128 * b + 4 * i) 4

/-- The deltas of a block. -/
def blockDeltas (lag : Nat) (ws : List Nat) : List Nat :=
  (List.range 32).map fun i => ws.getD i 0 ^^^ (if lag ≤ i then ws.getD (i - lag) 0 else 0)

/-- The length code of a non-zero delta: the index of its highest non-zero byte. -/
def deltaCode (d : Nat) : Nat := if d < 2 ^ 8 then 0 else if d < 2 ^ 16 then 1 else if d < 2 ^ 24 then 2 else 3

/-- Two-bit codes packed from bit 0, padded to a whole byte. -/
def packCodes2 (cs : List Nat) : List Byte :=
  leBytes ((cs.length + 3) / 4) ((List.range cs.length).map fun i => cs.getD i 0 * 4 ^ i).sum

/-- One coded block. -/
def losslessBlock (lag : Nat) (ws : List Nat) : List Byte :=
  let ds := blockDeltas lag ws
  let mask := maskOfList ((List.range 32).filter fun i => ds.getD i 0 == 0)
  let nz := ds.filter (· != 0)
  leBytes 4 mask ++ packCodes2 (nz.map deltaCode) ++ nz.flatMap fun d => leBytes (deltaCode d + 1) d

/-- The coded blocks of a byte string, in order. -/
def losslessEncode (ty : Nat) (bs : List Byte) : List (List Byte) :=
  (List.range (ceilDiv bs.length 128)).map fun b => losslessBlock (losslessLag ty) (blockWords bs b)

/-- The deltas of a coded block: its mask, the length codes and the bytes that follow, and the rest of the bytes. -/
def readDeltas : List Nat → List Byte → List Nat × List Byte
  | [], bs => ([], bs)
  | c :: cs, bs =>
    let (ds, rest) := readDeltas cs (bs.drop (c + 1))
    (bytesAt bs 0 (c + 1) :: ds, rest)

/-- The words of a block from its mask and its non-zero deltas; `done` holds the words so far, the newest first. -/
def undelta (lag mask : Nat) : List Nat → List Nat → List Nat → List Nat
  | [], _, done => done.reverse
  | i :: is, ds, done =>
    let prev := if lag ≤ i then done.getD (lag - 1) 0 else 0
    if bitOf mask i then undelta lag mask is ds (prev :: done)
    else match ds with
      | [] => undelta lag mask is [] (prev :: done)
      | d :: ds => undelta lag mask is ds ((prev ^^^ d) :: done)

/-- Decode the coded blocks of a payload. -/
def losslessDecode (ty : Nat) : Nat → List Byte → List Byte
  | 0, _ => []
  | fuel + 1, bs =>
    if bs = [] then []
    else
      let mask := bytesAt bs 0 4
      let n := 32 - popcount 32 mask
      let codes := (List.range n).map fun i => bitsOf (bytesAt bs (4 + i / 4) 1) (2 * (i % 4) + 1) (2 * (i % 4))
      let (ds, rest) := readDeltas codes (bs.drop (4 + (n + 3) / 4))
      (undelta (losslessLag ty) mask (List.range 32) ds []).flatMap (leBytes 4) ++ losslessDecode ty fuel rest

/-! ### BQE (R291, R292, R295) -/

/-- *q_i* of a block as stored, in two's complement. -/
def bqeQ (mode : Nat) (block : List Byte) (i : Nat) : Int :=
  if mode = 2 then toSigned 8 (bytesAt block (1 + i) 1)
  else toSigned 4 (bitsOf (bytesAt block (1 + i / 2) 1) (4 * (i % 2) + 3) (4 * (i % 2)))

/-- Element `i` of a block (R291): a special block and a reserved code decode to NaN. The flag is a reserved code. -/
def bqeElem (mode : Nat) (block : List Byte) (i : Nat) : Val × Bool :=
  let x := bytesAt block 0 1
  let k := bqeBits mode
  let q := bqeQ mode block i
  if x = 0xFF then (.nan, false)
  else if q = -(2 : Int) ^ (k - 1) then (.nan, true)
  else (.fin (decide (q < 0)) q.natAbs ((x : Int) - 126 - k), false)

/-- The quotient of R292 in units of Δ, rounded to nearest even. -/
def bqeQuot (k : Nat) (x : Int) (y : Val) : Nat :=
  match y with
  | .fin _ m e => if m = 0 then 0 else roundGrid .rne m e (x - 126 - k)
  | _ => 0

/-- The scale of a block of R292 after at most one requantization, and whether elements saturate. -/
def bqeScale (k : Nat) (ys : List Val) (e : Int) : Nat × Bool :=
  let x := clampScale (e + 128)
  let full := fun (x : Nat) => ys.any fun y => decide (2 ^ (k - 1) ≤ bqeQuot k x y)
  if full x then (if x < 254 then (x + 1, full (x + 1)) else (x, true)) else (x, false)

/-- One quantized element: its *q*, and the residual as an FP32 word. -/
def bqeQuant (k x : Nat) (y : Val) : Int × Nat :=
  let top := 2 ^ (k - 1) - 1
  match y with
  | .fin neg _ _ =>
    let q := min top (bqeQuot k x y)
    ((if neg then -(q : Int) else q), (toF32 (y.plus (.fin (!neg) q ((x : Int) - 126 - k)))).1)
  | _ => (0, 0)

/-- The bytes of a block. -/
def bqePack (mode x : Nat) (qs : List Int) : List Byte :=
  leBytes 1 x ++ (if mode = 2 then qs.flatMap fun q => leBytes 1 (ofSigned 8 q)
    else (List.range 16).flatMap fun i => leBytes 1 (ofSigned 4 (qs.getD (2 * i) 0) + 16 * ofSigned 4 (qs.getD (2 * i + 1) 0)))

/-- Quantize one block of 32 exact values `y` (R292): the block, the new residuals, and overflow. -/
def bqeBlock (mode : Nat) (ys : List Val) : List Byte × List Nat × Bool :=
  let k := bqeBits mode
  if ys.any (·.special) then (bqePack mode 0xFF (List.replicate 32 0), List.replicate 32 0, false)
  else match blockExp ys with
    | none => (bqePack mode 0 (List.replicate 32 0), List.replicate 32 0, false)
    | some e =>
      let (x, sat) := bqeScale k ys e
      let qs := ys.map (bqeQuant k x)
      (bqePack mode x (qs.map (·.1)), qs.map (·.2), sat || decide (254 < e + 128))

/-- Element `i` of a byte string of an element type other than XP. -/
def typeElem (ty : Nat) (bs : List Byte) (i : Nat) : Val :=
  decodeElem (typeFmt ty) (bytesAt bs (typeBytes ty * i) (typeBytes ty)) 0

/-- Quantize a byte string of elements with its residuals: the blocks, the residuals' bytes, and overflow. A partial last block is
filled with zero elements, whose residuals are not kept (log entry 36). -/
def bqeEncode (mode ty : Nat) (bs resid : List Byte) : List (List Byte) × List Byte × Bool :=
  let n := bs.length / typeBytes ty
  let y := fun (i : Nat) => if i < n then (typeElem ty bs i).plus (f32Val (bytesAt resid (4 * i) 4)) else .fin false 0 0
  let blocks := (List.range (ceilDiv n 32)).map fun b => bqeBlock mode ((List.range 32).map fun i => y (32 * b + i))
  (blocks.map (·.1), (blocks.flatMap fun b => b.2.1.flatMap (leBytes 4)).take (4 * n), blocks.any fun b => b.2.2)

/-- The elements of BQE blocks written in an element type (R295): rounded to nearest even. -/
def bqeDecode (mode ty : Nat) (bs : List Byte) : List Byte :=
  (List.range (bs.length / bqeBytes mode)).flatMap fun b =>
    let block := (bs.drop (bqeBytes mode * b)).take (bqeBytes mode)
    (List.range 32).flatMap fun i => leBytes (typeBytes ty) (packIeee (typeFmt ty) .rne (bqeElem mode block i).1).1

/-- The bytes a receiver writes for a payload (R290, R295): `pad` bytes of padding at its end are not written (log entry 35). -/
def decodePayload (mode ty pad : Nat) (bs : List Byte) : List Byte :=
  let out := if mode = 1 then losslessDecode ty (bs.length + 1) bs else if isBqe mode then bqeDecode mode ty bs else bs
  out.take (out.length - pad)

/-! ### Payloads of a sending operation (R289-R292) -/

/-- Cut bytes into payloads of at most `per` bytes, with their offsets; at least one payload. -/
def cutBytes (per : Nat) : Nat → Nat → List Byte → List (Nat × List Byte)
  | 0, off, bs => [(off, bs)]
  | fuel + 1, off, bs => if bs.length ≤ per then [(off, bs)] else (off, bs.take per) :: cutBytes per fuel (off + per) (bs.drop per)

/-- Cut coded blocks into payloads of whole blocks, each at the offset of its first block's elements; `cur` holds the blocks so far. -/
def cutBlocks (top stride : Nat) : List (List Byte) → Nat → Nat → List Byte → List (Nat × List Byte)
  | [], _, start, cur => [(start, cur)]
  | b :: bs, off, start, cur =>
    if cur ≠ [] ∧ top < cur.length + b.length then (start, cur) :: cutBlocks top stride bs (off + stride) off b
    else cutBlocks top stride bs (off + stride) start (cur ++ b)

/-- What a sending operation sends: payloads with their offsets, the padding of the last, coded bytes, new residuals, overflow. -/
structure Coded where
  parts : List (Nat × List Byte)
  pad   : Nat := 0
  coded : Nat := 0
  resid : List Byte := []
  spill  : Bool := false
deriving DecidableEq, Repr

/-- Code a payload in a wire mode for payloads of at most `top` bytes; `staged` tells blocks stored as received. -/
def codeData (mode ty top : Nat) (staged : Bool) (bs resid : List Byte) : Coded :=
  match mode with
  | 0 =>
    let per := top / typeBytes ty * typeBytes ty
    { parts := cutBytes per bs.length 0 bs, coded := bs.length }
  | 1 =>
    let blocks := losslessEncode ty bs
    { parts := cutBlocks top 128 blocks 0 0 [], pad := 128 * blocks.length - bs.length, coded := (blocks.map List.length).sum }
  | _ =>
    let (blocks, r, o) := bqeEncode mode ty bs resid
    { parts := cutBlocks top (if staged then bqeBytes mode else 32 * typeBytes ty) blocks 0 0 [],
      pad := if staged then 0 else 32 * blocks.length * typeBytes ty - bs.length, coded := blocks.length * bqeBytes mode, resid := r,
      spill := o }

/-- The bytes of the source a payload covers: where its first element lies, up to the next payload's, or the end of `n` bytes. `staged` offsets count
coded blocks. -/
def Coded.span (c : Coded) (mode ty n : Nat) (staged : Bool) (i : Nat) : Nat × Nat :=
  let at_ := fun (k : Nat) => match c.parts[k]? with
    | some x => if staged && isBqe mode then x.1 / bqeBytes mode * 32 * typeBytes ty else x.1
    | none => n
  (at_ i, at_ (i + 1) - at_ i)

/-! ### XP (R286) -/

/-- Raise an accumulator until its anchor is at least `n`, under R114. -/
def Acc.raiseTo : Nat → Acc → Nat → Acc
  | 0, a, _ => a
  | fuel + 1, a, n => if a.sat ∨ n ≤ a.anchor then a else Acc.raiseTo fuel (a.raise (decide (a.acc < 0))) n

/-- Take the sticky and special flags of a partial. -/
def Acc.orFlags (a b : Acc) (sticky : Bool) : Acc :=
  { a with sticky := a.sticky || (sticky && b.sticky), nan := a.nan || b.nan, pinf := a.pinf || b.pinf, ninf := a.ninf || b.ninf }

/-- Add an exact partial (R286). -/
def Acc.addXp (a b : Acc) : Acc :=
  if !b.valid then a.orFlags b false
  else if !a.valid then { a with acc := b.acc, anchor := b.anchor, valid := true }.orFlags b true
  else if a.sat then a.orFlags b true
  else
    let a := Acc.raiseTo 256 a b.anchor
    let d := 4 * (a.anchor - b.anchor)
    let a := { a with acc := a.acc + b.acc / (2 ^ d : Nat), sticky := a.sticky || decide (b.acc % (2 ^ d : Nat) ≠ 0) }
    (if a.grown false then a.raise (decide (a.acc < 0)) else a).orFlags b true

end Sys2Proof.Machine
end

