-- ==== Sys2Proof/Machine/Coll.lean ====
section
/-! DEFINITION. Channels and reduction engines (10_collectives.md, R280-R282, R297): bindings and areas, the schedule tables, shares,
zeroization, chunk counts and nak windows. -/

namespace Sys2Proof.Machine

/-! ### Channels in force -/

/-- Whether a channel is valid: bound, with its area zeroized. -/
def State.chanValid (s : State) (c : Nat) : Bool := s.liveFlag (COLL_CHAN_CFG_valid c)

/-- The stand a channel is bound to. -/
def State.chanStand (s : State) (c : Nat) : Nat := s.liveFld (COLL_CHAN_CFG_stand c)

/-- Whether a channel is valid and bound to a stand. -/
def State.chanOf (s : State) (c st : Nat) : Bool := decide (c < 64) && s.chanValid c && s.chanStand c == st

/-- The engine a channel is bound to. -/
def State.chanEngine (s : State) (c : Nat) : Nat := s.liveFld (COLL_CHAN_CFG_engine c)

/-- Whether `n` bytes from `off` lie in a channel's area. -/
def State.chanIn (s : State) (c off n : Nat) : Bool := decide (off + n ≤ s.liveFld (COLL_CHAN_CFG_size c) * 65536)

/-- A byte of a channel's area. -/
def State.chanAt (s : State) (c off : Nat) : Nat :=
  foldAt (s.chanEngine c) + s.liveFld (COLL_CHAN_CFG_base c) * 65536 + off

/-- The channel an engine folds for in a slot (R281). -/
def State.schedChannel (s : State) (e slot : Nat) : Option Nat :=
  let b := byteOf (s.liveRd (COLL_SCHED e (slot / 8))) (slot % 8)
  if 128 ≤ b ∧ slot < 62 then some (b % 64) else none

/-- The current slot, numbered through the rings. -/
def State.slotNo (s : State) : Nat := s.rings * 64 + s.clk.slot

/-! ### Bindings (R280) -/

/-- The fields a write to COLL_CHAN_CFG sets. -/
def chanMask : Word := 0xB80F00FF01FF00FF#64

/-- The engine, stand and area of a word of COLL_CHAN_CFG. -/
def chanArea (w : Word) : Word := w &&& 0x200F000001FF00FF#64

/-- The units of the area of a word of COLL_CHAN_CFG. -/
def chanUnits (w : Word) : List (Nat × Nat) :=
  (List.range (bitsOf w.toNat 24 16)).map fun i => (bitsOf w.toNat 61 61, bitsOf w.toNat 7 0 + i)

/-- Whether R280 rejects a write: an area without units, past the buffer's end, or over another valid channel's on the engine. -/
def State.chanRejected (s : State) (c : Nat) (v : Word) : Bool :=
  v.getLsbD 63 &&
    (bitsOf v.toNat 24 16 == 0 || decide (256 < bitsOf v.toNat 7 0 + bitsOf v.toNat 24 16) ||
      (List.range 64).any fun d => d != c && s.flag (COLL_CHAN_CFG_valid d) &&
        (chanUnits (s.rd (COLL_CHAN_CFG d))).any fun u => (chanUnits v).contains u)

/-- A write to COLL_CHAN_CFG. -/
def State.writeChanCfg (s : State) (c : Nat) (v : Word) : State :=
  if s.chanRejected c v then s.setFlag COLL_EVENT_area_rejected true
  else
    let p := s.fld (COLL_CHAN_CFG_pending c)
    (s.wr (COLL_CHAN_CFG c) (v &&& chanMask)).setFld (COLL_CHAN_CFG_pending c) p

/-- COLL_CHAN_CFG_WRITE (R280). -/
def execCollChanCfgWrite (c : Nat) (v : Word) (s : State) : Res := s.when (decide (c < 64)) (s.writeChanCfg c v)

/-- COLL_STATUS counts the units awaiting zeroization. -/
def State.zeroUnits (s : State) : State :=
  (s.setFld COLL_STATUS_zero_units0 (s.coll.dirty.countP fun u => u.1 == 0)).setFld COLL_STATUS_zero_units1
    (s.coll.dirty.countP fun u => u.1 == 1)

/-- Units of the fold buffers (R280). -/
def allUnits : List (Nat × Nat) := (List.range 2).flatMap fun e => (List.range 256).map fun u => (e, u)

/-- Units join those awaiting zeroization. -/
def State.dirtyUnits (s : State) (us : List (Nat × Nat)) : State :=
  (s.onColl fun c => { c with dirty := c.dirty ++ us.filter fun u => !c.dirty.contains u }).zeroUnits

/-- COLL_CHAN_STATUS counts the chunk values a channel has open. -/
def State.showChunks (s : State) (c : Nat) : State :=
  s.setFld (COLL_CHAN_STATUS_open_chunks c) (min 16 (s.coll.chunks.countP fun k => k.channel == c))

/-- A channel's open chunk counts are cleared. -/
def State.dropChunks (s : State) (c : Nat) : State :=
  (s.onColl fun x => { x with chunks := x.chunks.filter fun k => k.channel != c }).showChunks c

/-- Whether two words of COLL_CHAN_CFG bind a channel to one stand on one engine. -/
def sameBinding (v w : Word) : Bool := v &&& 0x200F000000000000#64 == w &&& 0x200F000000000000#64

/-- The units that leave or enter an area (R280): where the binding changes, all of both. -/
def movedUnits (old new : Option Word) : List (Nat × Nat) :=
  let us := fun (w : Option Word) => match w with | some w => chanUnits w | none => []
  match old, new with
  | some v, some w =>
    if sameBinding v w then (us old).filter (fun u => !(us new).contains u) ++ (us new).filter (fun u => !(us old).contains u)
    else us old ++ us new
  | _, _ => us old ++ us new

/-- The word a channel has committed, if that binds it: in force, or in force once its units are zeroized. -/
def State.chanHeld (s : State) (c : Nat) : Option Word :=
  let w := s.liveRd (COLL_CHAN_CFG c)
  if w.getLsbD 63 || (s.flag (COLL_CHAN_CFG_pending c) && (s.coll.moved.get (false, []) c).1) then some w else none

/-- Commit a channel at a guard band (R280): a changed binding or area is not valid until the units that leave or enter it are zeroized. -/
def State.commitChan (s : State) (c : Nat) : State :=
  let new := s.rd (COLL_CHAN_CFG c) &&& chanMask
  let old := s.chanHeld c
  let next := if new.getLsbD 63 then some new else none
  if old.map chanArea = next.map chanArea then
    s.setLive (COLL_CHAN_CFG c) (putBits new 63 63 (bitsOf (s.liveRd (COLL_CHAN_CFG c)).toNat 63 63))
  else
    let us := movedUnits old next
    let before := (s.coll.moved.get (false, []) c).2
    let s := (s.setFlag (COLL_CHAN_CFG_pending c) true).onColl fun x => { x with moved := x.moved.set (false, []) c (next.isSome, before ++ us) }
    ((s.setLive (COLL_CHAN_CFG c) (putBits new 63 63 0)).dropChunks c).dirtyUnits us

/-- Each engine zeroizes in a guard band what 1,024 bytes per I/O fabric cycle allow: half as many units as a slot has reference
cycles (R280). -/
def State.collZeroize (s : State) : State :=
  (s.forEach [0, 1] fun e s =>
    let us := (s.coll.dirty.filter fun u => u.1 == e).take (Config.slotRef s.period / 2)
    (s.forEach us fun u s => s.zeroize (foldAt u.1 + u.2 * 65536) 65536).onColl fun c =>
      { c with dirty := c.dirty.filter fun u => !us.contains u }).zeroUnits

/-- Whether every unit a channel in change left or entered is zeroized. -/
def State.chanDue (s : State) (c : Nat) : Bool :=
  s.flag (COLL_CHAN_CFG_pending c) && !(s.coll.moved.get (false, []) c).2.any fun u => s.coll.dirty.contains u

/-- A channel's change is complete: it is valid where the write binds it. -/
def State.chanInForce (s : State) (c : Nat) : State :=
  let w := s.liveRd (COLL_CHAN_CFG c)
  ((s.setFlag (COLL_CHAN_CFG_pending c) false).setLive (COLL_CHAN_CFG c) (putBits w 63 63 (bit (s.coll.moved.get (false, []) c).1))).onColl fun x =>
    { x with moved := x.moved.set (false, []) c (false, []) }

/-- CHAN_AREA_ZEROIZE_DONE (R280): in step 2 of the guard band after its last unit is zeroized, the channel's change is in force. -/
def execChanAreaZeroizeDone (c : Nat) (s : State) : Res :=
  s.when (decide (c < 64) && s.inStep2 0 && s.chanDue c) (s.chanInForce c)

/-- Every channel whose change is complete (log entry 74). -/
def State.chansDue (s : State) : State := s.forEach (List.range 64) fun c s => if s.chanDue c then s.chanInForce c else s

/-! ### The schedule table and the shares (R281, R272) -/

/-- Whether a byte of COLL_SCHED names a channel bound to the engine, or none. -/
def State.schedOk (s : State) (e b : Nat) : Bool :=
  decide (b < 128) || (s.flag (COLL_CHAN_CFG_valid (b % 64)) && s.fld (COLL_CHAN_CFG_engine (b % 64)) == e)

/-- A write to a word of COLL_SCHED: an entry that names a foreign channel is ignored (R281). -/
def State.writeSched (s : State) (e q : Nat) (v : Word) : State :=
  s.forEach (List.range (if q = 7 then 6 else 8)) fun i s =>
    let b := byteOf v i &&& 0xBF
    if s.schedOk e b then s.wr (COLL_SCHED e q) (putByte (s.rd (COLL_SCHED e q)) i b) else s.setFlag COLL_EVENT_sched_rejected true

/-- COLL_SCHED_WRITE (R281). -/
def execCollSchedWrite (e q : Nat) (v : Word) (s : State) : Res := s.when (decide (e < 2) && decide (q < 8)) (s.writeSched e q v)

/-- The shares the other stands have at an NI. -/
def State.otherShares (s : State) (st io : Nat) : Nat :=
  ((List.range 16).map fun x => if x = st then 0
    else s.fld (if io = 0 then COLL_STAND_QUOTA_quota0 x else COLL_STAND_QUOTA_quota1 x)).sum

/-- A write to COLL_STAND_QUOTA: ignored when the shares of an NI would exceed 2,048. -/
def State.writeQuota (s : State) (st : Nat) (v : Word) : State :=
  let q0 := bitsOf v.toNat 11 0
  let q1 := bitsOf v.toNat 27 16
  if 2048 < s.otherShares st 0 + q0 ∨ 2048 < s.otherShares st 1 + q1 then s.setFlag COLL_EVENT_quota_rejected true
  else (s.setFld (COLL_STAND_QUOTA_quota0 st) q0).setFld (COLL_STAND_QUOTA_quota1 st) q1

/-- COLL_STAND_QUOTA_WRITE (R272). -/
def execCollStandQuotaWrite (st : Nat) (v : Word) (s : State) : Res := s.when (decide (st < 16)) (s.writeQuota st v)

/-! ### Chunks (R282) -/

/-- The count of a chunk. -/
def State.chunkOf (s : State) (c k : Nat) : Option Chunk := s.coll.chunks.find? fun x => x.channel == c && x.chunk == k

/-- Whether a contribution to a chunk can be counted: its chunk is open or one of 16 is free. -/
def State.chunkRoom (s : State) (c k : Nat) : Bool :=
  (s.chunkOf c k).isSome || decide (s.coll.chunks.countP (fun x => x.channel == c) < 16)

/-- A contribution of a chunk is complete. -/
def State.contribute (s : State) (c k : Nat) (poison : Bool) : State :=
  let old := (s.chunkOf c k).getD { channel := c, chunk := k, count := 0 }
  let new := { old with count := old.count + 1, slot := s.slotNo, poison := old.poison || poison }
  (s.onColl fun x => { x with chunks := x.chunks.filter (fun y => !(y.channel == c && y.chunk == k)) ++ [new] }).showChunks c

/-- A fold takes a chunk's count (R283). -/
def State.takeChunk (s : State) (c k : Nat) : State :=
  (s.onColl fun x => { x with chunks := x.chunks.filter fun y => !(y.channel == c && y.chunk == k) }).showChunks c

/-! ### Naks (R297) -/

/-- Whether a channel's packets are in flight on a limb. -/
def State.chanOnLimb (s : State) (c l : Nat) : Bool :=
  s.ni.txq.any fun p => p.limb == l && p.sent && !p.mgmt && p.pkt.channel == c && s.chanOf c p.stand

/-- A counted nak on a limb (R297): it counts for every channel with packets there; at crc_thresh, crc_e2e is set from the next guard
band. -/
def State.countNaks (s : State) (l : Nat) : State :=
  s.forEach (List.range 64) fun c s =>
    if s.liveFlag (COLL_CHAN_CFG_crc_auto c) && s.chanOnLimb c l then
      let s := s.count (COLL_CHAN_CRC_naks_window c) 1
      if max 1 (s.fld (COLL_CHAN_CFG_crc_thresh c)) ≤ s.fld (COLL_CHAN_CRC_naks_window c) ∧ !s.flag (COLL_CHAN_CFG_crc_e2e c) then
        (s.setFlag (COLL_CHAN_CFG_crc_e2e c) true).setFlag COLL_EVENT_crc_auto_on true
      else s
    else s

/-- CRC_WINDOW_EXPIRE (R297): COLL_CRC_WINDOW rings after the window began; the next one begins (log entry 37). -/
def execCrcWindowExpire (c : Nat) (s : State) : Res :=
  s.when (decide (c < 64) && decide (s.coll.window.get 0 c + max 1 (s.fld COLL_CRC_WINDOW_rings) ≤ s.rings))
    ((s.setFld (COLL_CHAN_CRC_naks_window c) 0).onColl fun x => { x with window := x.window.set 0 c s.rings })

end Sys2Proof.Machine
end

