-- ==== Sys2Proof/Machine/Frames.lean ====
section
/-! DEFINITION. What travels on a limb as bytes (08_limbs.md, 09_fabric_transport.md): the fields of a received flit, the packet header, the link
prefix and IV, the frame of a packet and the flits of what is sent (R213-R215, R222, R226, R233, R238). -/

namespace Sys2Proof

open Machine

/-! ### A received flit (*Flit layout*) -/

/-- Bytes 0-3. -/
def Flit.head (f : Flit) : Nat := bytesAt f.bytes 0 4
/-- type: 0 data, 1 idle, 2 control, 3 reserved. -/
def Flit.type (f : Flit) : Nat := bitsOf f.head 31 30
/-- vc: 0 scheduled, 1 best-effort, 2 management, 3 reserved. -/
def Flit.vc (f : Flit) : Nat := bitsOf f.head 29 28
/-- sop. -/
def Flit.sop (f : Flit) : Bool := bitOf f.head 27
/-- eop. -/
def Flit.eop (f : Flit) : Bool := bitOf f.head 26
/-- retry. -/
def Flit.retry (f : Flit) : Bool := bitOf f.head 25
/-- seq. -/
def Flit.seq (f : Flit) : Nat := bitsOf f.head 24 13
/-- ack_group. -/
def Flit.ackGroup (f : Flit) : Nat := bitsOf f.head 12 7
/-- nak. -/
def Flit.nak (f : Flit) : Bool := bitOf f.head 6
/-- The subtype of a control flit (R215). -/
def Flit.subtype (f : Flit) : Nat := bytesAt f.bytes 4 1
/-- The link prefix of a packet's first flit (R222). -/
def Flit.link (f : Flit) : Nat := bytesAt f.bytes 4 8
/-- key_index and the key generation of a link prefix. -/
def Flit.key (f : Flit) : Nat × Bool := (bitsOf f.link 63 59, bitOf f.link 58)
/-- Whether the flit is whole and its CRC-32C over bytes 0-195 matches. -/
def Flit.crcOk (f : Flit) : Bool := f.bytes.length == 200 && crc32c (f.bytes.take 196) == bytesAt f.bytes 196 4
/-- Whether a receiver accepts the flit (R216). -/
def Flit.good (f : Flit) : Bool := !f.fecUncorrectable && f.crcOk

/-! ### The packet header (*Packet header*) -/

/-- The 64 bytes of a header as sent, with its reserved bits zero. -/
def Packet.headerBytes (p : Packet) : List Byte :=
  leBytes 1 p.type ++ leBytes 1 (p.flags % 8) ++ leBytes 1 (p.dstStand % 16 + 16 * (p.srcStand % 16))
    ++ leBytes 1 (p.srcLimb % 32 + 32 * (p.target % 4)) ++ leBytes 2 (p.dstNode % 4096) ++ leBytes 2 p.dstEpoch
    ++ leBytes 2 (p.srcNode % 4096) ++ leBytes 2 p.srcEpoch ++ leBytes 2 p.srcRank ++ leBytes 2 (p.group % 4096)
    ++ leBytes 2 (p.length % 8192) ++ leBytes 2 (p.knot % 4096 + 4096 * (p.knotOp % 16)) ++ leBytes 4 p.knotValue
    ++ leBytes 8 p.remote ++ leBytes 4 p.opId ++ leBytes 2 (p.channel % 64) ++ leBytes 2 0 ++ leBytes 8 p.inject
    ++ leBytes 2 p.pktIndex ++ leBytes 2 p.pktCount ++ leBytes 4 p.deliverBy ++ leBytes 8 p.coll

/-- Flits of a packet: 64 header and 24 framing bytes beside the payload, 192 bytes a flit (R214). -/
def Packet.flits (p : Packet) : Nat := ceilDiv (88 + p.payload.length) 192

/-- The body of a CAP flit after its subtype (*Capability record*). -/
def Cap.body (c : Cap) : List Byte :=
  leBytes 1 c.llp ++ leBytes 1 c.cls ++ leBytes 1 c.limb ++ leBytes 2 (c.node % 4096) ++ leBytes 2 c.nodeEpoch ++ leBytes 2 c.domainTag
    ++ leBytes 1 c.reach ++ leBytes 1 (c.period % 4 + 4 * bit c.epochValid) ++ leBytes 1 c.lanes ++ leBytes 3 0

/-- The body of a MARKER flit after its subtype (*Ring alignment marker*). -/
def Marker.body (m : Marker) : List Byte :=
  leBytes 8 m.ringTime ++ leBytes 1 (m.period % 4 + 4 * bit m.epochValid) ++ leBytes 2 (m.node % 4096) ++ leBytes 2 m.nodeEpoch
    ++ leBytes 2 m.domainTag ++ leBytes 8 0

end Sys2Proof

namespace Sys2Proof.Machine

/-! ### The frame of a packet (R214, R222) -/

/-- The 8-byte link prefix. -/
def SendKey.linkBytes (k : SendKey) : List Byte :=
  leBytes 8 (k.counter % 2 ^ 48 + bit k.gen * 2 ^ 58 + k.index % 32 * 2 ^ 59)

/-- The 96-bit IV: the salt followed by the counter. -/
def SendKey.iv (k : SendKey) : List Byte := leBytes 6 k.salt ++ leBytes 6 k.counter

/-- Prefix, header, encrypted payload and tag. -/
def frameBytes (p : Packet) (k : SendKey) : List Byte :=
  let open_ := k.linkBytes ++ p.headerBytes
  open_ ++ (List.range (p.payload.length + 16)).map (Config.gcm k.handle k.iv open_ p.payload)

/-! ### Flits as sent -/

/-- Bytes 0-3 of flit `i` of what a head begins. -/
def flitWord (type vc : Nat) (sop eop : Bool) (h : FlitHead) (i : Nat) : Nat :=
  64 * bit h.nak + 128 * (h.ackGroup % 64) + 8192 * ((h.seq + i * h.stride) % 4096) + 2 ^ 25 * bit h.retry + 2 ^ 26 * bit eop
    + 2 ^ 27 * bit sop + 2 ^ 28 * (vc % 4) + 2 ^ 30 * (type % 4)

/-- The 200 bytes of a flit. -/
def flitBytes (word : Nat) (body : List Byte) : List Byte :=
  let b := leBytes 4 word ++ padTo 192 body
  b ++ leBytes 4 (crc32c b)

/-- The flits of what leaves on a limb, in order (R213-R215). -/
def Out.flits : Out → List (List Byte)
  | .packet _ cls p h k =>
    let frame := frameBytes p k
    ((List.range p.flits).map fun i =>
      flitBytes (flitWord 0 cls (i == 0) (i + 1 == p.flits) h i) ((frame.drop (192 * i)).take 192)).drop h.skip
  | .flit _ 0 body h => [flitBytes (flitWord 1 0 false false h 0) body]
  | .flit _ sub body h => [flitBytes (flitWord 2 0 false false h 0) (leBytes 1 sub ++ body)]
  | _ => []

/-- What is sent again from a replay group on (R217, R224): the flits before it are left out, and retry is set. -/
def Out.again (o : Out) (skip ackGroup : Nat) (nak : Bool) : Out :=
  match o with
  | .packet l c p h k => .packet l c p { h with skip, retry := true, ackGroup, nak } k
  | .flit l t b h => .flit l t b { h with retry := true, ackGroup, nak }
  | o => o

end Sys2Proof.Machine
end

