-- ==== Sys2Proof/Machine/Limbs.lean ====
section
/-! DEFINITION. Limbs (08_limbs.md): training, replay groups, link keys, markers, the elastic stage, HOLD. -/

namespace Sys2Proof.Machine

/-- A limb's state: LIMB_STATUS.state. -/
def State.limbState (s : State) (l : Nat) : Nat := s.fld (LIMB_STATUS_state l)

/-- Whether a limb is ACTIVE. -/
def State.limbActive (s : State) (l : Nat) : Bool := s.limbState l == 8

/-- The reach the limb was last trained under (R210). -/
def State.limbReach (s : State) (l : Nat) : Nat := bitsOf (s.limb l).cfg.toNat 9 8

/-- Set a limb's bit in a mask field. -/
def State.setLimbBit (s : State) (f : Fld) (l : Nat) (b : Bool) : State :=
  s.setFld f (if b then s.fld f ||| (1 <<< l) else s.fld f &&& (2 ^ 18 - 1 - (1 <<< l)))

/-- Put a limb in a state; LIMB_GLOBAL_STATUS follows. -/
def State.setLimbState (s : State) (l st : Nat) : State :=
  ((s.setFld (LIMB_STATUS_state l) st).setLimbBit LIMB_GLOBAL_STATUS_active l (st == 8)).setLimbBit
    LIMB_GLOBAL_STATUS_failed l (st == 10)

/-- LIMB_GLOBAL_STATUS.reduced follows the mode: ×4 or LLP2. -/
def State.refreshReduced (s : State) (l : Nat) : State :=
  s.setLimbBit LIMB_GLOBAL_STATUS_reduced l
    (s.limbActive l && (s.fld (LIMB_STATUS_width l) != 3 || s.fld (LIMB_STATUS_llp l) == 2))

/-- The owner event LINK. -/
def State.linkEvent (s : State) (l : Nat) : State :=
  s.eventOwner 0x0070 2 0xFF (evData [(8, 1, l), (9, 1, s.limbState l), (10, 1, s.fld (LIMB_STATUS_fail_cause l))])

/-- A FAULT notice of an NI (R393): to each valid sink whose route names an ACTIVE limb, each key at most once per ring and
sink; beyond 16 waiting notices, or without such a limb, it is dropped and counted. -/
def State.notice (s : State) (io code node epoch : Nat) : State :=
  if !s.flag MBX_RED_CFG_fault_send_en || s.safeHold then s
  else s.forEach [0, 1] fun sink s =>
    let n : Notice := { io, sink, node, code, epoch }
    let valid := if sink = 0 then s.flag MBX_RED_CFG_sink0_valid else s.flag MBX_RED_CFG_sink1_valid
    let route := if sink = 0 then s.fld MBX_RED_ROUTE_sink0_route else s.fld MBX_RED_ROUTE_sink1_route
    if !valid || s.ni.noticed.contains n then s
    else if !(List.range 18).any (fun l => bitOf route l && s.limbActive l)
        || decide (16 ≤ s.ni.notices.countP fun x => x.io == io) then s.count MBX_RED_NOTICE_dropped 1
    else s.onNi fun x => { x with notices := x.notices ++ [n], noticed := n :: x.noticed }

/-- Whether the I/O fabric of a limb's I/O die is clocked: its MAC, its crypto engine and its NI run (R40, R55). -/
def State.limbOn (s : State) (l : Nat) : Bool := s.powered && bitOf s.gates (12 + l / 9)

/-! ### Flits a limb sends (R213-R218) -/

/-- Flit times a flit of the limb's own takes: a ×4 limb follows each with an idle flit (R230). -/
def State.limbStride (s : State) (l : Nat) : Nat := if s.fld (LIMB_STATUS_width l) % 3 = 0 then 1 else 2

/-- Flits an L3 limb may send before 8 groups are unacknowledged (R218). -/
def State.slack (s : State) (l : Nat) : Nat := (s.limb l).acked * 64 + 512 - (s.limb l).txNext

/-- Whether the replay window lets a limb send `n` flits: an L1 or L2 limb never stops (R218). -/
def State.windowOpen (s : State) (l n : Nat) : Bool := s.limbReach l != 3 || decide (n * s.limbStride l ≤ s.slack l)

/-- Idle and other flits of the stream that no command stands for, sent before `n` flits (R213): a free number, in the window on L3 (log entry 19). -/
def State.idleFlits (s : State) (l n : Nat) : Nat :=
  s.freeWord.toNat % (if s.limbReach l = 3 then s.slack l - n * s.limbStride l + 1 else 4096)

/-- Send what takes `n` flits on a limb: `f` makes it from the head of its first flit. It enters the replay buffer (R217). Gives the replay group of
its last flit. -/
def State.sendFlits (s : State) (l n : Nat) (f : FlitHead → Out) : Nat × State :=
  let x := s.limb l
  let q := x.txNext + s.idleFlits l n
  let last := (q + (n - 1) * s.limbStride l) / 64
  let o := f { seq := q % 4096, stride := s.limbStride l, ackGroup := x.rxGroup, nak := x.rxNak }
  (last, (s.drawn.onLimb l fun x => { x with
    txNext := q + n * s.limbStride l, replay := x.replay ++ [{ first := q / 64, last, out := o }] }).emit o)

/-- Send one control flit (R215), or an idle flit (subtype 0). -/
def State.sendControl (s : State) (l subtype : Nat) (body : List Byte) : State := (s.sendFlits l 1 (.flit l subtype body)).2

/-- The flits a limb had sent and not seen acknowledged are discarded and reported to its NI (R219, R258). -/
def State.loseUnacked (s : State) (l : Nat) : State :=
  (s.onNi fun n => { n with txq := n.txq.map fun p =>
    if p.limb == l && p.sent && !p.lost then { p with lost := true, avoid := l, since := s.rings } else p }).onLimb l fun x =>
      { x with nakGroup := none, nakCount := 0, replay := [] }

/-- Whether limbs may train: the clock stage has ended and the package is in run, sleep or stand-down (R236). -/
def State.limbsMayTrain (s : State) : Bool := s.powered && decide (4 ≤ s.fld ID_BOOT_stage) && decide (s.pwrState ≤ 2)

/-- Start training from DETECT (R226): the configuration in LIMB_CFG and the domain tag take effect; replay starts anew. Under reach 0 the limb
is not trained and goes to OFF (R210). -/
def State.startTraining (s : State) (l : Nat) : State :=
  let cfg := s.rd (LIMB_CFG l)
  if !s.limbsMayTrain then s
  else if bitsOf cfg.toNat 9 8 = 0 then
    let s := if s.limbActive l then (s.setFlag (LIMB_EVENT_retrain l) true).loseUnacked l else s
    ((s.setLimbState l 0).refreshReduced l).onLimb l fun x => { x with cfg }
  else
    let s := if s.limbActive l then (s.setFlag (LIMB_EVENT_retrain l) true).loseUnacked l else s
    let s := (((s.setLimbState l 1).refreshReduced l).setFld (LIMB_STATUS_llp l) 0).setFld (LIMB_STATUS_width l) 0
    let s := ((s.count (LIMB_TRAINED_retrain_count l) 1).setFld (LIMB_ELASTIC_occ_min l) 0xFF).setFld (LIMB_ELASTIC_occ_max l) 0
    s.onLimb l fun x => { x with
      cfg, tag := s.fld LIMB_GLOBAL_CFG_domain_tag, failed := 0, cap := none, txNext := 4096, acked := 64, replay := [],
      rxGroup := 63, rxNak := false, rxLate := false, rxKey := (0, false), handed := [], nakGroup := none, nakCount := 0,
      partnerHold := false, baseline := none, slipFloor := 0 }

/-- Training fails (R226): the limb enters FAILED, the owner gets LINK, and LINK_FAILED is noticed (R393). -/
def State.failTraining (s : State) (l cause : Nat) : State :=
  let s := ((s.setLimbState l 10).setFld (LIMB_STATUS_fail_cause l) cause).refreshReduced l
  let s := match (s.limb l).cap with
    | some c => s.notice (l / 9) 0x01 c.node c.nodeEpoch
    | none => s
  s.linkEvent l

/-- Leave ACTIVE to train again with a cause (R219, R235). -/
def State.retrainFor (s : State) (l cause : Nat) : State :=
  let s := (s.setFld (LIMB_STATUS_fail_cause l) cause).startTraining l
  s.linkEvent l

/-- Enabled limbs train when the package leaves deep sleep, with cached coefficients (R236). A failed one stays in FAILED (R226; log entry 83). -/
def State.trainFromOff (s : State) : State :=
  s.forEach (List.range 18) fun l s => if s.flag (LIMB_CFG_enable l) && s.limbState l == 0 then s.startTraining l else s

/-- Move a limb to OFF (R236). -/
def State.limbOff (s : State) (l : Nat) : State :=
  let s := if s.limbActive l then s.loseUnacked l else s
  (s.setLimbState l 0).refreshReduced l

/-- The limbs in deep sleep (R236): OFF, but for one in FAILED, which stays there (R226; log entry 83). -/
def State.limbsSleep (s : State) : State :=
  s.forEach (List.range 18) fun l s => if s.limbState l = 10 then s else s.limbOff l

/-- Every limb that trains or is ACTIVE goes to HOLD and discards its replay buffer (R236, R237). -/
def State.limbsHold (s : State) : State :=
  s.forEach (List.range 18) fun l s =>
    if decide (1 ≤ s.limbState l) && decide (s.limbState l ≤ 8) then ((s.loseUnacked l).setLimbState l 9).refreshReduced l else s

/-- A write to LIMB_CFG: its RW fields, then OFF, an exit from OFF, or a retrain (R226, R236). A limb in HOLD does not train. -/
def State.writeLimbCfg (s : State) (l : Nat) (v : Word) : State :=
  let was := s.flag (LIMB_CFG_enable l)
  let s := s.wr (LIMB_CFG l) (v &&& 0xFF01#64)
  if !v.getLsbD 0 then (if was then s.limbOff l else s)
  else if s.limbState l == 9 then s
  else if !was || v.getLsbD 1 then s.startTraining l
  else s

/-- LIMB_RETRAIN (R226): a write of LIMB_CFG with retrain set. -/
def execLimbRetrain (l : Nat) (v : Word) (s : State) : Res := s.when (decide (l < 18) && v.getLsbD 1) (s.writeLimbCfg l v)

/-- LIMB_ENABLE_WRITE (R236): a write of LIMB_CFG without retrain. -/
def execLimbEnableWrite (l : Nat) (v : Word) (s : State) : Res :=
  s.when (decide (l < 18) && !v.getLsbD 1) (s.writeLimbCfg l v)

/-- LIMB_DETECT_DONE (R212, R226): polarity and reversal are corrected; no lane with signal fails with NO_SIGNAL. -/
def execLimbDetectDone (l polarity : Nat) (reversed : Bool) (failed : Nat) (s : State) : Res :=
  s.when (decide (l < 18) && s.limbState l == 1)
    (let s := ((s.setFld (LIMB_STATUS_polarity l) polarity).setFlag (LIMB_STATUS_lane_reversed l) reversed).onLimb l
       fun x => { x with failed := failed % 256 }
     if failed % 256 = 255 then s.failTraining l 1 else s.setLimbState l 2)

/-- LIMB_BASE_EQ_DONE (R226): the limb goes to CAP and sends its capability record. -/
def execLimbBaseEqDone (l failed : Nat) (s : State) : Res :=
  s.when (decide (l < 18) && s.limbState l == 2)
    (let s := (s.onLimb l fun x => { x with failed := x.failed ||| (failed % 256) }).setLimbState l 3
     let c : Cap :=
       { llp := 2 + bit (s.flag (LIMB_CFG_allow_llp2 l)), cls := 0, limb := l, node := s.liveFld NI_NODE_node_id,
         nodeEpoch := s.liveFld NI_NODE_node_epoch, domainTag := (s.limb l).tag, reach := s.limbReach l, period := s.period,
         epochValid := s.epoch, lanes := 255 - (s.limb l).failed }
     s.sendControl l 0x01 c.body)

/-- The width a set of failed lanes leaves (R230): 3 for ×8, 1 or 2 for ×4, 0 when both halves fail. -/
def widthOf (failed : Nat) : Nat :=
  if failed % 256 = 0 then 3 else if failed % 16 = 0 then 1 else if failed % 256 < 16 then 2 else 0

/-- CAP_RECEIVE (R227, R228, R230): version, domain and width are decided. -/
def execCapReceive (l : Nat) (c : Cap) (s : State) : Res :=
  s.when (decide (l < 18) && s.limbState l == 3)
    (let failed := (s.limb l).failed ||| (255 - c.lanes % 256)
     let s := s.onLimb l fun x => { x with cap := some c, failed }
     let s := ((((s.setFld (LIMB_STATUS_partner_class l) c.cls).setFld (LIMB_STATUS_partner_limb l) c.limb).setFld
       (LIMB_STATUS_partner_node l) c.node).setFld (LIMB_STATUS_partner_epoch l) c.nodeEpoch)
     let same := c.domainTag == (s.limb l).tag && c.period == s.period
     let s := s.setFlag (LIMB_STATUS_same_domain l) same
     let llp := if bitOf c.llp 1 then 3 else if bitOf c.llp 0 && s.flag (LIMB_CFG_allow_llp2 l) then 2 else 0
     if llp = 0 then s.failTraining l 3
     else if s.limbReach l ≠ 3 ∧ (c.domainTag ≠ (s.limb l).tag ∨ c.reach ≠ s.limbReach l) then s.failTraining l 4
     else if s.limbReach l ≠ 3 ∧ c.period ≠ s.period then s.failTraining l 7
     else if widthOf failed = 0 ∨ (llp = 2 ∧ failed % 256 ≠ 0) then s.failTraining l 2
     else
       ((s.setFld (LIMB_STATUS_llp l) llp).setFld (LIMB_STATUS_width l) (widthOf failed)).setLimbState l (if llp = 3 then 4 else 5))

/-- LIMB_FULL_EQ_DONE (R230): a failing lane may narrow the limb to ×4; failures in both halves fail with EQ. -/
def execLimbFullEqDone (l failed : Nat) (s : State) : Res :=
  s.when (decide (l < 18) && s.limbState l == 4)
    (let f := (s.limb l).failed ||| (failed % 256)
     let s := s.onLimb l fun x => { x with failed := f }
     if widthOf f = 0 then s.failTraining l 2 else (s.setFld (LIMB_STATUS_width l) (widthOf f)).setLimbState l 5)

/-- Enter KEYCHECK: the limb sends its check value under the management key, where one is loaded (R226; log entry 80). -/
def State.enterKeycheck (s : State) (l : Nat) : State :=
  let s := s.setLimbState l 6
  if s.flag (LIMB_KEY_VALID_mgmt_loaded l) then
    s.sendControl l 0x05 ((List.range 16).map (Config.tag ((s.limb l).keys.get {} 16).handle []))
  else s

/-- LIMB_DESKEW_DONE (R218, R229, R235): L1 and L2 set *c*, beyond the class limit failing with LATENCY; L3 centres its
elastic stage. -/
def execLimbDeskewDone (l flight rtt : Nat) (s : State) : Res :=
  s.when (decide (l < 18) && s.limbState l == 5)
    (if s.limbReach l = 3 then
      let s := ((s.setFld (LIMB_ELASTIC_occ_now l) 40).setFld (LIMB_ELASTIC_occ_min l) 40).setFld (LIMB_ELASTIC_occ_max l) 40
      ((s.setFld (LIMB_TRAINED_c l) 0).setFld (LIMB_TRAINED_rtt l) rtt).enterKeycheck l
     else
      let c := flight + 2
      if (if s.limbReach l = 1 then 8 else 24) < c then s.failTraining l 5
      else ((s.setFld (LIMB_TRAINED_c l) c).setFld (LIMB_TRAINED_rtt l) (2 * (240 + c) + 16)).enterKeycheck l)

/-- Enter ACTIVE: the coefficients are cached; a reduced mode is recorded (R226, R230). -/
def State.limbActivate (s : State) (l : Nat) : State :=
  let s := ((s.setLimbState l 8).refreshReduced l).onLimb l fun x => { x with cached := true, baseline := none }
  let s := s.onNi fun n => { n with beUsed := n.beUsed.set 0 l 0, mgUsed := n.mgUsed.set 0 l 0, blocked := n.blocked.filter (· != l) }
  if bitOf (s.fld LIMB_GLOBAL_STATUS_reduced) l then s.setFlag (LIMB_EVENT_reduced l) true else s

/-- KEYCHECK_RECEIVE (R226): verified under the loaded management key the limb goes on, else fails with KEY. -/
def execKeycheckReceive (l : Nat) (verified : Bool) (s : State) : Res :=
  s.when (decide (l < 18) && s.limbState l == 6)
    (if !(verified && s.flag (LIMB_KEY_VALID_mgmt_loaded l)) then s.failTraining l 6
     else if s.fld (LIMB_STATUS_llp l) == 3 && s.epoch && (match (s.limb l).cap with | some c => c.epochValid | none => false) then
       s.setLimbState l 7
     else s.limbActivate l)

/-- LIMB_TRAINING_TIMEOUT (R226): the stage exceeded its cold bound. -/
def execLimbTrainingTimeout (l : Nat) (s : State) : Res :=
  s.when (decide (l < 18) && decide (1 ≤ s.limbState l) && decide (s.limbState l ≤ 7)) (s.failTraining l 10)

/-! ### Flits and replay -/

/-- The replay group in progress at the sender. -/
def Limb.group (x : Limb) : Nat := (x.txNext - 1) / 64

/-- The group a six-bit group number of the partner names: one of the 8 before the group in progress, or one of those that idle flits have filled
since (R217). -/
def Limb.groupOf (x : Limb) (g : Nat) : Nat :=
  let back := (x.group + 64 - g % 64) % 64
  if back ≤ 8 then x.group - back else x.group + (64 - back)

/-- Take an ack_group (R217, R219): every packet whose last flit lies in a group up to it is acknowledged, and ends a covered group's nak count. -/
def State.takeAck (s : State) (l g : Nat) : State :=
  let x := s.limb l
  let a := x.groupOf g
  if a < x.acked then s
  else
    let covered := fun (p : TxPkt) => p.limb == l && p.sent && !p.lost && decide (p.group ≤ a)
    let done := s.ni.txq.filter covered
    let s := s.onNi fun n => { n with
      txq := n.txq.filter (fun p => !covered p),
      trigs := n.trigs.map fun t =>
        { t with unacked := t.unacked - done.countP fun p => p.stand == t.stand && p.index == t.index && !p.mgmt } }
    let ends := match x.nakGroup with | some n => decide (n ≤ a) | none => true
    s.onLimb l fun x => { x with
      acked := a + 1, txNext := max x.txNext (64 * (a + 1)), replay := x.replay.filter (fun e => decide (a < e.last)),
      nakGroup := if ends then none else x.nakGroup, nakCount := if ends then 0 else x.nakCount }

/-- Whether the limb's mode carries a class (R230-R232): vc 0 scheduled, 1 best-effort, 2 management. -/
def State.limbCarries (s : State) (l vc : Nat) : Bool :=
  if vc = 0 then
    s.fld (LIMB_STATUS_llp l) == 3 && s.fld (LIMB_STATUS_width l) == 3 &&
      (s.limbReach l != 3 || (s.flag (LIMB_STATUS_same_domain l) && s.flag (LIMB_CFG_l3_sched l)))
  else decide (vc ≤ 2)

/-- The elastic stage at a flit (R235): its occupancy; a compensation flit dropped above 40, a hold below 16, and a fault at
0 or 80. -/
def State.elastic (s : State) (l : Nat) (f : Flit) : State :=
  if s.limbReach l ≠ 3 ∨ !s.limbActive l then s
  else
    let o := f.occupancy
    let s := ((s.setFld (LIMB_ELASTIC_occ_now l) o).setFld (LIMB_ELASTIC_occ_min l)
      (min o (s.fld (LIMB_ELASTIC_occ_min l)))).setFld (LIMB_ELASTIC_occ_max l) (max o (s.fld (LIMB_ELASTIC_occ_max l)))
    let s := if f.comp && decide (40 < o) then s.count (LIMB_ELASTIC_comp_drop l) 1 else s
    let s := if o < 16 then s.count (LIMB_ELASTIC_comp_hold l) 1 else s
    if o = 0 ∨ 80 ≤ o then (s.setFlag (LIMB_EVENT_elastic_fault l) true).retrainFor l 9 else s

/-- Whether the elastic stage discards the flit (R235). -/
def State.elasticDrops (s : State) (l : Nat) (f : Flit) : Bool := s.limbReach l == 3 && f.comp && decide (40 < f.occupancy)

/-- A place in a receive buffer is free again: its credit returns in a CREDIT flit (R215, R250; log entry 80). Scheduled packets use none (R247). -/
def State.returnCredit (s : State) (l vc : Nat) : State :=
  if s.limbActive l && decide (1 ≤ vc) then
    s.sendControl l 0x03 ((List.range 191).map (Config.creditBody (bit (vc == 1)) (bit (vc == 2))))
  else s

/-- Whether a packet's key is one the receiver takes (R223, R224, R232): a valid index, in its current generation or, for 2 rings after a load, the
one before. -/
def State.keyTaken (s : State) (l : Nat) (key : Nat × Bool) : Bool :=
  let e := (s.limb l).keys.get {} key.1
  (if key.1 = 16 then s.flag (LIMB_KEY_VALID_mgmt_loaded l)
   else decide (key.1 < 16) && bitOf (bitsOf (s.liveRd (LIMB_KEY_VALID l)).toNat 15 0) key.1 && s.fld (LIMB_STATUS_llp l) == 3)
    && (key.2 == e.gen || (e.old && decide (s.rings < e.loadRing + 2)))

/-- A packet's last flit has arrived: its key and tag are checked (R223, R224), and it goes to the NI, LATE if any of its flits was a replay
(R220, R232). -/
def State.packetIn (s : State) (l : Nat) (f : Flit) : State :=
  let x := s.limb l
  let late := x.rxLate && s.fld (LIMB_STATUS_llp l) == 3
  if s.keyTaken l x.rxKey && f.tagOk then
    let s := s.onLimb l fun x => { x with handed := x.handed ++ [{ late, index := x.rxKey.1, vc := f.vc }] }
    if late then ((s.count (LIMB_RETRY_late_packets l) 1).setFlag (LIMB_EVENT_late l) true).limbEvent l 0x2A none 1 else s
  else
    (((s.count (LIMB_CRYPTO_auth_fail l) 1).setFld (LIMB_CRYPTO_last_index l) x.rxKey.1).setFlag (LIMB_EVENT_auth_fail l)
      true).returnCredit l f.vc

/-- A data flit of a packet: the first gives its key, any may give the LATE flag (R220, R222). -/
def State.dataFlit (s : State) (l : Nat) (f : Flit) : State :=
  let s := s.onLimb l fun x => { x with
    rxLate := (!f.sop && x.rxLate) || f.retry, rxKey := if f.sop then f.key else x.rxKey }
  if f.eop then s.packetIn l f else s

/-- A flit a receiver accepts (R213-R217, R231): the last good group, the partner's acknowledgement, and what it carries. A reserved type, subtype or
class is discarded and counted. -/
def State.acceptFlit (s : State) (l : Nat) (f : Flit) : State :=
  let s := s.onLimb l fun x => { x with rxNak := false, rxGroup := ((f.seq + 1) / 64 + 63) % 64 }
  let s := (s.takeAck l f.ackGroup).limbEvent l 0x21 none (bit (f.type == 0))
  if f.type = 3 ∨ (f.type = 2 ∧ (!decide (1 ≤ f.subtype ∧ f.subtype ≤ 5) ∨ (f.subtype = 2 ∧ s.fld (LIMB_STATUS_llp l) = 2)))
      ∨ (f.type = 0 ∧ !s.limbCarries l f.vc) then
    s.count (LIMB_RETRY_crc_fail l) 1
  else if f.type = 0 then s.dataFlit l f
  else s

/-- FLIT_RECEIVE (R213-R217, R220, R231, R235): a flit is accepted on FEC and CRC, or answered with nak and everything after
it discarded until the requested group is resent. A flit at a limb that is not ACTIVE is discarded (log entry 20). A control flit's content has a
row of its own, and so has a nak that counts (R219). -/
def execFlitReceive (l : Nat) (f : Flit) (s : State) : Res :=
  s.when (decide (l < 18) && s.limbActive l && s.limbOn l)
    (let s := if f.fecUncorrectable then s.count (LIMB_FEC_uncorrectable_cw l) 1
       else if f.fecCorrected then (s.count (LIMB_FEC_corrected_cw l) 1).limbEvent l 0x27 none 1 else s
     let s := if !f.fecUncorrectable && !f.crcOk then s.count (LIMB_RETRY_crc_fail l) 1 else s
     let s := s.elastic l f
     if !s.limbActive l ∨ (f.good && s.elasticDrops l f) then s
     else if (s.limb l).rxNak && !(f.good && f.retry && f.seq == ((s.limb l).rxGroup + 1) % 64 * 64) then s
     else if !f.good then ((s.count (LIMB_RETRY_naks l) 1).limbEvent l 0x28 none 1).onLimb l fun x => { x with rxNak := true }
     else s.acceptFlit l f)

/-- COMP_IDLE_SEND (R235): an L3 sender emits its compensation idle flit. -/
def execCompIdleSend (l : Nat) (s : State) : Res :=
  s.when (decide (l < 18) && s.limbActive l && s.limbOn l && s.limbReach l == 3) (s.sendControl l 0 [])

/-- A nak that counts brings its group to `n`: whether the limb retrains, or replays (R219). -/
def State.nakLimit (s : State) (l n : Nat) : Bool := decide (max 1 (s.fld (LIMB_CFG_retry_limit l)) ≤ n)

/-- The flits of a replay entry that lie in groups before `n`. -/
def Sent.before (e : Sent) (n : Nat) : Nat :=
  match e.out with
  | .packet _ _ p h _ =>
    if e.first < n then (List.range p.flits).countP fun i => decide (64 * e.first + h.seq % 64 + i * h.stride < 64 * n) else 0
  | _ => 0

/-- Resend a group and every later one in order, with retry set (R217, R224). A limb whose partner is in HOLD sends no packet (R237). -/
def State.replayFrom (s : State) (l n : Nat) : State :=
  let x := s.limb l
  if x.partnerHold then s
  else s.forEach (x.replay.filter fun e => decide (n ≤ e.last)) fun e s => s.emit (e.out.again (e.before n) x.rxGroup x.rxNak)

/-- The operations with a flit in group `n` or a later one are LATE: their flits are replayed (R257, R279). -/
def State.markReplayed (s : State) (l n : Nat) : State :=
  let hit := fun (t : Trig) => s.ni.txq.any fun p =>
    p.limb == l && p.sent && !p.lost && !p.mgmt && decide (n ≤ p.group) && p.stand == t.stand && p.index == t.index
  s.onNi fun x => { x with trigs := x.trigs.map fun t => if hit t then { t with flags := t.flags ||| 1 } else t }

/-- A counted nak of a group (R219): a replay of it and every later group, or retraining with cause RETRY at retry_limit. -/
def State.takeNak (s : State) (l group : Nat) : State :=
  let g := (s.limb l).groupOf group
  let n := if (s.limb l).nakGroup = some g then (s.limb l).nakCount + 1 else 1
  let s := s.onLimb l fun x => { x with nakGroup := some g, nakCount := n }
  if s.nakLimit l n then s.retrainFor l 8 else (s.markReplayed l g).replayFrom l g

/-- STATUS_HOLD_RECEIVE (R237): partner_hold; PARTNER_HOLD is noticed (R393). -/
def execStatusHoldReceive (l : Nat) (s : State) : Res :=
  s.when (decide (l < 18) && s.limbActive l)
    (let s := (s.setFlag (LIMB_EVENT_partner_hold l) true).onLimb l fun x => { x with partnerHold := true }
     match (s.limb l).cap with
     | some c => s.notice (l / 9) 0x02 c.node c.nodeEpoch
     | none => s)

/-- HOLD_STATUS_SEND (R237): while RACK_REF passes the monitor. -/
def execHoldStatusSend (l : Nat) (s : State) : Res :=
  s.when (decide (l < 18) && s.limbOn l && s.limbState l == 9 && !s.flag CLK_STATUS_on_iosc) (s.sendControl l 0x04 (leBytes 1 9))

/-- LIMB_SIGNAL_LOSS (R237): in DETECT the training fails with NO_SIGNAL; an ACTIVE limb accepts no further flit until a
replayed group begins (log entry 21). -/
def execLimbSignalLoss (l : Nat) (s : State) : Res :=
  s.when (decide (l < 18) && (s.limbState l == 1 || s.limbActive l))
    (if s.limbState l = 1 then s.failTraining l 1
     else s.onLimb l fun x => { x with rxNak := true })

/-! ### Keys (R223-R225) -/

/-- KEY_OLD_GEN_EXPIRE (R224): two rings after a load only the new generation is accepted. -/
def execKeyOldGenExpire (l k : Nat) (s : State) : Res :=
  let e := (s.limb l).keys.get {} k
  s.when (decide (l < 18) && decide (k < 17) && e.old && decide (e.loadRing + 2 ≤ s.rings))
    (s.onLimb l fun x => { x with keys := x.keys.set {} k { e with old := false } })

/-- A pending key load takes effect in step 5 of the guard band (R199, R224): the other generation, a fresh counter. -/
def State.applyLimbKey (s : State) (l k : Nat) (e : LimbKey) : State :=
  let cur := (s.limb l).keys.get {} k
  let loaded := decide (cur.handle ≠ 0)
  let gen := if loaded then !cur.gen else cur.gen
  let s := s.onLimb l fun x => { x with
    keys := x.keys.set {} k { e with gen, old := loaded, oldHandle := cur.handle, oldSalt := cur.salt, counter := 0, loadRing := s.rings } }
  let s := s.setFld (LIMB_CRYPTO_exhausted l) (s.fld (LIMB_CRYPTO_exhausted l) &&& (2 ^ 17 - 1 - (1 <<< k)))
  if k = 16 then
    ((s.setFlag (LIMB_KEY_VALID_mgmt_loaded l) true).setFlag (LIMB_KEY_VALID_mgmt_gen l) gen).setFlag
      (LIMB_KEY_VALID_mgmt_rotate_due l) false
  else
    let put := fun (m : Nat) (b : Bool) => if b then m ||| (1 <<< k) else m &&& (2 ^ 16 - 1 - (1 <<< k))
    (s.setFld (LIMB_KEY_VALID_gen l) (put (s.fld (LIMB_KEY_VALID_gen l)) gen)).setFld (LIMB_KEY_VALID_rotate_due l)
      (put (s.fld (LIMB_KEY_VALID_rotate_due l)) false)

/-- Apply every pending limb key load. -/
def State.applyLimbKeys (s : State) : State :=
  s.forEach (List.range 18) fun l s =>
    let p := (s.limb l).pendKeys
    (s.forEach p fun e s => s.applyLimbKey l e.1 e.2).onLimb l fun x => { x with pendKeys := [] }

/-- An index stops sending (R225). -/
def State.stopKey (s : State) (l k : Nat) : State :=
  (s.setFld (LIMB_CRYPTO_exhausted l) (s.fld (LIMB_CRYPTO_exhausted l) ||| (1 <<< k))).setFlag (LIMB_EVENT_key_exhausted l) true

/-- Count a packet sent under an index (R225): rotate_due at 2^47; at 2^48 - 1 the index stops. Gives the key it goes under, none where the index has
stopped. -/
def State.useKey (s : State) (l k : Nat) : Option SendKey × State :=
  let e := (s.limb l).keys.get {} k
  if bitOf (s.fld (LIMB_CRYPTO_exhausted l)) k then (none, s)
  else
    let n := e.counter + 1
    let s := s.onLimb l fun x => { x with keys := x.keys.set {} k { e with counter := n } }
    let s := if n = 2 ^ 47 then
        let s := s.setFlag (LIMB_EVENT_rotate_due l) true
        if k = 16 then s.setFlag (LIMB_KEY_VALID_mgmt_rotate_due l) true
        else s.setFld (LIMB_KEY_VALID_rotate_due l) (s.fld (LIMB_KEY_VALID_rotate_due l) ||| (1 <<< k))
      else s
    (some { index := k, gen := e.gen, counter := e.counter, salt := e.salt, handle := e.handle },
      if n = 2 ^ 48 - 1 then s.stopKey l k else s)

/-! ### Markers (R38, R67, R233, R234) -/

/-- The marker of a limb as it leaves: its send instant is reference cycle 63 * P + P / 2 of the ring (R233). -/
def State.marker (s : State) (l : Nat) : Marker :=
  let p := Config.slotRef s.period
  { ringTime := s.ring * 65536 + 63 * p + p / 2, period := s.period, epochValid := s.epoch, node := s.liveFld NI_NODE_node_id,
    nodeEpoch := s.liveFld NI_NODE_node_epoch, domainTag := (s.limb l).tag, retry := false }

/-- Send the ring alignment marker of every LLP3 limb in slot 63 (R233): one in ALIGN sends it too, since its partner's training waits for it. -/
def State.sendMarkers (s : State) : State :=
  s.forEach (List.range 18) fun l s =>
    if (s.limbActive l || s.limbState l == 7) && s.limbOn l && s.fld (LIMB_STATUS_llp l) == 3 then s.sendControl l 0x02 (s.marker l).body
    else s

/-- A ring time moved on by reference cycles, as a pair ring number and cycle. -/
def ringAfter (code ring cycle n : Nat) : Nat × Nat := (ring + (cycle + n) / Config.ringRef code, (cycle + n) % Config.ringRef code)

/-- A disagreeing marker (R67). -/
def State.disagree (s : State) (l : Nat) (period : Bool) : State :=
  let s := (((s.count RING_SLIP_COUNT_disagree_count 1).setFld RING_SLIP_COUNT_last_limb l).setFlag RING_EVENT_disagree true).onClk
    fun c => { c with slipDue := true }
  if period then s.setFlag RING_EVENT_period_mismatch true else s

/-- The arrival offset of a marker on an L3 limb (R67): each rise of its quotient by slip_thresh is a slip. slip_count wraps: the spec has only
disagree_count saturate (DESIGN CHOICE, log entry 79). -/
def State.slip (s : State) (l : Nat) (offset : Int) : State :=
  match (s.limb l).baseline with
  | none => s.onLimb l fun x => { x with baseline := some offset, slipFloor := 0 }
  | some b =>
    let th := s.fld RING_CFG_slip_thresh
    if th = 0 then s
    else
      let q := (offset - b).natAbs / th
      let s := if (s.limb l).slipFloor < q then
          (((s.countWrap RING_SLIP_COUNT_slip_count 1).setFld RING_SLIP_COUNT_last_limb l).setFlag RING_EVENT_slip true).onClk
            fun c => { c with slipDue := true }
        else s
      s.onLimb l fun x => { x with slipFloor := q }

/-- Ring time is adopted from a marker: the ring in progress establishes the epoch, in the slot the time names (R38, R509). What waits for a ring
boundary waits for the next one, under its new number. -/
def State.adoptTime (s : State) (l : Nat) (t : Nat × Nat) : State :=
  let s := s.renumberFrost (s.ring + 1) (t.1 + 1)
  let s := ((s.setFld RING_TIME_ring t.1).setFld RING_TIME_ref_cycle t.2).onClk fun c =>
    { c with
      establishing := true, slot := t.2 / Config.slotRef s.period, band := 0,
      refTotal := c.refTotal + s.fld RING_TIME_ref_cycle - t.2,
      now := max c.now (t.2 * Config.leafMult s.tier), lclk0 := c.now - t.2 * Config.leafMult s.tier }
  let s := (s.setFlag RING_STATUS_epoch_valid true).setFld RING_STATUS_epoch_src 2
  let s := if s.limbReach l = 3 then s.onLimb l fun x => { x with baseline := some t.2, slipFloor := 0 } else s
  s.eventOwner 0x0011 1 0xFF (evData [(8, 1, 0), (16, 8, (s.rd RING_TIME).toNat)])

/-- A marker's ring time at the end of its fixed latency: 15 reference cycles and *c*, or the elastic occupancy (R234). -/
def State.markerTime (s : State) (l : Nat) (m : Marker) : Nat × Nat :=
  let extra := (if s.limbReach l = 3 then s.fld (LIMB_ELASTIC_occ_now l) else s.fld (LIMB_TRAINED_c l)) / 16
  ringAfter m.period (m.ringTime / 65536) (m.ringTime % 65536) (15 + extra)

/-- A marker is compared with local ring time (R67): another period on any limb, another time on L1 and L2, counts one
disagreement, also where both differ (DESIGN CHOICE, log entry 79).
In ALIGN another period fails the training; otherwise the limb goes to ACTIVE (R234). -/
def State.compareMarker (s : State) (l : Nat) (m : Marker) (offset : Int) : State :=
  let t := s.markerTime l m
  let wrongPeriod := m.period != s.period
  let here : Int := (s.ring * Config.ringRef s.period : Nat) + offset
  let there : Int := (t.1 * Config.ringRef m.period + t.2 : Nat)
  let s := if wrongPeriod || (s.limbReach l != 3 && decide (here ≠ there)) then s.disagree l wrongPeriod else s
  let s := if s.limbReach l = 3 then s.slip l offset else s
  if s.limbState l = 7 then (if wrongPeriod then s.failTraining l 7 else s.limbActivate l) else s

/-- MARKER_RECEIVE (R234): not used with retry set or its epoch_valid 0; otherwise it gives the epoch to a package without one
(R38), or is compared (R67). -/
def execMarkerReceive (l : Nat) (m : Marker) (offset : Int) (s : State) : Res :=
  s.when (decide (l < 18) && s.fld (LIMB_STATUS_llp l) == 3 && (s.limbState l == 7 || s.limbActive l) && s.limbOn l && s.clk.ringOn)
    (if m.retry || !m.epochValid then s
     else if !s.epoch && s.fld RING_CFG_epoch_limb == l && s.flag (LIMB_STATUS_same_domain l) then s.adoptTime l (s.markerTime l m)
     else s.compareMarker l m offset)

end Sys2Proof.Machine
end

