-- ==== Sys2Proof/Machine/Firmware.lean ====
section
/-! DEFINITION. Firmware (17_firmware_update.md): the flash journal, image headers and blocks, the chain, activation,
recovery, and what a loss of VIN leaves. -/

namespace Sys2Proof.Machine

/-- A page of the journal. -/
def journalAt (half page : Nat) : Nat := flashAt + half * 0x8000 + page * 256

/-- A bank (R438). -/
def bankAt (b : Nat) : Nat := flashAt + 0x400000 + b * 0x3E00000

/-- A block record in a bank. -/
def blockAt (b n : Nat) : Nat := bankAt b + 0x10000 + n * 0x11000

/-- Erase flash bytes: they read 0xFF. -/
def State.flashErase (s : State) (a n : Nat) : State :=
  let s := s.zeroize a n
  if a < flashAt + 256 then s.store a (List.replicate (min n (flashAt + 256 - a)) 0xFF#8) else s

/-- Program flash bytes: programming can only clear bits (R439). -/
def State.flashProgram (s : State) (a : Nat) (bs : List Byte) : State :=
  s.store a ((bs.zip (s.bytes a bs.length)).map fun e => e.1 &&& e.2)

/-- Whether a journal page reads all 0xFF. -/
def State.pageFree (s : State) (half page : Nat) : Bool :=
  (List.range 256).all fun i => Memory.read s.mem (journalAt half page + i) == 0xFF#8

/-- Whether a journal page holds a valid record (R441): sealed, and its CRC matches. -/
def State.recordValid (s : State) (half page : Nat) : Bool :=
  (s.bytes (journalAt half page + 248) 8).all (· == 0#8) &&
    crc32c (s.bytes (journalAt half page) 244) == ofLe (s.bytes (journalAt half page + 244) 4)

/-- A journal record read back: where it lies and its fields (R441). -/
structure JRecord where
  half    : Nat
  page    : Nat
  seq     : Nat
  active  : Nat
  state0  : Nat
  state1  : Nat
  version : Nat
  arb     : Nat
  digest0 : List Byte
  digest1 : List Byte
deriving DecidableEq, Repr

/-- The record in a page. -/
def State.recordAt (s : State) (half page : Nat) : JRecord :=
  let b := s.bytes (journalAt half page) 256
  { half, page, seq := bytesAt b 4 4, active := bytesAt b 8 1 % 2, state0 := bytesAt b 9 1, state1 := bytesAt b 10 1,
    version := bytesAt b 12 4, arb := bytesAt b 16 4, digest0 := (b.drop 20).take 48, digest1 := (b.drop 68).take 48 }

/-- The newest valid record: the highest seq (R442). -/
def State.newestRecord (s : State) : Option JRecord :=
  ((List.range 256).filter fun i => s.recordValid (i / 128) (i % 128)).foldl
    (fun best i =>
      let r := s.recordAt (i / 128) (i % 128)
      match best with
      | some b => if b.seq < r.seq then some r else some b
      | none => some r) none

/-- A bank's state in a record. -/
def JRecord.stateOf (r : JRecord) (b : Nat) : Nat := if b = 0 then r.state0 else r.state1

/-- The journal of a flash without a valid record. -/
def noRecord : JRecord :=
  { half := 0, page := 0, seq := 0, active := 1, state0 := 0, state1 := 0, version := 0, arb := 0,
    digest0 := List.replicate 48 0#8, digest1 := List.replicate 48 0#8 }

/-- Free pages of a half. -/
def State.freePages (s : State) (half : Nat) : Nat := (List.range 128).countP fun p => s.pageFree half p

/-- FLASH_STATUS and FLASH_JOURNAL follow the newest record. -/
def State.showJournal (s : State) (r : JRecord) : State :=
  let s := ((s.setFld FLASH_JOURNAL_seq r.seq).setFld FLASH_JOURNAL_half r.half).setFld FLASH_JOURNAL_page r.page
  let s := s.setFld FLASH_JOURNAL_free_pages (s.freePages r.half)
  ((s.setFld FLASH_STATUS_active_bank r.active).setFld FLASH_STATUS_bank0_state r.state0).setFld FLASH_STATUS_bank1_state r.state1

/-- The 256 bytes of a record, sealed (R441). -/
def JRecord.toBytes (r : JRecord) (cause : Nat) (time : Nat) : List Byte :=
  let b := [0x50#8, 0x4C#8, 0x4A#8, 0x52#8] ++ leBytes 4 r.seq ++ leBytes 1 r.active ++ leBytes 1 r.state0 ++ leBytes 1 r.state1
    ++ leBytes 1 cause ++ leBytes 4 r.version ++ leBytes 4 r.arb ++ padTo 48 r.digest0 ++ padTo 48 r.digest1 ++ leBytes 8 time
    ++ List.replicate 120 0#8
  b ++ leBytes 4 (crc32c b) ++ List.replicate 8 0#8

/-- Append a record to the journal (R441, R442): the next page of the current half that reads all 0xFF. -/
def State.appendRecord (s : State) (r : JRecord) (cause time : Nat) : State :=
  match (List.range 128).find? fun p => s.pageFree r.half p with
  | some p =>
    let r := { r with page := p, seq := r.seq + 1 }
    (s.flashProgram (journalAt r.half p) (r.toBytes cause time)).showJournal r
  | none => s

/-- The newest record, or an empty journal's. -/
def State.journal (s : State) : JRecord := s.newestRecord.getD noRecord

/-- Write a record that gives a bank a state, into a journal half. -/
def State.markBankIn (s : State) (half b st cause : Nat) (digest : List Byte) : State :=
  let r := { s.journal with half }
  let r := if b = 0 then { r with state0 := st, digest0 := digest } else { r with state1 := st, digest1 := digest }
  s.appendRecord r cause (s.rd RING_TIME).toNat

/-- Write a record that gives a bank a state (R443, R448, R451). -/
def State.markBank (s : State) (b st cause : Nat) (digest : List Byte) : State := s.markBankIn s.journal.half b st cause digest

/-- The half the first record of a transfer goes to (R442): the other one where fewer than 8 pages of the current half are free. -/
def State.startHalf (s : State) : Nat := if s.freePages s.journal.half < 8 then 1 - s.journal.half else s.journal.half

/-- The inactive bank (R443). -/
def State.inactiveBank (s : State) : Nat := 1 - s.journal.active

/-! ### Headers (R444-R446) -/

/-- The five parts of R444: each type exactly once, block ranges that do not overlap and lie in the image, other entries
zero. -/
def partsOk (h : List Byte) : Bool :=
  let e := (List.range 8).map fun i => (h.drop (96 + 64 * i)).take 64
  let used := e.filter fun p => bytesAt p 0 1 != 0
  let n := bytesAt h 20 4
  decide (1 ≤ n) && decide (n ≤ 932)
    && ([1, 2, 3, 4, 5].all fun t => used.countP (fun p => bytesAt p 0 1 == t) == 1) && used.length == 5
    && (e.all fun p => bytesAt p 0 1 != 0 || p.all (· == 0#8))
    && (used.all fun p => decide (bytesAt p 4 4 + bytesAt p 8 4 ≤ n) && decide (1 ≤ bytesAt p 8 4))
    && (used.all fun p => used.all fun q => bytesAt p 0 1 == bytesAt q 0 1
        || decide (bytesAt p 4 4 + bytesAt p 8 4 ≤ bytesAt q 4 4) || decide (bytesAt q 4 4 + bytesAt q 8 4 ≤ bytesAt p 4 4))

/-- Whether the reserved bytes of a v2 header are zero. -/
def reservedZero (h : List Byte) : Bool :=
  ([(24, 8), (80, 16), (608, 2856), (8187, 5)].all fun r => ((h.drop r.1).take r.2).all (· == 0#8))
    && (List.range 8).all fun i => ((h.drop (96 + 64 * i + 1)).take 3).all (· == 0#8)

/-- The result of the checks of R446, in order. -/
def headerResult (h : List Byte) (floor : Nat) (chk : HeaderCheck) : Nat :=
  if bytesAt h 0 4 ≠ 0x57464C50 then 2
  else if bytesAt h 4 2 = 1 then 3
  else if bytesAt h 4 2 ≠ 2 ∨ bytesAt h 6 2 ≠ 8192 ∨ !reservedZero h then 2
  else if bytesAt h 8 2 ≠ 0x4608 ∨ bytesAt h 10 1 ≠ 0x42 ∨ bytesAt h 11 1 ≠ 0xB1 then 4
  else if bytesAt h 16 4 < floor then 5
  else if !chk.signatures then 6
  else if !chk.unwraps then 7
  else if !partsOk h then 8
  else if !chk.flashOk then 9
  else 0

/-- The SHA-384 of a header's signed portion. -/
def headerDigest (h : List Byte) : List Byte := (List.range 48).map fun i => Config.digest (h.take 3464) i

/-- The event FW_PROGRESS. -/
def State.fwProgress (s : State) : State :=
  s.eventOwner 0x0080 0 0xFF (evData [(8, 1, s.fld FLASH_XFER_state), (12, 4, s.fld FLASH_XFER_blocks_stored)])

/-- Set FLASH_XFER.state and report it. -/
def State.xferState (s : State) (x : Nat) : State := (s.setFld FLASH_XFER_state x).fwProgress

/-- Whether a transfer is in progress. -/
def State.transferring (s : State) : Bool := s.fld FLASH_XFER_state == 2

/-- Store an accepted header: the inactive bank becomes receiving, in a half erased for it where the other runs full
(R442), and the header lies at its start (R443). -/
def State.storeHeader (s : State) (h : List Byte) : State :=
  let b := s.inactiveBank
  let half := s.startHalf
  let t := if half = s.journal.half then s else s.flashErase (journalAt half 0) 0x8000
  let s := t.markBankIn half b 1 0 (List.replicate 48 0#8)
  let s := (s.flashErase (bankAt b) 0x10000).flashProgram (bankAt b) h
  s.onFw fun f => { f with header := h, half := none, parts := [], complete := [], stored := [], idleRings := 0 }

/-- The complete header of a transfer (R446): its result; only result 0 changes the flash. -/
def State.takeHeader (s : State) (h : List Byte) (chk : HeaderCheck) : Nat × State :=
  let r := headerResult h s.fuses.floor chk
  let s := (s.onFw fun f => { f with half := none }).setFld FLASH_XFER_header_result r
  if r = 0 then
    let s := s.storeHeader h
    let s := ((s.setFld FLASH_XFER_blocks_total (bytesAt h 20 4)).setFld FLASH_XFER_blocks_stored 0).setFld
      FLASH_XFER_blocks_forwarded 0
    (0, (s.onFw fun f => { f with forward := if f.nextNode = 0xFFFF then [] else [0xFFFFFFFF] }).xferState 2)
  else (r, s.setFld FLASH_XFER_state 0)

/-- One half of a header (FW_HEADER or CHAIN): the first is held, the second completes it (R446). -/
def State.takeHeaderHalf (s : State) (half : List Byte) (chk : HeaderCheck) : Nat × State :=
  match s.fw.half with
  | some a => s.takeHeader (padTo 4096 a ++ padTo 4096 half) chk
  | none =>
    (1, ((s.onFw fun f => { f with half := some half }).setFld FLASH_XFER_header_result 1).xferState 1)

/-! ### Blocks (R447, R448) -/

/-- Bytes of a block record. -/
def recordBytes : Nat := 65552

/-- Lay bytes into a block record being received; a record all of whose bytes have arrived waits for storage (R448). -/
def State.takePiece (s : State) (n o : Nat) (bs : List Byte) : State :=
  let old := ((s.fw.parts.find? fun e => e.1 == n).map (·.2)).getD []
  let ps := (o, bs) :: old.filter fun e => e.1 != o
  let got := (ps.map fun e => e.2.length).sum
  let rest := s.fw.parts.filter fun e => e.1 != n
  if recordBytes ≤ got then
    let whole := padTo recordBytes (ps.foldl (fun b e => splice b e.1 e.2) (List.replicate recordBytes 0#8))
    s.onFw fun f => { f with parts := rest, complete := f.complete ++ [(n, whole)], idleRings := 0 }
  else s.onFw fun f => { f with parts := (n, ps) :: rest }

/-- Abort a transfer (R451): the inactive bank becomes empty, forwarding stops. -/
def State.abortTransfer (s : State) : State :=
  if s.transferring || s.fld FLASH_XFER_state == 1 then
    let s := if s.transferring then s.markBank s.inactiveBank 0 6 (List.replicate 48 0#8) else s
    (s.onFw fun f => { f with half := none, header := [], parts := [], complete := [], stored := [], forward := [] }).xferState 5
  else s

/-- Erase and program a block record in a bank (R448). -/
def State.programBlock (s : State) (b n : Nat) (rec : List Byte) : State :=
  (s.flashErase (blockAt b n) 0x11000).flashProgram (blockAt b n) rec

/-- BLOCK_STORE (R448), while the flash controller is clocked (R55): the first complete record is checked, stored and read back; a second difference fails the transfer with
result 9; with every block stored the bank is stored. -/
def execBlockStore (tagOk flashOk : Bool) (s : State) : Res :=
  match s.fw.complete with
  | [] => .next s
  | (n, rec) :: rest =>
    s.when (s.transferring && decide (s.token ≠ 0) && s.flashOn)
      (let s := s.onFw fun f => { f with complete := rest }
       if !tagOk then s
       else if !flashOk then (s.setFld FLASH_XFER_header_result 9).abortTransfer
       else
         let s := s.programBlock s.inactiveBank n rec
         let fresh := !s.fw.stored.contains n
         let s := s.onFw fun f => { f with
           stored := if fresh then n :: f.stored else f.stored, idleRings := 0,
           forward := if fresh && f.nextNode != 0xFFFF then f.forward ++ [n] else f.forward }
         let s := s.setFld FLASH_XFER_blocks_stored s.fw.stored.length
         if s.fld FLASH_XFER_blocks_total ≤ s.fw.stored.length then
           (s.markBank s.inactiveBank 2 1 (headerDigest s.fw.header)).xferState 3
         else s)

/-- FW_TRANSFER_TIMEOUT (R451): 2^20 rings without a new block. -/
def execFwTransferTimeout (s : State) : Res :=
  s.when (s.transferring && decide (s.token ≠ 0) && decide (2 ^ 20 ≤ s.fw.idleRings)) s.abortTransfer

/-- A CHAIN packet of the holder to the next node (R450). -/
def State.chainPacket (s : State) (opId idx count : Nat) (payload : List Byte) : Packet :=
  { type := 0x0A, flags := 0, dstStand := 0, srcStand := 0, srcLimb := 0, target := 0, dstNode := s.fw.nextNode, dstEpoch := 0,
    srcNode := s.liveFld NI_NODE_node_id, srcEpoch := s.liveFld NI_NODE_node_epoch, srcRank := 0, group := 0, length := payload.length,
    knot := 0, knotOp := 0, knotValue := 0, remote := 0, opId, channel := 0, reserved := 0, inject := 0, pktIndex := idx,
    pktCount := count, deliverBy := 0, coll := 0, payload }

/-- Queue packets of the management class. -/
def State.sendMgmt (s : State) (io route : Nat) (ps : List Packet) : State :=
  s.onNi fun n => { n with txq := n.txq ++ ps.map fun pkt =>
    { io, stand := 16, index := 0, sched := false, mgmt := true, route, limb := 31, budget := 0, sent := false, since := s.rings, pkt } }

/-- CHAIN_FORWARD (R449, R450): the next header or block goes to the next node, once. -/
def execChainForward (s : State) : Res :=
  match s.fw.forward with
  | [] => .next s
  | n :: rest =>
    s.when (decide (s.fw.nextNode ≠ 0xFFFF) && decide (s.token ≠ 0) && s.flashOn)
      (let data := if n = 0xFFFFFFFF then s.bytes (bankAt s.inactiveBank) 8192 else s.bytes (blockAt s.inactiveBank n) recordBytes
       let count := if n = 0xFFFFFFFF then 2 else 17
       let ps := (List.range count).map fun i => s.chainPacket n i count ((data.drop (4096 * i)).take 4096)
       let s := (s.sendMgmt 0 s.fw.limbs ps).onFw fun f => { f with forward := rest }
       if n = 0xFFFFFFFF then s else s.count FLASH_XFER_blocks_forwarded 1)

/-! ### Activation (R452-R456) -/

/-- Raise the anti-rollback floor to an image's arb (R452): it never falls. -/
def State.raiseFloor (s : State) (arb : Nat) : State :=
  let f := max s.fuses.floor (min 63 arb)
  ({ s with fuses := { s.fuses with floor := f } }).setFld FLASH_STATUS_floor f

/-- The version and arb of a bank's header as stored. -/
def State.bankIdent (s : State) (b : Nat) : Nat × Nat := (ofLe (s.bytes (bankAt b + 12) 4), ofLe (s.bytes (bankAt b + 16) 4))

/-- Make a bank the active one in the journal, with the states of the active and the other bank (R454, R455, R458). -/
def State.activateBank (s : State) (b st other cause time : Nat) : State :=
  let r := s.journal
  let id := s.bankIdent b
  let r := { r with active := b, version := id.1, arb := id.2 }
  let r := if b = 0 then { r with state0 := st, state1 := other } else { r with state1 := st, state0 := other }
  (s.appendRecord r cause time).showJournal (s.appendRecord r cause time).journal

/-- FLASH_STATUS shows the running image. -/
def State.showImage (s : State) (version arb : Nat) : State :=
  (s.setFld FLASH_STATUS_active_version version).setFld FLASH_STATUS_active_arb arb

/-! ### Recovery (R459) -/

/-- RECOVERY_PIECE_SUBMIT (R459): ignored outside recovery. Header halves and blocks go through the checks of R443-R448; with
the last block stored the loaded bank is active. -/
def State.submitRecovery (s : State) (v : Word) (chk : HeaderCheck) (tagOk : Bool) : State :=
  if !s.flag FLASH_STATUS_recovery || !v.getLsbD 31 then s
  else
    let kind := bitsOf v.toNat 30 29
    let n := bitsOf v.toNat 9 0
    if kind = 0 then
      (s.onFw fun f => { f with half := some (s.bytes recBufAt 4096) }).setFld FLASH_REC_CTRL_rec_result 1
    else if kind = 1 then
      match s.fw.half with
      | none => s.setFld FLASH_REC_CTRL_rec_result 2
      | some a =>
        let h := a ++ s.bytes recBufAt 4096
        let r := headerResult h s.fuses.floor chk
        let s := (s.onFw fun f => { f with half := none }).setFld FLASH_REC_CTRL_rec_result r
        if r = 0 then ((s.storeHeader h).setFld FLASH_REC_CTRL_rec_state 2).setFld FLASH_REC_CTRL_rec_stored 0
        else if r = 9 then s.setFld FLASH_REC_CTRL_rec_state 5 else s
    else if kind = 2 then
      let total := bytesAt s.fw.header 20 4
      if s.fw.header = [] ∨ total ≤ n ∨ !tagOk then s
      else if !chk.flashOk then (s.setFld FLASH_REC_CTRL_rec_result 9).setFld FLASH_REC_CTRL_rec_state 5
      else
        let b := s.inactiveBank
        let s := s.programBlock b n (s.bytes recBufAt recordBytes)
        let s := s.onFw fun f => { f with stored := if f.stored.contains n then f.stored else n :: f.stored }
        let s := (s.setFld FLASH_REC_CTRL_rec_stored s.fw.stored.length).setFld FLASH_REC_CTRL_rec_state 3
        if total ≤ s.fw.stored.length then
          (s.activateBank b 3 (s.journal.stateOf (1 - b)) 5 0).setFld FLASH_REC_CTRL_rec_state 4
        else s
    else s

/-- RECOVERY_PIECE_SUBMIT. -/
def execRecoveryPieceSubmit (v : Word) (chk : HeaderCheck) (tagOk : Bool) (s : State) : Res :=
  .next (s.submitRecovery v chk tagOk)

/-! ### Boot (R458) and loss of VIN (R439, R440, R457) -/

/-- Whether Taproot finds a bank bootable (R458). -/
def State.bootable (s : State) (b : Nat) (c : BankCheck) (r : JRecord) : Bool :=
  let arb := if b = r.active then r.arb else (s.bankIdent b).2
  r.stateOf b == 3 && c.header && decide (s.fuses.floor ≤ arb) && c.support && (c.imageA || c.imageB)

/-- The bank Taproot boots (R458): the active bank with both images, the other with both, the active with one, the other with
one. -/
def State.chooseBank (s : State) (c0 c1 : BankCheck) : Option Nat :=
  match s.newestRecord with
  | none => none
  | some r =>
    let c := fun (b : Nat) => if b = 0 then c0 else c1
    let ok := fun (b : Nat) => s.bootable b (c b) r
    let both := fun (b : Nat) => (c b).imageA && (c b).imageB
    let o := 1 - r.active
    if ok r.active && both r.active then some r.active
    else if ok o && both o then some o
    else if ok r.active then some r.active
    else if ok o then some o
    else none

/-- What a block record being stored reads as when power fails in its erase (R440): free bytes. -/
def State.tearFlash (s : State) : State :=
  match s.fw.complete with
  | (n, _) :: _ =>
    if s.transferring then
      (s.store (blockAt s.inactiveBank n) ((List.range 0x11000).map fun i => Config.torn s.free i)).drawn
    else s
  | [] => s

end Sys2Proof.Machine
end

