-- ==== Sys2Proof/Machine/Hbm.lean ====
section
/-! DEFINITION. HBM (07_memory.md): where an address lies, translation, encryption by key slot, error correction, sparing,
regions, granule fill, the PF0 and VF windows onto it, and the commands of this chapter. -/

namespace Sys2Proof.Machine

/-- Bytes of an HBM group (R186). -/
def groupBytes : Nat := 0x2400000000

/-- The HBM group of a granule. -/
def granuleGroup (g : Nat) : Nat := g / 144

/-- The stack and the pseudo-channel of a physical address (R186). -/
def hbmPlace (a : Nat) : Nat × Nat :=
  let g := a / groupBytes
  let u := (a % groupBytes) / 256
  (3 * g + u % 3, (u / 3) % 64)

/-- A line's row: its stack, and a row id that carries the pseudo-channel above bit 32 (R204, log entry 17). -/
def hbmRow (line : Nat) : Nat × Nat :=
  let p := hbmPlace (line * 64)
  (p.1, p.2 * 2 ^ 32 + Config.rowOf line)

/-- The key in a key slot; 0 is none (R199). -/
def State.slotKey (s : State) (k : Nat) : Nat := s.keys.slots.get 0 k

/-- Whether a word of HBM_REGION covers a granule. -/
def regionCovers (w : Word) (g : Nat) : Bool :=
  w.getLsbD 63 && decide (bitsOf w.toNat 9 0 ≤ g) && decide (g ≤ bitsOf w.toNat 25 16)

/-- The 64 regions of the stands. -/
def allRegions : List (Nat × Nat) := (List.range 16).flatMap fun st => (List.range 4).map fun r => (st, r)

/-- The stand whose region in force covers a granule (R190). -/
def State.granuleStand (s : State) (g : Nat) : Option Nat :=
  (allRegions.find? fun p => regionCovers (s.liveRd (HBM_REGION p.1 p.2)) g).map (·.1)

/-- The committed word of a region whose granules are not all filled; zero when none waits. -/
def State.regionTarget (s : State) (st r : Nat) : Word := s.hbm.target.get 0#64 (4 * st + r)

/-- The words that place granules in a region (R184): as written, in force, and committed with granules still to be filled (log
entry 78). -/
def State.regionWords (s : State) (st r : Nat) : List Word :=
  [s.rd (HBM_REGION st r), s.liveRd (HBM_REGION st r), s.regionTarget st r]

/-- Whether a granule waits for or is in fill: it is not addressable (R207). -/
def State.granuleFilling (s : State) (g : Nat) : Bool := (s.hbm.waiting ++ s.hbm.filling).any fun e => e.1 == g

/-- Whether a granule is out of the owner's reach (R184, R207): it lies in a stand region from the accepted write until the guard band that
commits its removal, or it is in fill. -/
def State.granuleTaken (s : State) (g : Nat) : Bool :=
  (allRegions.any fun p => (s.regionWords p.1 p.2).any fun w => regionCovers w g) || s.granuleFilling g

/-- Whether the stacks of an HBM group work: clocked and not in self-refresh (R55, R197). -/
def State.hbmOn (s : State) (g : Nat) : Bool :=
  s.powered && bitOf s.gates (8 + g) && bitsOf (s.fld HBM_STATUS_self_refresh) (3 * g + 2) (3 * g) == 0

/-- The dump granule (R209). -/
def State.isDumpGranule (s : State) (g : Nat) : Bool := s.flag HBM_RESERVE_valid && s.fld HBM_RESERVE_granule == g

/-- The key slot a physical address uses (R198): that of the stand whose region it lies in, otherwise 16. -/
def State.keySlotAt (s : State) (a : Nat) : Nat := (s.granuleStand (a / 2 ^ 30)).getD 16

/-- The key a physical address is read and written under. -/
def State.keyAt (s : State) (a : Nat) : Nat := s.slotKey (s.keySlotAt a)

/-- A stand-relative address (R190): its physical address, or none when out of bounds. -/
def State.translate (s : State) (st a : Nat) : Option Nat :=
  let w := s.liveRd (HBM_REGION st (bitsOf a 41 40))
  let base := bitsOf w.toNat 9 0
  let limit := bitsOf w.toNat 25 16
  let f := bitsOf a 39 0
  if a < 2 ^ 42 ∧ w.getLsbD 63 ∧ base ≤ limit ∧ f < (limit - base + 1) * 2 ^ 30 then some (base * 2 ^ 30 + f) else none

/-- Whether `n` bytes at a stand-relative address lie in bounds. -/
def State.inBounds (s : State) (st a n : Nat) : Bool :=
  (s.translate st a).isSome && (n == 0 || (s.translate st (a + n - 1)).isSome && bitsOf a 41 40 == bitsOf (a + n - 1) 41 40)

/-- The stand-relative address of a physical address in a stand's region. -/
def State.relative (s : State) (st a : Nat) : Nat :=
  match (List.range 4).find? fun r => regionCovers (s.liveRd (HBM_REGION st r)) (a / 2 ^ 30) with
  | some r => r * 2 ^ 40 + (a - s.liveFld (HBM_REGION_base st r) * 2 ^ 30)
  | none => 0

/-- What an unlisted line holds: clean, under the key its granule was last filled with. -/
def State.lineDefault (s : State) (line : Nat) : Line := { key := s.hbm.fillKey.get 0 (line / 2 ^ 24), err := .clean }

/-- A line. -/
def State.line (s : State) (line : Nat) : Line := s.lines.get (s.lineDefault line) line

/-- Set a line. -/
def State.setLine (s : State) (line : Nat) (x : Line) : State := { s with lines := s.lines.set (s.lineDefault line) line x }

/-- An upset met by a line: a second wrong symbol makes it uncorrectable (R201). -/
def joinErr : LineErr → LineErr → LineErr
  | .clean, e => e
  | e, .clean => e
  | .single a, .single b => if a = b then .single a else .uncorrectable
  | _, _ => .uncorrectable

/-- Apply the upsets that came to lines before an access. -/
def State.upset (s : State) (ups : List (Nat × LineErr)) : State :=
  s.forEach ups fun u s => let l := s.line u.1; s.setLine u.1 { l with err := joinErr l.err u.2 }

/-- Whether a bank has given all its spare rows (R204). -/
def State.bankExhausted (s : State) (row : Nat × Nat) : Bool :=
  decide (Config.bankSpares row.1 (Config.bankOf row.2) ≤ s.hbm.spared.countP fun r => r.1 == row.1 && Config.bankOf r.2 == Config.bankOf row.2)
    || s.fld (HBM_SPARE_rows_left row.1) == 0

/-- Start sparing a line's row (R204): a spare row is taken unless its bank has none left. A row whose copy runs is served from the old row and takes
no second spare; a spare row that gives errors in its turn is spared again, its count of corrected reads starting anew (log entry 17). -/
def State.spareRow (s : State) (row : Nat × Nat) : State :=
  if s.hbm.copying.contains row then s
  else if s.bankExhausted row then s.setFlag HBM_EVENT_spare_exhausted true
  else
    let s := s.onHbm fun h => { h with spared := row :: h.spared, copying := row :: h.copying, rowHits := h.rowHits.filter fun e => e.1 != row }
    (s.count (HBM_SPARE_rows_spared row.1) 1).setFld (HBM_SPARE_rows_left row.1) (s.fld (HBM_SPARE_rows_left row.1) - 1)

/-- Mark a pseudo-channel for replacement where R205 says so: more than 16 spared rows, or uncorrectable reads in more than 4 rows. -/
def State.markChannel (s : State) (row : Nat × Nat) : State :=
  let same := fun (r : Nat × Nat) => r.1 == row.1 && r.2 / 2 ^ 32 == row.2 / 2 ^ 32
  if decide (16 < (s.hbm.spared.eraseDups).countP same) || decide (4 < s.hbm.badRows.countP same) then
    if s.flag (HBM_SPARE_pc_used row.1) || s.flag (HBM_SPARE_pc_pending row.1) then s
    else (s.setFlag (HBM_SPARE_pc_pending row.1) true).setFld (HBM_SPARE_pc_failed row.1) (row.2 / 2 ^ 32)
  else s

/-- Record a corrected read of a line (R201, R204). -/
def State.corrected (s : State) (line symbol : Nat) : State :=
  let row := hbmRow line
  let s := (s.count (HBM_ECC_COUNT_corrected row.1) 1).setFlag HBM_EVENT_corrected true
  let s := ((s.setFlag HBM_ECC_LAST_uncorr false).setFld HBM_ECC_LAST_symbol symbol).setFld HBM_ECC_LAST_line_addr line
  let hits := ((s.hbm.rowHits.find? fun e => e.1 == row).map (·.2)).getD 0 + 1
  let s := s.onHbm fun h => { h with rowHits := (row, hits) :: h.rowHits.filter fun e => e.1 != row }
  if max 1 (s.fld HBM_CFG_row_thresh) ≤ hits then (s.spareRow row).markChannel row else s

/-- Record an uncorrectable read of a line (R202, R204), and tell the owner and the stand whose region holds it. -/
def State.uncorrected (s : State) (line : Nat) : State :=
  let row := hbmRow line
  let s := (s.count (HBM_ECC_COUNT_uncorrectable row.1) 1).setFlag HBM_EVENT_uncorrectable true
  let s := ((s.setFlag HBM_ECC_LAST_uncorr true).setFld HBM_ECC_LAST_symbol 0).setFld HBM_ECC_LAST_line_addr line
  let s := s.onHbm fun h => { h with badRows := if h.badRows.contains row then h.badRows else row :: h.badRows }
  let s := (s.spareRow row).markChannel row
  let data := evData [(8, 1, row.1), (16, 8, line * 64)]
  match s.granuleStand (line / 2 ^ 24) with
  | some st => s.eventBoth 0x0040 3 st data (evData [(8, 1, row.1), (16, 8, s.relative st (line * 64))])
  | none => s.eventOwner 0x0040 3 0xFF data

/-- Read one line under a key (R198-R202): its 64 bytes, whether it is uncorrectable (its bytes are then zeros here; each
path says what the reader sees), and the state with the error counted. -/
def State.readLine (s : State) (key line : Nat) : List Byte × Bool × State :=
  let l := s.line line
  let s := s.portBytes (38 + (hbmPlace (line * 64)).1) 64
  let raw := s.bytes (line * 64) 64
  let plain := if l.key = key then raw
    else (List.range 64).map fun i => Config.garble (raw.getD i 0#8) l.key key (line * 64 + i)
  match l.err with
  | .clean => (plain, false, s)
  | .single sym => (plain, false, s.corrected line sym)
  | .uncorrectable => (List.replicate 64 0#8, true, s.uncorrected line)

/-- Read lines `line`, `line + 1`, …: the bytes, whether any was uncorrectable, the state. -/
def State.readLines : Nat → State → Nat → Nat → List Byte × Bool × State
  | 0, s, _, _ => ([], false, s)
  | n + 1, s, key, line =>
    let (b, bad, s) := s.readLine key line
    let (bs, bads, s) := State.readLines n s key (line + 1)
    (b ++ bs, bad || bads, s)

/-- Lines touched by `n` bytes from `a`. -/
def linesOf (a n : Nat) : Nat := if n = 0 then 0 else (a + n - 1) / 64 - a / 64 + 1

/-- Read `n` bytes at a physical address. -/
def State.hbmRead (s : State) (key a n : Nat) : List Byte × Bool × State :=
  let (bs, bad, s) := State.readLines (linesOf a n) s key (a / 64)
  ((bs.drop (a % 64)).take n, bad, s)

/-- Write one line: a whole line replaces its stored form; a part is merged by the controller (R512). The flag says that
the merge met an uncorrectable line, which then stays as it is. -/
def State.writeLine (s : State) (key line o : Nat) (bs : List Byte) : Bool × State :=
  let s := s.portBytes (50 + (hbmPlace (line * 64)).1) 64
  if bs.length = 64 then (false, (s.store (line * 64) bs).setLine line { key, err := .clean })
  else
    let (old, bad, s) := s.readLine key line
    if bad then (true, s)
    else (false, (s.store (line * 64) (splice old o bs)).setLine line { key, err := .clean })

/-- Write bytes line by line. -/
def State.writeLines : Nat → State → Nat → Nat → List Byte → Bool × State
  | 0, s, _, _, _ => (false, s)
  | n + 1, s, key, a, bs =>
    let o := a % 64
    let (bad, s) := s.writeLine key (a / 64) o (bs.take (64 - o))
    let (bads, s) := State.writeLines n s key (a - o + 64) (bs.drop (64 - o))
    (bad || bads, s)

/-- Write bytes at a physical address. -/
def State.hbmWrite (s : State) (key a : Nat) (bs : List Byte) : Bool × State :=
  State.writeLines (linesOf a bs.length) s key a bs

/-- A stand's access by stand-relative address: the bytes, whether poisoned; none when out of bounds. -/
def State.standRead (s : State) (st a n : Nat) : Option (List Byte × Bool × State) :=
  if s.inBounds st a n then (s.translate st a).map fun p => s.hbmRead (s.keyAt p) p n else none

/-- A stand's write by stand-relative address. -/
def State.standWrite (s : State) (st a : Nat) (bs : List Byte) : Option (Bool × State) :=
  if s.inBounds st a bs.length then (s.translate st a).map fun p => s.hbmWrite (s.keyAt p) p bs else none

/-- The stand fault counter (R193, R319). -/
def State.standFault (s : State) (st cause : Nat) : State :=
  ((s.count (STAND_FAULT_fault_count st) 1).setFld (STAND_FAULT_last_cause st) cause).standCtr st 15 1

/-! ### Regions and fill -/

/-- What a region write would set. -/
def regionWord (v : Word) : Word :=
  putBits (putBits (putBits 0#64 63 63 (bitsOf v.toNat 63 63)) 25 16 (bitsOf v.toNat 25 16)) 9 0 (bitsOf v.toNat 9 0)

/-- Whether R191 or R433 rejects a write to HBM_REGION of stand `st`, region `r`. A region is another valid one by the words of R184: as written, in
force, or committed with granules to fill. -/
def State.regionRejected (s : State) (st r : Nat) (v : Word) : Bool :=
  let base := bitsOf v.toNat 9 0
  let limit := bitsOf v.toNat 25 16
  decide (limit < base) || decide (575 < limit) ||
    (v.getLsbD 63 &&
      ((allRegions.any fun p => p != (st, r) && (s.regionWords p.1 p.2).any fun w =>
          w.getLsbD 63 && decide (bitsOf w.toNat 9 0 ≤ limit) && decide (base ≤ bitsOf w.toNat 25 16))
        || (s.flag HBM_RESERVE_valid && decide (base ≤ s.fld HBM_RESERVE_granule) && decide (s.fld HBM_RESERVE_granule ≤ limit))
        || s.hbm.fenced.any fun g => decide (base ≤ g * 144 + 143) && decide (g * 144 ≤ limit)))

/-- Whether a stand is quiescent (R313). -/
def State.quiescent (s : State) (st : Nat) : Bool :=
  ((List.range 4).all fun q => s.fld (CQ_STATE_head st q) == s.fld (CQ_STATE_tail_seen st q))
    && s.fld (CQ_TRIG_STATE_head st) == s.fld (CQ_TRIG_STATE_tail_seen st)
    && !(s.cmds.any fun c => c.stand == st && c.started.isSome) && !(s.ni.trigs.any fun t => t.stand == st)

/-- Whether a region write changes the base of a valid region of an ACTIVE stand that is not quiescent: it is not carried out (R207; log entry 78). -/
def State.regionBusy (s : State) (st r : Nat) (v : Word) : Bool :=
  v.getLsbD 63 && s.flag (HBM_REGION_valid st r) && bitsOf v.toNat 9 0 != s.fld (HBM_REGION_base st r) && s.standState st == 2 && !s.quiescent st

/-- A write to HBM_REGION, accepted or ignored (R191, R207). -/
def State.writeRegion (s : State) (st r : Nat) (v : Word) : State :=
  if s.regionRejected st r v then s.setFlag HBM_EVENT_overlap_rejected true
  else if s.regionBusy st r v then s
  else
    let p := s.fld (HBM_REGION_pending st r)
    (s.wr (HBM_REGION st r) (regionWord v)).setFld (HBM_REGION_pending st r) p

/-- Granules waiting for or in fill. -/
def State.fillCounts (s : State) : State :=
  let groups := (s.hbm.filling.map fun e => granuleGroup e.1).eraseDups
  (s.setFld HBM_FILL_STATUS_filling (maskOfList groups)).setFld HBM_FILL_STATUS_pending
    (s.hbm.waiting.length + s.hbm.filling.length)

/-- The word of a region last committed: in force, or waiting for its granules to be filled. -/
def State.regionCommitted (s : State) (st r : Nat) : Word :=
  if s.flag (HBM_REGION_pending st r) then s.regionTarget st r else regionWord (s.liveRd (HBM_REGION st r))

/-- A committed region word whose granules are all filled is in force. -/
def State.regionInForce (s : State) (st r : Nat) (w : Word) : State :=
  ((s.setLive (HBM_REGION st r) w).setFlag (HBM_REGION_pending st r) false).onHbm fun h => { h with target := h.target.set 0#64 (4 * st + r) 0#64 }

/-- What stays in force of a region while the granules that enter it are filled (R207): with its base kept, the part both words hold; with another
base, nothing (DEDUCED, log entry 78). -/
def regionMeanwhile (old new : Word) : Word :=
  if old.getLsbD 63 && bitsOf old.toNat 9 0 == bitsOf new.toNat 9 0 then
    putBits new 25 16 (min (bitsOf old.toNat 25 16) (bitsOf new.toNat 25 16))
  else putBits old 63 63 0

/-- Whether granules of a region word wait for or are in fill for a stand. -/
def State.wordFilling (s : State) (st : Nat) (w : Word) : Bool :=
  (s.hbm.waiting ++ s.hbm.filling).any fun e => e.2 == st && regionCovers w e.1

/-- Commit one region at step 2 of a guard band (R191, R206, R207). Granules the word withdraws leave the fill queue, a fill under way going on; those that
enter the region, held by neither word, are queued for fill while zero_on_assign is 1. The new word is in force at once where none of its
granules has still to be filled, and otherwise what `regionMeanwhile` says. -/
def State.commitRegion (s : State) (st r : Nat) : State :=
  let new := regionWord (s.rd (HBM_REGION st r))
  let old := s.regionCommitted st r
  if new = old then s
  else
    let s := s.onHbm fun h => { h with waiting := h.waiting.filter fun e => !(e.2 == st && regionCovers old e.1 && !regionCovers new e.1) }
    let enters := (List.range 576).filter fun g => regionCovers new g && !regionCovers old g && !(s.hbm.waiting ++ s.hbm.filling).contains (g, st)
    let s := if s.flag HBM_CFG_zero_on_assign then
        s.onHbm fun h => { h with waiting := h.waiting ++ enters.map fun g => (g, st) }
      else s
    (if s.wordFilling st new then
      (((s.setLive (HBM_REGION st r) (regionMeanwhile (s.liveRd (HBM_REGION st r)) new)).setFlag (HBM_REGION_pending st r) true).onHbm fun h =>
        { h with target := h.target.set 0#64 (4 * st + r) new })
    else s.regionInForce st r new).fillCounts

/-- Every line of a granule becomes zeros under a key (R206, R208). -/
def State.zeroGranule (s : State) (g key : Nat) : State :=
  let s := s.zeroize (g * 2 ^ 30) (2 ^ 30)
  { (s.onHbm fun h => { h with fillKey := h.fillKey.set 0 g key }) with
    lines := s.lines.clear (g * 2 ^ 24) ((g + 1) * 2 ^ 24) }

/-- HBM_REGION_WRITE (R191). -/
def execHbmRegionWrite (st r : Nat) (v : Word) (s : State) : Res :=
  s.when (decide (st < 16) && decide (r < 4)) (s.writeRegion st r v)

/-- HBM_RESERVE_WRITE (R209): a write with valid 1 names a granule, and is ignored when the granule lies in a region or a fenced group; one above 575 leaves
the register unchanged. A write with valid 0 is accepted whatever its granule field holds. -/
def State.writeReserve (s : State) (v : Word) : State :=
  let g := bitsOf v.toNat 9 0
  if v.getLsbD 63 && decide (575 < g) then s
  else if v.getLsbD 63 && (s.granuleTaken g || s.hbm.fenced.contains (granuleGroup g)) then
    s.setFlag HBM_EVENT_overlap_rejected true
  else s.wr HBM_RESERVE (putBits (putBits 0#64 63 63 (bit (v.getLsbD 63))) 9 0 g)

/-- HBM_RESERVE_WRITE. -/
def execHbmReserveWrite (v : Word) (s : State) : Res := .next (s.writeReserve v)

/-- GRANULE_FILL_START (R206): a waiting granule starts its fill when its group has none running and its stacks work. -/
def execGranuleFillStart (g : Nat) (s : State) : Res :=
  match s.hbm.waiting.find? fun e => e.1 == g with
  | none => .next s
  | some e =>
    s.when (s.hbmOn (granuleGroup g) && !(s.hbm.filling.any fun f => granuleGroup f.1 == granuleGroup g))
      ((s.onHbm fun h => { h with waiting := h.waiting.erase e, filling := h.filling ++ [e] }).fillCounts)

/-- GRANULE_FILL_DONE (R206): the granule holds zeros under the entering stand's key. -/
def execGranuleFillDone (g : Nat) (s : State) : Res :=
  match s.hbm.filling.find? fun e => e.1 == g with
  | none => .next s
  | some e =>
    s.when (s.hbmOn (granuleGroup g))
      (((s.zeroGranule g (s.slotKey e.2)).onHbm fun h => { h with filling := h.filling.erase e }).fillCounts)

/-- Whether a region's granules are all filled and it waits for its guard band (R207). -/
def State.regionDue (s : State) (st r : Nat) : Bool :=
  s.flag (HBM_REGION_pending st r) && !s.wordFilling st (s.regionTarget st r)

/-- REGION_BECOMES_VALID (R207): in step 2 of the guard band after its last granule is filled, the region as committed is in force. -/
def execRegionBecomesValid (st r : Nat) (s : State) : Res :=
  s.when (decide (st < 16) && decide (r < 4) && s.inStep2 0 && s.regionDue st r) (s.regionInForce st r (s.regionTarget st r))

/-- The regions that are due in this guard band. -/
def State.regionsDue (s : State) : State :=
  s.forEach allRegions fun p s => if s.regionDue p.1 p.2 then s.regionInForce p.1 p.2 (s.regionTarget p.1 p.2) else s

/-- PATROL_SCRUB_LINE (R203): the line is read; a corrected line is written back, an uncorrectable one stays. Line 0 starts a
new scrub period (log entry 18). Nothing happens while scrub_hours is 0 or the stacks do not work. -/
def execPatrolScrubLine (line : Nat) (found : LineErr) (s : State) : Res :=
  s.when (decide (line < hbmTop / 64) && decide (s.fld HBM_CFG_scrub_hours ≠ 0) && s.hbmOn (line * 64 / groupBytes))
    (let s := if line = 0 then s.onHbm fun h => { h with rowHits := [] } else s
     let s := s.upset [(line, found)]
     match (s.line line).err with
     | .clean => s
     | .single sym => let s := s.corrected line sym; s.setLine line { s.line line with err := .clean }
     | .uncorrectable => s.uncorrected line)

/-- ROW_COPY_DONE (R204): the row's corrected data stand in the spare row; its uncorrectable lines stay uncorrectable. -/
def execRowCopyDone (stack row : Nat) (s : State) : Res :=
  s.when (s.hbm.copying.contains (stack, row))
    (let s := s.onHbm fun h => { h with copying := h.copying.erase (stack, row) }
     s.forEach (s.lines.map (·.1)) fun n s =>
       if hbmRow n = (stack, row) then
         match (s.line n).err with
         | .single _ => s.setLine n { s.line n with err := .clean }
         | _ => s
       else s)

end Sys2Proof.Machine
end

