-- ==== Sys2Proof/Machine/Twig.lean ====
section
/-! DEFINITION. Twigs and their leaves (03_leaves_and_twigs.md): slot maps, epochs and the router's check, remap, restore,
leaf reset, zeroization, bough-buffer regions, and leaf faults (R389). -/

namespace Sys2Proof.Machine

/-- The slot-map byte of slot `i` of twig `t` (TWIG_SLOT_MAP0-3). -/
def State.slotByte (s : State) (t i : Nat) : Nat := byteOf (s.rd (TWIG_SLOT_MAP t (i / 8))) (i % 8)

/-- The physical position serving a slot, if any. -/
def State.physOf (s : State) (t i : Nat) : Option Nat :=
  if 128 ≤ s.slotByte t i then some (s.slotByte t i % 64) else none

/-- A slot's epoch (TWIG_EPOCH0-3). -/
def State.slotEpoch (s : State) (t i : Nat) : Nat := byteOf (s.rd (TWIG_EPOCH t (i / 8))) (i % 8)

/-- Set a slot's epoch. -/
def State.setSlotEpoch (s : State) (t i e : Nat) : State :=
  s.wr (TWIG_EPOCH t (i / 8)) (putByte (s.rd (TWIG_EPOCH t (i / 8))) (i % 8) e)

/-- Map a slot to a position, or to none. -/
def State.setSlot (s : State) (t i : Nat) (p : Option Nat) : State :=
  s.wr (TWIG_SLOT_MAP t (i / 8))
    (putByte (s.rd (TWIG_SLOT_MAP t (i / 8))) (i % 8) (match p with | some p => 128 + p % 64 | none => 0))

/-- The slot a position serves, if any. -/
def State.slotOf (s : State) (t p : Nat) : Option Nat := (List.range 32).find? fun i => s.physOf t i == some p

/-- The spare of a twig. -/
def State.spareOf (s : State) (t : Nat) : Option Nat :=
  if s.fld (TWIG_STATUS_spare_phys t) = 0x3F then none else some (s.fld (TWIG_STATUS_spare_phys t))

/-- Where a logical leaf lies: its twig and the physical position serving it (R19, R97). -/
def State.leafPlace (s : State) (n : Nat) : Option (Nat × Nat) := (s.physOf (n / 32) (n % 32)).map fun p => (n / 32, p)

/-- Put a position out of service, or back (TWIG_OOS, oos_count). -/
def State.setOos (s : State) (t p : Nat) (out : Bool) : State :=
  let m := s.fld (TWIG_OOS_oos_mask t)
  let m := if out then m ||| (1 <<< p) else m &&& (2 ^ 33 - 1 - (1 <<< p))
  (s.setFld (TWIG_OOS_oos_mask t) m).setFld (TWIG_STATUS_oos_count t) (popcount 33 m)

/-- Whether a position is out of service. -/
def State.isOos (s : State) (t p : Nat) : Bool := bitOf (s.fld (TWIG_OOS_oos_mask t)) p

/-- TWIG_STATUS.degraded follows the slot map: set while a slot is unserved (R89). -/
def State.refreshDegraded (s : State) (t : Nat) : State :=
  s.setFlag (TWIG_STATUS_degraded t) ((List.range 32).any fun i => (s.physOf t i).isNone)

/-- The effect of a leaf reset (R84): everything of the leaf but its SRAM, its stamp and its clock enable. -/
def Leaf.cleared (l : Leaf) : Leaf := { stamp := l.stamp, clock := l.clock, failed := l.failed }

/-- Reset a physical leaf (R84). -/
def State.resetLeaf (s : State) (t p : Nat) : State := s.onLeaf t p Leaf.cleared

/-- Zeroize a physical leaf: SRAM and everything a leaf reset clears (R95). -/
def State.zeroizeLeaf (s : State) (t p : Nat) : State := (s.resetLeaf t p).zeroize (sramAt t p) (2 ^ 18)

/-- Zeroize the 33 leaves of a twig (R95). -/
def State.zeroizeTwig (s : State) (t : Nat) : State := s.forEach (List.range 33) fun p s => s.zeroizeLeaf t p

/-- The next epoch of R87: 1 to 255, skipping the stamps of out-of-service leaves. -/
def nextEpoch : Nat → List Nat → Nat → Nat
  | 0, _, e => e
  | fuel + 1, skip, e =>
    let n := if 255 ≤ e then 1 else e + 1
    if skip.contains n then nextEpoch fuel skip n else n

/-- The stamps of a twig's out-of-service leaves. -/
def State.oosStamps (s : State) (t : Nat) : List Nat :=
  ((List.range 33).filter fun p => s.isOos t p).map fun p => (s.leaf t p).stamp

/-- Carry out a remap (R88), or fence a dead slot without a spare (R89). -/
def State.remapSlot (s : State) (t i : Nat) (dead : Bool) : State :=
  let retire := fun (s : State) => match s.physOf t i with
    | some p => (s.setOos t p true).onLeaf t p fun l => { l with clock := false }
    | none => s
  match s.spareOf t with
  | some sp =>
    let s := retire s
    let e := nextEpoch 256 (s.oosStamps t) (s.slotEpoch t i)
    let s := ((s.setSlot t i (some sp)).setSlotEpoch t i e).onLeaf t sp fun l => { l with stamp := e, clock := true }
    ((s.setFld (TWIG_STATUS_spare_phys t) 0x3F).refreshDegraded t).setFld TWIG_REMAP_result 1
  | none =>
    if dead then
      ((((retire s).setSlot t i none).setSlotEpoch t i 0).setFlag (TWIG_STATUS_degraded t) true).setFld TWIG_REMAP_result 2
    else s.setFld TWIG_REMAP_result 2

/-- A write to TWIG_REMAP (R88-R90): ignored while busy; otherwise the request waits, or is refused with its result. -/
def State.writeTwigRemap (s : State) (v : Word) : State :=
  let t := bitsOf v.toNat 15 8
  let x := bitsOf v.toNat 5 0
  if s.flag TWIG_REMAP_busy then s
  else if !v.getLsbD 16 then
    if decide (144 ≤ t) || decide (32 ≤ x) then s.setFld TWIG_REMAP_result 3
    else
      let dead := bitOf (s.fld (TWIG_LEAF_FAULT_slot_fault t)) x
      if (s.spareOf t).isSome || dead then { s.setFlag TWIG_REMAP_busy true with remap := some (t, x, dead, s.nextBand) }
      else s.setFld TWIG_REMAP_result 2
  else if decide (144 ≤ t) || decide (33 ≤ x) || !s.isOos t x then s.setFld TWIG_REMAP_result 3
  else if (s.spareOf t).isSome then s.setFld TWIG_REMAP_result 4
  else { (s.setFlag TWIG_REMAP_busy true).setFlag (TWIG_STATUS_restore_running t) true with restore := some (t, x, none) }

/-- Whether a CSR write from an origin takes effect (R304, R324, R486): a tenant reaches no CSR, PF0 in D3hot changes nothing, and of the
Heartwoods only the token holder writes. -/
def State.mayWrite (s : State) (o : Origin) : Bool :=
  match o with
  | .pf0 => !s.pcie.d3
  | .i3c | .csrWrite => true
  | .heartwood .a => s.token == 1
  | .heartwood .b => s.token == 2
  | .vf _ => false

/-- A CSR write from an origin: carried out, or discarded; a Heartwood without the token counts it (R324). -/
def State.csrFrom (s : State) (o : Origin) (f : State → State) : State :=
  if s.mayWrite o then f s
  else match o with
    | .heartwood .a => s.onHw fun h => { h with discardA := h.discardA + 1 }
    | .heartwood .b => s.onHw fun h => { h with discardB := h.discardB + 1 }
    | _ => s

/-- TWIG_REMAP_WRITE (R88, R89): op 0. -/
def execTwigRemapWrite (o : Origin) (v : Word) (s : State) : Res :=
  s.when (!v.getLsbD 16) (s.csrFrom o fun s => s.writeTwigRemap v)

/-- TWIG_RESTORE_WRITE (R90): op 1. -/
def execTwigRestoreWrite (o : Origin) (v : Word) (s : State) : Res :=
  s.when (v.getLsbD 16) (s.csrFrom o fun s => s.writeTwigRemap v)

/-- The waiting remap is carried out (R88, R89); the owner is told by REMAP_DONE. -/
def State.remapNow (s : State) : State :=
  match s.remap with
  | none => s
  | some (t, i, dead, _) =>
    let s := ({ s with remap := none }.remapSlot t i dead).setFlag TWIG_REMAP_busy false
    s.eventOwner 0x0031 1 0xFF (evData [(8, 1, t), (9, 1, i), (10, 1, s.fld TWIG_REMAP_result)])

/-- Whether the waiting remap is due in the guard band under way. -/
def State.remapDue (s : State) : Bool := match s.remap with | some (_, _, _, r) => s.inStep2 r | none => false

/-- REMAP_APPLY (R88, R89): the waiting remap, in step 2 of the guard band after its request. -/
def execRemapApply (s : State) : Res := s.when s.remapDue s.remapNow

/-- RESTORE_BIST_DONE (R90): a position that passes waits for the next guard band; one that fails stays out of service. -/
def execRestoreBistDone (pass : Bool) (s : State) : Res :=
  match s.restore with
  | some (t, p, none) =>
    let s := s.setFlag (TWIG_STATUS_restore_running t) false
    .next (if pass then { s with restore := some (t, p, some s.nextBand) }
      else ({ s with restore := none }.setFlag TWIG_REMAP_busy false).setFld TWIG_REMAP_result 5)
  | _ => .next s

/-- The position whose BIST has passed is zeroized in the guard band and becomes the spare (R90). -/
def State.restoreNow (s : State) : State :=
  match s.restore with
  | some (t, p, some r) =>
    if s.inStep2 r then
      ((({ s with restore := none }.setFlag TWIG_REMAP_busy false).setOos t p false).setFld (TWIG_STATUS_spare_phys t) p).zeroizeLeaf t p
        |>.setFld TWIG_REMAP_result 1
    else s
  | _ => s

/-- A write to ID_LEAF_RESET (R425): ignored while busy; an invalid twig or slot is refused at once; ignored before bring-up
completes (R423). -/
def State.writeLeafReset (s : State) (v : Word) : State :=
  if s.flag ID_LEAF_RESET_busy || !s.flag ID_BOOT_done then s
  else if 144 ≤ bitsOf v.toNat 15 8 then s.setFld ID_LEAF_RESET_result 3
  else { s.setFlag ID_LEAF_RESET_busy true with leafRst := some (bitsOf v.toNat 15 8, bitsOf v.toNat 4 0, s.nextBand) }

/-- ID_LEAF_RESET_WRITE (R425). -/
def execIdLeafResetWrite (o : Origin) (v : Word) (s : State) : Res := .next (s.csrFrom o fun s => s.writeLeafReset v)

/-- Reset the leaf that serves a slot, if one does (R84). -/
def State.resetSlotLeaf (s : State) (t i : Nat) : State :=
  match s.physOf t i with
  | some p => s.resetLeaf t p
  | none => s

/-- The reset ID_LEAF_RESET asked for (R425): carried out where the twig is held by no stand or the slot's fault bit is set, else refused. -/
def State.leafResetNow (s : State) : State :=
  match s.leafRst with
  | some (t, i, r) =>
    if s.inStep2 r then
      let s := { s with leafRst := none }.setFlag ID_LEAF_RESET_busy false
      if (s.twigStand t).isNone || bitOf (s.fld (TWIG_LEAF_FAULT_slot_fault t)) i then (s.resetSlotLeaf t i).setFld ID_LEAF_RESET_result 1
      else s.setFld ID_LEAF_RESET_result 2
    else s
  | none => s

/-- LEAF_RESET (R84, R425): in step 2 of the guard band, of the slot ID_LEAF_RESET names; at any time of a leaf whose stand is RESETTING or whose
fault bit is set. -/
def execLeafReset (leaf : Nat) (s : State) : Res :=
  let t := leaf / 32
  let i := leaf % 32
  if (s.leafRst.map fun x => (x.1, x.2.1)) = some (t, i) then .next s.leafResetNow
  else
    s.when (decide (leaf < 4608) && (bitOf (s.fld (TWIG_LEAF_FAULT_slot_fault t)) i ||
      (match s.twigStand t with | some st => s.standState st == 3 | none => false))) (s.resetSlotLeaf t i)

/-- LEAF_PACKET_AT_ROUTER (R86): a packet whose position serves a slot with that epoch passes; any other is discarded, counted,
recorded and reported once per ring by STALE_LEAF (R391). -/
def execLeafPacketAtRouter (t p stamp : Nat) (s : State) : Res :=
  let passes := match s.slotOf t p with
    | some i => s.slotEpoch t i == stamp
    | none => false
  s.when (decide (t < 144) && decide (p < 33) && !passes)
    (let s := ((s.count (TWIG_STALE_stale_count t) 1).setFld (TWIG_STALE_last_phys t) p).setFld (TWIG_STALE_last_epoch t) stamp
     (s.twigEvent t 0x14 1 1).eventOnce 0x0023 2 0xFF
       (evData [(8, 1, t), (9, 1, p), (10, 1, stamp), (12, 4, s.fld (TWIG_STALE_stale_count t))]))

/-! ### Bough-buffer regions (R94, R96) -/

/-- Whether a TWIG_BBUF_REGION word covers a granule. -/
def bbufCovers (w : Word) (g : Nat) : Bool :=
  w.getLsbD 63 && decide (bitsOf w.toNat 5 0 ≤ g) && decide (g ≤ bitsOf w.toNat 13 8)

/-- What a write to TWIG_BBUF_REGION sets. -/
def bbufWord (v : Word) : Word :=
  putBits (putBits (putBits 0#64 63 63 (bitsOf v.toNat 63 63)) 13 8 (bitsOf v.toNat 13 8)) 5 0 (bitsOf v.toNat 5 0)

/-- A write to TWIG_BBUF_REGION (R94): ignored with limit below base or when it would overlap a valid region of the bough. R94 names overlap_rejected for
the overlap; that a write ignored for its limit sets it too follows the flag's own meaning, *A region write was ignored* (DEDUCED, log entry 76). -/
def State.writeBbufRegion (s : State) (b st : Nat) (v : Word) : State :=
  let lo := bitsOf v.toNat 5 0
  let hi := bitsOf v.toNat 13 8
  let clash := v.getLsbD 63 && (List.range 16).any fun x => x != st &&
    (List.range 64).any fun g => decide (lo ≤ g) && decide (g ≤ hi) && bbufCovers (s.rd (TWIG_BBUF_REGION b x)) g
  if decide (hi < lo) || clash then s.setFlag TWIG_BBUF_STATUS_overlap_rejected true
  else s.wr (TWIG_BBUF_REGION b st) (bbufWord v)

/-- The counts of granules awaiting zeroization. -/
def State.bbufCounts (s : State) : State :=
  let n := fun (b : Nat) => s.hbm.bbufDirty.countP fun e => e.1 == b
  (((s.setFld TWIG_BBUF_STATUS_pending_b0 (n 0)).setFld TWIG_BBUF_STATUS_pending_b1 (n 1)).setFld
    TWIG_BBUF_STATUS_pending_b2 (n 2)).setFld TWIG_BBUF_STATUS_pending_b3 (n 3)

/-- Whether a stand holds a granule under the word in force: in a valid region, or kept by one that waits (bit 62 of the word in force is the model's own
mark of that; log entry 77). -/
def bbufHolds (w : Word) (g : Nat) : Bool :=
  (w.getLsbD 63 || w.getLsbD 62) && decide (bitsOf w.toNat 5 0 ≤ g) && decide (g ≤ bitsOf w.toNat 13 8)

/-- The granules that leave a stand's region of a bough when what is written commits. -/
def State.bbufLeft (s : State) (b st : Nat) : List Nat :=
  (List.range 64).filter fun g => bbufHolds (s.liveRd (TWIG_BBUF_REGION b st)) g && !bbufCovers (s.rd (TWIG_BBUF_REGION b st)) g

/-- What is in force of a changed region that waits for a dirty granule: the region as it was when no granule leaves it; else none of it, its
remaining granules kept (DESIGN CHOICE, log entry 77). -/
def bbufKept (old new : Word) (left : List Nat) : Word :=
  if left = [] then old
  else
    let lo := max (bitsOf old.toNat 5 0) (bitsOf new.toNat 5 0)
    let hi := min (bitsOf old.toNat 13 8) (bitsOf new.toNat 13 8)
    if lo ≤ hi then putBits (putBits (putBits 0#64 62 62 1) 13 8 hi) 5 0 lo else 0#64

/-- Commit one bough-buffer region (R96): one that enters a granule still dirty waits. -/
def State.commitBbuf (s : State) (b st : Nat) (left : List Nat) : State :=
  let a := TWIG_BBUF_REGION b st
  let new := s.rd a
  let old := s.liveRd a
  if (List.range 64).any fun g => bbufCovers new g && !bbufHolds old g && s.hbm.bbufDirty.contains (b, g) then
    s.setLive a (bbufKept old new left)
  else s.setLive a new

/-- Commit the regions of a bough: first the granules that leave any region become dirty, then each region takes effect or waits (R94, R96). -/
def State.commitBbufs (s : State) (b : Nat) : State :=
  let left := (List.range 16).map fun st => (st, s.bbufLeft b st)
  let s := s.onHbm fun h => { h with bbufDirty := h.bbufDirty ++ (left.flatMap (·.2)).map fun g => (b, g) }
  s.forEach left fun e s => s.commitBbuf b e.1 e.2

/-- Each bough buffer zeroizes one dirty granule in a guard band (R96). -/
def State.bbufZeroize (s : State) : State :=
  (s.forEach (List.range 4) fun b s =>
    match s.hbm.bbufDirty.find? fun e => e.1 == b with
    | some e => (s.zeroize (bbufAt b + e.2 * 2 ^ 20) (2 ^ 20)).onHbm fun h => { h with bbufDirty := h.bbufDirty.erase e }
    | none => s).bbufCounts

/-- TWIG_BBUF_REGION_WRITE (R94). -/
def execTwigBbufRegionWrite (b st : Nat) (v : Word) (s : State) : Res :=
  s.when (decide (b < 4) && decide (st < 16)) (s.writeBbufRegion b st v)

/-! ### Leaf faults (R158, R389) -/

/-- Tell the owner, and the stand holding the twig, of a leaf fault. -/
def State.tellLeafFault (s : State) (t i : Nat) : State :=
  let d := evData [(8, 1, t), (9, 1, i)]
  match s.twigStand t with
  | some st => s.eventBoth 0x0030 3 st d d
  | none => s.eventOwner 0x0030 3 0xFF d

/-- Heartwood has written the request of a fault bit: it clears the bit. -/
def State.clearLeafFault (s : State) (t i : Nat) : State :=
  (s.setFld (TWIG_LEAF_FAULT_slot_fault t) (s.fld (TWIG_LEAF_FAULT_slot_fault t) &&& (2 ^ 32 - 1 - (1 <<< i)))).onHw
    fun h => { h with remapWait := h.remapWait.erase (t, i) }

/-- Heartwood handles one slot's fault bit (R389): LEAF_FAULT once; with auto_remap 1 the remap request is written as soon as
none is outstanding and the bit is then cleared. -/
def State.handleLeafFault (s : State) (t i : Nat) : State :=
  if !s.hwActs || !bitOf (s.fld (TWIG_LEAF_FAULT_slot_fault t)) i then s
  else
    let s := if s.hw.remapWait.contains (t, i) then s
      else (s.tellLeafFault t i).onHw fun h => { h with remapWait := (t, i) :: h.remapWait }
    if s.flag MBX_RED_CFG_auto_remap && !s.flag TWIG_REMAP_busy then
      (s.writeTwigRemap (BitVec.ofNat 64 (t * 256 + i))).clearLeafFault t i
    else s

/-- Heartwood handles every fault bit set. -/
def State.handleLeafFaults (s : State) : State :=
  s.forEach (List.range 144) fun t s =>
    if s.fld (TWIG_LEAF_FAULT_slot_fault t) = 0 then s
    else s.forEach (List.range 32) fun i s => s.handleLeafFault t i

/-- Set a slot's fault bit; a bit that was clear is a new fault to tell. -/
def State.setLeafFault (s : State) (t i : Nat) : State :=
  (if bitOf (s.fld (TWIG_LEAF_FAULT_slot_fault t)) i then s else s.clearLeafFault t i).setFld (TWIG_LEAF_FAULT_slot_fault t) (s.fld (TWIG_LEAF_FAULT_slot_fault t) ||| (1 <<< i))

/-- LEAF_FAULT_REPORT (R389): a leaf reports a hardware fault. -/
def execLeafFaultReport (leaf : Nat) (s : State) : Res :=
  s.when (decide (leaf < 4608)) ((s.setLeafFault (leaf / 32) (leaf % 32)).handleLeafFault (leaf / 32) (leaf % 32))

end Sys2Proof.Machine
end

