-- ==== Sys2Proof/Machine/Power.lean ====
section
/-! DEFINITION. Power (15_power_and_thermal.md): tiers, the voltage/frequency sequencer, the envelope, parking, the brake, the
thermal limits and the power states, with the clock gates of R55-R57. -/

namespace Sys2Proof.Machine

/-- Design power of a tier, in tenths of a watt (R398). -/
def designPower (tier : Nat) : Int := [24000, 18000, 13500, 9800, 7000].getD tier 7000
/-- Saving of a parked twig, in tenths of a watt (R398). -/
def parkSaving (tier : Nat) : Int := [135, 97, 69, 46, 29].getD tier 29
/-- Saving of a twig in the narrow window, in tenths of a watt (R398). -/
def narrowSaving (tier : Nat) : Int := [20, 15, 10, 7, 4].getD tier 4
/-- Twigs one upward step unparks (R401). -/
def unparkLimit (tier : Nat) : Nat := [44, 61, 86, 130, 144].getD tier 144

/-- Whether a stand's consent has effect (R131, R309). -/
def State.consents (s : State) (st : Nat) : Bool :=
  s.liveFlag (STAND_CFG_precision_consent_allowed st) && s.liveFlag (STAND_CFG_consent st)

/-- Whether a stand runs the narrow window (R131, R406). -/
def State.standNarrow (s : State) (st : Nat) : Bool := s.flag PWR_STATUS_narrow && s.consents st

/-- Whether a twig is parked (R405). -/
def State.parked (s : State) (t : Nat) : Bool := s.flag (TWIG_STATUS_parked t)

/-- A twig's bit in the park masks. -/
def State.parkBit (s : State) (t : Nat) : Bool := bitOf (s.rd (PWR_PARK (t / 64))).toNat (t % 64)

/-- Whether a twig is to be parked: a free twig while park_free is 1, and every twig of a stand one of whose twigs the masks
name (R404, R405; log entry 22). -/
def State.wantPark (s : State) (t : Nat) : Bool :=
  match s.twigStand t with
  | none => s.flag PWR_CFG_park_free || s.parkBit t
  | some st => (s.twigsOf st).any s.parkBit

/-- The twigs that are to be parked. -/
def State.wantParked (s : State) : List Nat := (List.range 144).filter s.wantPark

/-- The tier the sequencer aims at: the slowest of R399. -/
def State.targetTier (s : State) : Nat :=
  if s.flag PWR_STATUS_brake || s.flag PWR_STATUS_limit || decide (s.pwrState ≠ 0) || !s.flag ID_BOOT_done then 4
  else min 4 (max (s.fld PWR_SEQ_tier_req) (s.fld PWR_STATUS_cap_tier))

/-- Ask for a commit at the next guard band. -/
def State.pwrDirty (s : State) : State := s.onPwr fun p => { p with dirty := true }

/-- Ask for the choice of R404 to be run again in the following ring (R406). -/
def State.askRechoose (s : State) : State := s.onPwr fun p => { p with rechoose := some s.rings }

/-- The event TIER (R403), to the owner and every ACTIVE stand, with the ring of effect. -/
def State.tierEvent (s : State) : State :=
  let d := fun (b : Nat) => evData [(8, 1, s.tier), (9, 1, bit (s.flag PWR_STATUS_narrow) + b), (16, 8, s.ring + 1)]
  s.event { code := 0x0012, severity := 1, stand := 0xFF,
            targets := [(16, d 0), (17, d 0)] ++
              ((List.range 16).filter fun st => s.standState st == 2).map fun st => (st, d (2 * bit (s.standNarrow st))) }

/-! ### The sequencer (R399-R403) -/

/-- Switch every tier-scaled domain to the standby PLLs (R51, R53): the ring has then no exact lclk count. CLK_STATUS.standby_locked reads 0 from the
switch until the standby PLLs are set and lock again; whether the former active PLL, now the standby, still shows its lock is open
(DESIGN CHOICE, log entry 75). -/
def State.tierSwitch (s : State) (tier : Nat) : State :=
  let s := (s.setFld PWR_STATUS_tier tier).setFld CLK_STATUS_leaf_mult (Config.leafMult tier)
  let s := (s.setFld CLK_STATUS_active_sel (15 - s.fld CLK_STATUS_active_sel)).setFld CLK_STATUS_standby_locked 0
  let s := (s.setFld RING_LCLK_guard_lclk 0).setFld RING_LCLK_ring_lclk 0
  (s.onClk fun c => { c with standby := none, standbyLocked := false, lockSeen := false }).tierEvent

/-- Set the standby PLLs to a tier's multiple, replacing any pending setting (R51). -/
def State.setStandby (s : State) (tier : Nat) : State :=
  (s.setFld CLK_STATUS_standby_locked 0).onClk fun c => { c with standby := some tier, standbyLocked := false, lockSeen := false }

/-- The brake path (R408): the standby PLLs go to T4 at once, the switch is due in this ring's guard band; an upward step that
has not switched is abandoned with its raised voltage (R402). -/
def State.brakePath (s : State) : State :=
  let s := (s.setFld PWR_STATUS_steps_left 0).onPwr fun p =>
    { p with base := none, stepsDone := 0, vddTier := max p.vddTier s.tier }
  if s.tier = 4 then s.onPwr fun p => { p with downAt := none, viaBrake := false }
  else (s.setStandby 4).onPwr fun p => { p with downAt := some s.rings, viaBrake := true }

/-- Park or unpark a twig; parking is an edge of event 0x15 (R461). -/
def State.setParked (s : State) (t : Nat) (b : Bool) : State :=
  (if b && !s.flag (TWIG_STATUS_parked t) then s.twigEvent t 0x15 0 1 else s).setFlag (TWIG_STATUS_parked t) b

/-- Twigs parked that are to be unparked, rising. -/
def State.toUnpark (s : State) : List Nat := (List.range 144).filter fun t => s.parked t && !s.wantPark t

/-- Upward steps a state still needs (R401), unparking counted at the tier reached. -/
def State.stepsNeeded (s : State) : Nat :=
  (s.tier - s.targetTier) + bit (s.flag PWR_STATUS_narrow && !s.flag PWR_SEQ_narrow_req)
    + ceilDiv s.toUnpark.length (unparkLimit (min s.tier s.targetTier))

/-- Commit a waiting change at the guard band of ring `N` (R400-R402): parking and the precision tier's entry at once, a lower
tier from `N + 1`, raising parts as upward steps counted from `N`, or from `N + 2` behind a lower tier (log entry 23). -/
def State.commitRamp (s : State) : State :=
  if !s.pwr.dirty || !s.flag ID_BOOT_done then s
  else
    let s := s.onPwr fun p => { p with dirty := false }
    let parks := (List.range 144).filter fun t => s.wantPark t && !s.parked t
    let enter := s.flag PWR_SEQ_narrow_req && !s.flag PWR_STATUS_narrow
    let s := s.forEach parks fun t s => s.setParked t true
    let s := if enter then (s.setFlag PWR_STATUS_narrow true).tierEvent else s
    let down := decide (s.tier < s.targetTier)
    let s := s.onPwr fun p => { p with vddTier := max p.vddTier s.tier }
    let s := if down && s.pwr.viaBrake then s
      else if down then s.onPwr fun p => { p with downAt := some (s.rings + 1) }
      else s.onPwr fun p => { p with downAt := none, viaBrake := false }
    let base := if down then s.rings + 2 else s.rings
    let n := s.stepsNeeded
    let s := (s.onPwr fun p => { p with base := some base, stepsDone := 0 }).setFld PWR_STATUS_steps_left (min 15 n)
    if parks = [] ∧ !enter ∧ !down ∧ n = 0 then s
    else
      (s.setFlag PWR_STATUS_ramp true).setFld PWR_STATUS_reach_ring
        (s.ring + if n ≠ 0 then (if down then 2 else 0) + 4 * n else if down then 3 else 1)

/-- VDD_LC rises one guard band before the upward step of one tier it serves, and the standby PLLs are set (R401). -/
def State.vddRise (s : State) : State :=
  match s.pwr.base with
  | some b =>
    if s.targetTier < s.tier ∧ s.fld PWR_STATUS_steps_left ≠ 0 ∧ b + 4 * (s.pwr.stepsDone + 1) - 2 ≤ s.rings
        ∧ s.clk.standby = none then
      (s.setStandby (s.tier - 1)).onPwr fun p => { p with vddTier := s.tier - 1 }
    else s
  | none => s

/-- Step 3 of the guard band (R45, R51, R52): a frequency fall that is due, if the standby PLLs had reported lock by the start of slot 62. -/
def State.switchDown (s : State) : State :=
  match s.pwr.downAt with
  | some r =>
    if r ≤ s.rings ∧ s.clk.lockSeen then
      let brake := s.pwr.viaBrake
      let s := s.tierSwitch (s.clk.standby.getD 4)
      s.onPwr fun p => { p with
        downAt := none, viaBrake := false, vddTier := if brake then 4 else p.vddTier,
        vddDue := if brake then none else some (s.rings + 1) }
    else s
  | none => s

/-- At the start of a ring, set the standby PLLs for a fall due in its guard band (R400). -/
def State.standbyForFall (s : State) : State :=
  match s.pwr.downAt with
  | some r => if r ≤ s.rings ∧ s.clk.standby = none then s.setStandby s.targetTier else s
  | none => s

/-- PLL_LOCK (R51): the standby PLL set reports lock. -/
def execPllLock (s : State) : Res :=
  s.when s.clk.standby.isSome ((s.setFld CLK_STATUS_standby_locked 15).onClk fun c => { c with standbyLocked := true })

/-- VDD_LC falls (R400): in the guard band after the frequency fell. -/
def State.vddFall (s : State) : State :=
  match s.pwr.vddDue with
  | some r => if r ≤ s.rings then s.onPwr fun p => { p with vddTier := max p.vddTier s.tier, vddDue := none } else s
  | none => s

/-- One upward step (R401): one tier up if its PLLs had reported lock by the start of slot 62 (R52), or leaving the precision tier, or
unparking. -/
def State.upward (s : State) : State :=
  let done := fun (s : State) =>
    (s.onPwr fun p => { p with stepsDone := p.stepsDone + 1 }).setFld PWR_STATUS_steps_left (s.fld PWR_STATUS_steps_left - 1)
  if s.targetTier < s.tier then (if s.clk.lockSeen then done (s.tierSwitch (s.tier - 1)) else s)
  else if s.flag PWR_STATUS_narrow && !s.flag PWR_SEQ_narrow_req then done (s.setFlag PWR_STATUS_narrow false).tierEvent
  else done (s.forEach (s.toUnpark.take (unparkLimit s.tier)) fun t s => s.setParked t false)

/-- The upward step that is due (R401): step *k* in the guard band of ring *N* + 4*k* - 1. -/
def State.upwardDue (s : State) : State :=
  match s.pwr.base with
  | some b => if s.fld PWR_STATUS_steps_left ≠ 0 ∧ b + 4 * (s.pwr.stepsDone + 1) - 1 ≤ s.rings then s.upward else s
  | none => s

/-- A ramp ends when its target state runs (R403). -/
def State.rampEnd (s : State) : State :=
  if s.flag PWR_STATUS_ramp && s.fld PWR_STATUS_steps_left == 0 && s.tier == s.targetTier
      && decide (s.fld PWR_STATUS_reach_ring ≤ s.ring) && s.pwr.downAt.isNone && s.pwr.vddDue.isNone then
    (s.setFlag PWR_STATUS_ramp false).setFlag PWR_EVENT_ramp_done true
  else s

/-! ### The envelope (R404-R406) -/

/-- The state the procedure of R404 picks: tier, precision tier, the stands parked, the predicted power in tenths of a watt. -/
structure Choice where
  tier   : Nat
  narrow : Bool
  stands : List Nat
  power  : Int
deriving DecidableEq, Repr

/-- Park stands in the order given until the target is met (R404). -/
def State.chooseParks (s : State) (tier : Nat) (narrow : Bool) (target : Int) : List Nat → List Nat → Int → Option Choice
  | [], _, _ => none
  | st :: rest, parked, p =>
    if s.standState st == 2 && s.liveFlag (STAND_CFG_park_allowed st) then
      let p := p - (s.twigsOf st).length * (parkSaving tier - (if narrow && s.consents st then narrowSaving tier else 0))
      let parked := parked ++ [st]
      if p ≤ target then some { tier, narrow, stands := parked, power := p }
      else s.chooseParks tier narrow target rest parked p
    else s.chooseParks tier narrow target rest parked p

/-- One tier of the procedure of R404. -/
def State.chooseAt (s : State) (tier : Nat) (target : Int) (parkOk precOk : Bool) : Option Choice :=
  let free : Nat := if s.flag PWR_CFG_park_free then (List.range 144).countP fun t => (s.twigStand t).isNone else 0
  let cons : Nat := (List.range 144).countP fun t => !s.parked t &&
    match s.twigStand t with | some st => s.standState st == 2 && s.consents st | none => false
  let p := designPower tier - parkSaving tier * free
  if p ≤ target then some { tier, narrow := false, stands := [], power := p }
  else
    let narrow := precOk && decide (0 < cons)
    let p := if narrow then p - narrowSaving tier * cons else p
    if narrow ∧ p ≤ target then some { tier, narrow, stands := [], power := p }
    else if parkOk then s.chooseParks tier narrow target (List.range 16).reverse [] p
    else none

/-- The procedure of R404. T4 always meets a target of at least 700 W. -/
def State.choose (s : State) (target : Nat) (parkOk precOk : Bool) : Choice :=
  ((List.range 5).findSome? fun t => s.chooseAt t (target * 10) parkOk precOk).getD
    { tier := 4, narrow := false, stands := [], power := designPower 4 }

/-- Heartwood writes the state chosen to PWR_SEQ and the park masks (R404). -/
def State.applyChoice (s : State) (c : Choice) : State :=
  let s := (s.setFld PWR_SEQ_tier_req c.tier).setFlag PWR_SEQ_narrow_req c.narrow
  let twigs := c.stands.flatMap s.twigsOf
  (s.forEach [0, 1, 2] fun q s =>
    s.wr (PWR_PARK q) (BitVec.ofNat 64 (maskOfList ((twigs.filter fun t => t / 64 == q).map fun t => t % 64)))).pwrDirty

/-- Rings to reach the state of a choice, counted from the guard band in which it commits (R404, R400-R402). -/
def State.ringsToReach (s : State) (c : Choice) : Nat :=
  let t := max c.tier (s.fld PWR_STATUS_cap_tier)
  let down := decide (s.tier < t)
  let unpark := (List.range 144).countP fun x => s.parked x &&
    !(match s.twigStand x with | some st => c.stands.contains st | none => s.flag PWR_CFG_park_free)
  let n := (s.tier - t) + bit (s.flag PWR_STATUS_narrow && !c.narrow) + ceilDiv unpark (unparkLimit (min s.tier t))
  if n ≠ 0 then (if down then 2 else 0) + 4 * n else if down then 3 else 1

/-- The envelope as stored, and the choice it gives (R404). -/
def State.rechooseNow (s : State) : State :=
  s.applyChoice (s.choose (s.fld PWR_ENVELOPE_target) (s.flag PWR_ENVELOPE_park_ok) (s.flag PWR_ENVELOPE_prec_ok))

/-- ENVELOPE_RECHOOSE (R406): in the ring after the change. -/
def execEnvelopeRechoose (s : State) : Res :=
  match s.pwr.rechoose with
  | some r => s.when (decide (r < s.rings) && s.hwActs) (s.onPwr fun p => { p with rechoose := none }).rechooseNow
  | none => .next s

/-- A write to PWR_ENVELOPE: a target outside 700-2,400 W is ignored and sets env_rejected. -/
def State.writeEnvelope (s : State) (v : Word) : State :=
  let t := bitsOf v.toNat 11 0
  if t < 700 ∨ 2400 < t then s.setFlag PWR_EVENT_env_rejected true
  else s.wr PWR_ENVELOPE (v &&& 0x300000FFF#64)

/-- A write to PWR_SEQ: a tier of 5-7 leaves the field unchanged. -/
def State.writeSeq (s : State) (v : Word) : State :=
  let s := s.setFld PWR_SEQ_narrow_req (bitsOf v.toNat 3 3)
  (if bitsOf v.toNat 2 0 ≤ 4 then s.setFld PWR_SEQ_tier_req (bitsOf v.toNat 2 0) else s).pwrDirty

/-- A write to a park mask (R405): ignored as a whole when it parks a twig of an ACTIVE stand without park_allowed. -/
def State.writePark (s : State) (q : Nat) (v : Word) : State :=
  let n := if q = 2 then 16 else 64
  let bad := (bitList n v.toNat).any fun i =>
    match s.twigStand (64 * q + i) with
    | some st => s.standState st == 2 && !s.liveFlag (STAND_CFG_park_allowed st)
    | none => false
  if bad then s.setFlag PWR_EVENT_park_rejected true
  else (s.wr (PWR_PARK q) (BitVec.ofNat 64 (v.toNat % 2 ^ n))).pwrDirty

/-- PARK_MASK_WRITE (R405). -/
def execParkMaskWrite (q : Nat) (v : Word) (s : State) : Res := s.when (decide (q < 3)) (s.writePark q v)

/-! ### The brake (R408, R409) -/

/-- Whether the sideband inputs are looked at: VIN and VAUX present (R499). -/
def State.pinsLive (s : State) : Bool := s.boot.vin && s.boot.vaux

/-- PWR_BRAKE_N_ASSERT (R408). -/
def execPwrBrakeNAssert (s : State) : Res :=
  s.when (s.pinsLive && !s.flag PWR_STATUS_brake)
    (((s.setFlag PWR_STATUS_brake true).setFlag PWR_EVENT_brake_assert true).brakePath.wake 3)

/-- PWR_BRAKE_N_DEASSERT (R409): upward steps count from the guard band after recognition. -/
def execPwrBrakeNDeassert (s : State) : Res :=
  s.when (s.pinsLive && s.flag PWR_STATUS_brake)
    (((s.setFlag PWR_STATUS_brake false).setFlag PWR_EVENT_brake_release true).pwrDirty.wake 3)

/-! ### Thermal (R410-R414, R196) -/

/-- The hottest reading of die `d`, in 1/16 °C, as PWR_THERM0 and PWR_THERM1 hold it. -/
def State.dieTemp (s : State) (d : Nat) : Int :=
  toSigned 16 ((s.rd (if d < 4 then PWR_THERM0 else PWR_THERM1)).toNat >>> (16 * (d % 4)))

/-- The temperature of stack `k`, in °C. -/
def State.stackTemp (s : State) (k : Nat) : Nat := byteOf (s.rd (PWR_THERM_HBM (k / 8))) (k % 8)

/-- Store a sample set. -/
def State.storeTemps (s : State) (dies : List Int) (stackTs : List Nat) : State :=
  let d := fun (i : Nat) => ofSigned 16 (dies.getD i 0)
  let s := s.wr PWR_THERM0 (BitVec.ofNat 64 (d 0 + d 1 * 2 ^ 16 + d 2 * 2 ^ 32 + d 3 * 2 ^ 48))
  let s := (s.setFld PWR_THERM1_io0 (d 4)).setFld PWR_THERM1_io1 (d 5)
  let b := fun (q : Nat) => BitVec.ofNat 64 (((List.range 8).map fun i => if 8 * q + i < 12 then
    (stackTs.getD (8 * q + i) 0) % 256 * 256 ^ i else 0).sum)
  (s.wr (PWR_THERM_HBM 0) (b 0)).wr (PWR_THERM_HBM 1) (b 1)

/-- Tell the owner that the throttle (0) or the limit (1) started (R414). -/
def State.thermalEvent (s : State) (die action : Nat) (temp : Int) : State :=
  (s.eventOwner 0x0041 2 0xFF (evData [(8, 1, die), (9, 1, action), (10, 2, ofSigned 16 temp)])).wake 2

/-- The first die and the first stack a test holds of. -/
def State.hotDie (s : State) (limit : Int) : Option Nat := (List.range 6).find? fun d => decide (limit ≤ s.dieTemp d)

/-- Stacks above 105 °C (R196). -/
def State.hotStacks (s : State) : Nat := maskOfList ((List.range 12).filter fun k => decide (105 < s.stackTemp k))

/-- The thermal limit starts (R412): T4 by the brake path, cap_tier T4. -/
def State.startLimit (s : State) (die : Nat) (temp : Int) (stack : Bool) : State :=
  let s := ((s.setFlag PWR_STATUS_limit true).setFlag PWR_EVENT_limit true).setFld PWR_STATUS_cap_tier 4
  let s := if stack then s.setFlag PWR_EVENT_stack_hot true else s
  (s.brakePath.thermalEvent die 1 temp).alertPin

/-- THERMTRIP_N (R413): latched with PWR_TRIP_REC; every leaf and core clock stops. -/
def State.tripNow (s : State) (source stack : Nat) (temp : Int) : State :=
  let s := if s.flag PWR_TRIP_REC_valid then s
    else (((((s.setFlag PWR_TRIP_REC_valid true).setFld PWR_TRIP_REC_source source).setFld PWR_TRIP_REC_stack stack).setFld
      PWR_TRIP_REC_temp (ofSigned 16 temp)).setFld PWR_TRIP_REC_ring s.ring)
  ((s.setFlag PWR_EVENT_trip true).onPins fun p => { p with thermtrip := true }).onPwr (fun p => { p with trip := true })
    |>.alertPin

/-- THERMAL_SAMPLE (R410): the registers, hot stacks (R196), the limit (R412) and the trip (R413). -/
def execThermalSample (dies : List Int) (stackTs : List Nat) (s : State) : Res :=
  s.when s.powered
    (let s := (s.storeTemps dies stackTs).onPwr fun p => { p with fullSet := true }
     let was := s.fld HBM_STATUS_hot
     let hot := s.hotStacks
     let s := s.setFld HBM_STATUS_hot hot
     let s := if (bitList 12 hot).any fun k => !bitOf was k then s.setFlag HBM_EVENT_stack_hot true else s
     let s := if s.flag PWR_STATUS_limit then s
       else match s.hotDie (105 * 16) with
         | some d => s.startLimit d (s.dieTemp d) (decide (hot ≠ 0))
         | none => match (bitList 12 hot).head? with
           | some k => s.startLimit 8 (16 * (s.stackTemp k : Int)) true
           | none => s
     match s.hotDie (115 * 16) with
     | some d => if s.pwr.trip then s else s.tripNow d 0 (s.dieTemp d)
     | none => match (List.range 12).find? fun k => decide (115 ≤ s.stackTemp k) with
       | some k => if s.pwr.trip then s else s.tripNow 8 k (16 * (s.stackTemp k : Int))
       | none => s)

/-- The hottest die reading and its die. -/
def State.hottest (s : State) : Nat × Int :=
  (List.range 6).foldl (fun m d => if m.2 < s.dieTemp d then (d, s.dieTemp d) else m) (0, s.dieTemp 0)

/-- The cap of R411 at a ring boundary, and the end of the limit (R412). -/
def State.thermalBoundary (s : State) : State :=
  let s := if s.pwr.fullSet then (s.countWrap PWR_THERM1_sample_seq 1).onPwr fun p => { p with fullSet := false } else s
  let (d, j) := s.hottest
  let throttled := s.flag PWR_STATUS_throttle
  let cap := s.fld PWR_STATUS_cap_tier
  let s :=
    if 1600 ≤ j ∧ !throttled then
      let s := ((s.setFld PWR_STATUS_cap_tier (min 4 (s.targetTier + 1))).setFlag PWR_STATUS_throttle true).setFlag
        PWR_EVENT_throttle true
      ((s.onPwr fun p => { p with hotRings := 0, coolRings := 0 }).pwrDirty.thermalEvent d 0 j).alertPin
    else if 1600 ≤ j then
      if s.pwr.hotRings = 15 then
        ((s.setFld PWR_STATUS_cap_tier (min 4 (cap + 1))).onPwr fun p => { p with hotRings := 0, coolRings := 0 }).pwrDirty
      else s.onPwr fun p => { p with hotRings := p.hotRings + 1, coolRings := 0 }
    else if j < 1520 ∧ (cap ≠ 0 ∨ throttled) then
      if s.pwr.coolRings = 255 then
        let s := ((s.setFld PWR_STATUS_cap_tier (cap - 1)).onPwr fun p => { p with hotRings := 0, coolRings := 0 }).pwrDirty
        if cap ≤ 1 then (s.setFlag PWR_STATUS_throttle false).alertPin else s
      else s.onPwr fun p => { p with hotRings := 0, coolRings := p.coolRings + 1 }
    else s.onPwr fun p => { p with hotRings := 0, coolRings := 0 }
  if s.flag PWR_STATUS_limit && (s.hotDie 1600).isNone && s.hotStacks == 0 then
    (s.setFlag PWR_STATUS_limit false).pwrDirty.alertPin
  else s

/-! ### Power states (R416, R417) and clock gates (R55-R57) -/

/-- Commit a power state at a guard band (R416, R417). -/
def State.commitState (s : State) : State :=
  match s.pwr.stateReq with
  | none => s
  | some x =>
    let s := s.onPwr fun p => { p with stateReq := none }
    if x = s.pwrState then s
    else if x = 0 then
      if s.pwrState = 3 then
        let s := (s.setFld HBM_STATUS_self_refresh 0).onPwr fun p => { p with deepExit := true }
        s
      else ((s.setFld PWR_STATUS_state 0).pwrDirty).commitReg CLK_GATE_RUN
    else
      let deep := s.pwrState == 3
      let s := (s.setFld PWR_STATUS_state x).brakePath.pwrDirty
      let s := if deep then
          ((s.setFld HBM_STATUS_self_refresh 0).onClk fun c => { c with hbmFrom := s.rings + 1 }).trainFromOff
        else s
      let s := s.commitReg (if x = 1 then CLK_GATE_SLEEP else if x = 3 then CLK_GATE_DEEP else CLK_GATE_RUN)
      if x = 3 then
        (s.setFld HBM_STATUS_self_refresh (s.fld HBM_STATUS_trained)).limbsSleep
      else s

/-- DEEP_SLEEP_EXIT_DONE (R416): HBM has left self-refresh and serves scheduled access from slot 0 of the next ring (R197), the limbs retrain (R236), the
state is run; upward steps follow. -/
def execDeepSleepExitDone (s : State) : Res :=
  s.when (s.pwrState == 3 && s.pwr.deepExit)
    (let s := ((s.setFld PWR_STATUS_state 0).setFld HBM_STATUS_self_refresh 0).commitReg CLK_GATE_RUN
     let s := ((s.onPwr fun p => { p with deepExit := false }).onClk fun c => { c with hbmFrom := s.rings + 1 }).pwrDirty
     s.trainFromOff)

/-- Whether any stand holds resources in a gated domain, by its bit in CLK_GATE_RUN (R57), where `f` reads a field: leaf and core of a bough through
twigs, bough-buffer regions and knots, HBM of a bough through regions, the I/O fabric through rank grants and fabric slots on both dies, channels
on their engine's die and key indices on their limb's. -/
def domainHeldAs (f : Fld → Nat) (i : Nat) : Bool :=
  let b := i % 4
  let twigs := (List.range 36).any fun j => f (STAND_TWIG_OWNER_valid (36 * b + j)) == 1
  if i < 4 then twigs
  else if i < 8 then
    twigs || (List.range 16).any (fun st => f (TWIG_BBUF_REGION_valid b st) == 1) ||
      (List.range 64).any fun g => f (KNOT_GRANULE_OWNER_valid (64 * b + g)) == 1
  else if i < 12 then
    (List.range 16).any fun st => (List.range 4).any fun r =>
      f (HBM_REGION_valid st r) == 1 && decide (f (HBM_REGION_base st r) / 144 ≤ b) && decide (b ≤ f (HBM_REGION_limit st r) / 144)
  else if i < 14 then
    (List.range 16).any (fun st => f (NI_RANK_GRANT_valid st) == 1 || f (NI_FSLOT_MASK_slots st) != 0)
      || (List.range 64).any (fun c => f (COLL_CHAN_CFG_valid c) == 1 && f (COLL_CHAN_CFG_engine c) == i - 12)
      || (List.range 9).any fun l => f (LIMB_KEY_VALID_valid (9 * (i - 12) + l)) != 0
  else false

/-- Whether any stand holds resources in a gated domain, as written or in force. -/
def State.domainHeld (s : State) (i : Nat) : Bool := domainHeldAs s.fld i || domainHeldAs s.liveFld i

/-- The register of a clock-enable set. -/
def gateReg : GateSet → Nat
  | .run => CLK_GATE_RUN
  | .sleep => CLK_GATE_SLEEP
  | .deep => CLK_GATE_DEEP

/-- A write to a clock-enable set (R56, R57). -/
def State.writeGate (s : State) (g : GateSet) (v : Word) : State :=
  let v := v &&& 0x1FFFFF#64
  let old := (s.rd (gateReg g)).toNat
  let clears := (List.range 14).any fun i => bitOf old i && !bitOf v.toNat i && s.domainHeld i
  if bitsOf v.toNat 18 17 = 0 ∨ (g = .run ∧ clears) then s.setFlag CLK_EVENT_gate_ignored true
  else s.wr (gateReg g) v

/-- CLK_GATE_WRITE (R56, R57). -/
def execClkGateWrite (g : GateSet) (v : Word) (s : State) : Res := .next (s.writeGate g v)

/-- The set of the current power state commits at the guard band (R56). -/
def State.commitGates (s : State) : State :=
  s.commitReg (if s.pwrState = 1 then CLK_GATE_SLEEP else if s.pwrState = 3 then CLK_GATE_DEEP else CLK_GATE_RUN)

end Sys2Proof.Machine
end

