-- ==== Sys2Proof/Machine/Heartwood.lean ====
section
/-! DEFINITION. The two Heartwoods (14_management_redundancy, 12): health, the control token and its lease, planned transfers and
drills, takeover, Safe Hold, and the response pairs the standby completes. -/

namespace Sys2Proof.Machine

/-- A Heartwood's number in MBX_HEARTWOOD.token and in the responder byte. -/
def sideNo : Side → Nat
  | .a => 1
  | .b => 2

/-- The other Heartwood's number. -/
def otherNo (h : Nat) : Nat := 3 - h

/-- Whether Heartwood `h` (1 A, 2 B) is healthy. -/
def State.healthy (s : State) (h : Nat) : Bool :=
  if h = 1 then s.flag MBX_RED_STATUS_a_healthy else s.flag MBX_RED_STATUS_b_healthy

/-- Show a Heartwood running, healthy and writing response slots, or none of these. -/
def State.setHealthy (s : State) (h : Nat) (b : Bool) : State :=
  if h = 1 then
    (((s.setFlag MBX_RED_STATUS_a_healthy b).setFlag MBX_HEARTWOOD_a_running b).forEach (List.range 18)) fun m s =>
      s.setFlag (MBX_FN_STATUS_a_serving m) b
  else
    (((s.setFlag MBX_RED_STATUS_b_healthy b).setFlag MBX_HEARTWOOD_b_running b).forEach (List.range 18)) fun m s =>
      s.setFlag (MBX_FN_STATUS_b_serving m) b

/-- The addresses of the sixteen SCRATCH registers. -/
def scratchRegs : List Nat := (List.range 16).map BLOCK_SCRATCH

/-- The actuator test (R376) leaves 0 in every SCRATCH register when it passes. -/
def State.actuatorTest (s : State) (ok : Bool) : State := if ok then s.forEach scratchRegs fun a s => s.wr a 0#64 else s

/-! ### Safe Hold (R385, R387) -/

/-- Every leaf stops: its sub-descriptors end without their arrive, its clock is off. -/
def State.stopLeaves (s : State) : State :=
  { s with
    leaves := (s.leaves.map fun e => (e.1, { e.2 with queue := [], clock := false })).filter fun e => e.2 != {},
    cmds := [] }

/-- The mailboxes pass to the hardware responder; no Heartwood runs (R350, R387). -/
def State.responderOnly (s : State) : State :=
  let s := ((s.setHealthy 1 false).setHealthy 2 false).setFld MBX_HEARTWOOD_token 0
  s.forEach (List.range 18) fun m s => s.setFlag (MBX_FN_STATUS_hw_responder m) true

/-- Enter Safe Hold (R387). -/
def State.enterSafeHold (s : State) : State :=
  if s.safeHold then s
  else
    let s := s.stopLeaves.limbsHold
    let s := s.setFld HBM_STATUS_self_refresh (s.fld HBM_STATUS_trained)
    let s := ((s.setFld PWR_STATUS_state 5).setFld PWR_STATUS_tier 4).setFld PWR_STATUS_steps_left 0
    let s := (s.setFlag PWR_STATUS_ramp false).setFld CLK_STATUS_leaf_mult 6
    let s := s.onPwr fun p => { p with
      downAt := none, viaBrake := false, vddDue := none, base := none, stepsDone := 0, rechoose := none, stateReq := none,
      dirty := false, vddTier := 4 }
    let s := s.responderOnly
    let s := ((s.setFlag MBX_RED_STATUS_takeover_running false).setFlag MBX_RED_STATUS_drill_running false).setFlag
      MBX_RED_STATUS_safe_hold true
    let s := (s.setFld MBX_RED_STATUS_last_cause 7).wr MBX_RED_LAST (s.rd RING_TIME)
    let s := s.onHw fun h => { h with
      leave := none, planned := none, drill := none, holdDue := false, takeoverRings := 0, records := [],
      intake := h.admin.map (·.req) ++ h.intake, admin := [], pausing := false }
    (s.onFw fun f => { f with activate := false }).alertPin

/-- SAFE_HOLD_ENTER (R385, R387). -/
def execSafeHoldEnter (s : State) : Res := s.when s.powered s.enterSafeHold

/-! ### Response pairs (R330, R336) -/

/-- Request slots of a mailbox (R325). -/
def reqSlots (m : Nat) : Nat := if m == 17 then 1 else 32

/-- The address of a response slot: `side` 0 is Heartwood A's, 1 that of B and of the hardware responder (R330). -/
def rspSlotAt (m count side : Nat) : Nat := mbxAt m + 0x2000 + 64 * (2 * (count % reqSlots m) + side)

/-- A response slot as Heartwood `h` writes it now: responder and ring_time are its own; an SMP 2.x slot leaves them 0 (R342). -/
def State.stampSlot (s : State) (h : Nat) (slot : List Byte) : List Byte :=
  if bytesAt slot 0 1 = 2 then slot
  else splice (splice slot 16 (leBytes 1 h)) 24 (leBytes 8 (s.rd RING_TIME).toNat)

/-- Heartwood `h` writes its slot of a pair. -/
def State.writeSlot (s : State) (h : Nat) (r : Record) : State :=
  s.store (rspSlotAt r.mbx r.count (h - 1)) (s.stampSlot h r.slot)

/-- MIRROR_RECORD_RECEIVE (R336): the standby holds the oldest record it did not hold. -/
def execMirrorRecordReceive (s : State) : Res :=
  match s.hw.records.find? fun r => !r.held with
  | none => .next s
  | some r => .next (s.onHw fun h => { h with records := h.records.map fun x => if x == r then { x with held := true } else x })

/-- MIRROR_DONE_RECEIVE (R336): the standby writes its slot of the oldest pair whose record it holds. -/
def execMirrorDoneReceive (s : State) : Res :=
  match s.hw.records.find? fun r => r.held && r.done with
  | none => .next s
  | some r =>
    let s := s.onHw fun h => { h with records := h.records.erase r }
    .next (if s.healthy (otherNo s.token) then s.writeSlot (otherNo s.token) r else s)

/-! ### The token (R371-R374) -/

/-- Heartwood `h` takes the token at first (R431): the lease is full, and on the cold path it writes the limb configuration of the
running image (R432). -/
def State.firstToken (s : State) (h : Nat) : State :=
  let s := ((s.setFld MBX_HEARTWOOD_token h).setFld MBX_RED_STATUS_lease_left 16).actuatorTest true
  if s.boot.cold then
    let v := s.fld FLASH_STATUS_active_version
    (s.setFld LIMB_GLOBAL_CFG_domain_tag (Config.limbImage v 18).toNat).forEach (List.range 18) fun l s =>
      s.wr (LIMB_CFG l) (Config.limbImage v l &&& 0xFF01#64)
  else s

/-- Reset a Heartwood by its own die's hardware. -/
def State.resetHeartwood (s : State) (h : Nat) : State := s.setHealthy h false

/-- The token is to leave its holder for a cause: 1 surrender, 2 watchdog, 3 lease expiry (R373). -/
def State.leaveToken (s : State) (cause : Nat) : State := s.onHw fun h => { h with leave := some cause }

/-- The event DRILL_DONE (R384). -/
def State.drillDone (s : State) (failed : Nat) : State :=
  ((s.setFlag MBX_RED_STATUS_drill_running false).onHw fun h => { h with drill := none }).eventOwner 0x0051 1 0xFF
    (evData [(8, 1, failed), (9, 1, s.token)])

/-- A Heartwood fails a check: the holder leaves the token for the cause given; a standby is marked unhealthy and reset, no planned transfer to
it takes place, and a drill ends (R384); where a failed holder was to return the token to it, Safe Hold is due (R385). -/
def State.heartwoodFails (s : State) (h cause : Nat) : State :=
  if s.token = h then
    if s.flag MBX_RED_STATUS_takeover_running then (s.setHealthy h false).onHw fun x => { x with holdDue := true }
    else (s.setHealthy h false).leaveToken cause
  else
    let s := (s.resetHeartwood h).setFld MBX_RED_STATUS_a_health_rings
      (if h = 1 then 0 else s.fld MBX_RED_STATUS_a_health_rings)
    let s := s.onHw fun x => { x with planned := none }
    match s.hw.drill with
    | some (_, _, 0) => s.drillDone 1
    | some (_, _, 1) => s.drillDone 0
    | some _ => s.onHw fun x => { x with holdDue := true }
    | none => if s.token = 0 ∨ s.hw.leave.isSome ∨ s.healthy s.token then s else s.onHw fun x => { x with holdDue := true }

/-- Whether the state is that of a ring boundary: RING_BOUNDARY or an accepted pulse has begun the ring, and no slot after slot 0 has come. -/
def State.atBoundary (s : State) : Bool := s.clk.slot == 0

/-- Whether the token may leave or move: at a ring boundary, outside the activation pause (R454). -/
def State.mayMove (s : State) : Bool := s.atBoundary && !s.hw.pausing

/-- LEASE_EXPIRE (R373), at a ring boundary: the holder has not renewed. The rings it let pass are this one command (DESIGN CHOICE, log entry
99). -/
def execLeaseExpire (s : State) : Res :=
  s.when (s.powered && decide (s.token ≠ 0) && s.mayMove) ((s.setFld MBX_RED_STATUS_lease_left 0).leaveToken 3)

/-- CORE_WATCHDOG_EXPIRE (R373, *Self-diagnosis*), at the boundary that ends the second unserviced ring: suspended during the activation pause
(R454). -/
def execCoreWatchdogExpire (h : Side) (s : State) : Res :=
  s.when (s.powered && !s.safeHold && s.mayMove) (s.heartwoodFails (sideNo h) 2)

/-- SURRENDER (R373). -/
def execSurrender (s : State) : Res :=
  s.when (s.powered && decide (s.token ≠ 0)) (s.heartwoodFails s.token 1)

/-- SELF_DIAG_FAIL (*Self-diagnosis*): a holder surrenders. -/
def execSelfDiagFail (h : Side) (s : State) : Res := s.when (s.powered && !s.safeHold) (s.heartwoodFails (sideNo h) 1)

/-- A transfer in progress ends with the Heartwood that ran it (R382, R451). -/
def State.dropFirmware (s : State) : State :=
  let s := s.abortTransfer
  (s.onFw fun f => { f with activate := false }).onKeys fun k => { k with transportPending := false }

/-- TOKEN_MOVE (R373, R376, R377), at a ring boundary: the token passes to the other Heartwood if it is healthy, otherwise the package enters Safe Hold;
the new holder's failed actuator test leads to Safe Hold at the next boundary. -/
def execTokenMove (actuatorOk : Bool) (s : State) : Res :=
  match s.hw.leave with
  | none => .next s
  | some c =>
    let old := s.token
    s.when (s.powered && decide (old ≠ 0) && s.mayMove)
      (if !s.healthy (otherNo old) then s.enterSafeHold
       else
         let s := (s.resetHeartwood old).setFld MBX_HEARTWOOD_token (otherNo old)
         let s := ((s.setFlag MBX_RED_STATUS_takeover_running true).setFld MBX_RED_STATUS_last_cause c).count MBX_RED_STATUS_takeovers 1
         let s := (s.wr MBX_RED_LAST (s.rd RING_TIME)).setFld MBX_RED_STATUS_a_health_rings 0
         let s := if s.ring % 4 = 0 then s.setFld MBX_RED_STATUS_lease_left 16 else s
         let s := (s.setFlag MBX_RED_STATUS_drill_running false).actuatorTest actuatorOk
         s.onHw fun h => { h with leave := none, planned := none, drill := none, takeoverRings := 0, holdDue := h.holdDue || !actuatorOk })

/-- A planned transfer is due for a cause, 4 reversion, 5 drill start, 6 drill end, from the boundary of a ring on. -/
def State.plan (s : State) (cause ring : Nat) : State := s.onHw fun h => { h with planned := some cause, plannedFrom := ring }

/-- Whether this is the boundary of the planned transfer (R380): a reversion waits for a renewal boundary (R381). -/
def State.transferDue (s : State) (cause : Nat) : Bool :=
  s.mayMove && decide (s.hw.plannedFrom ≤ s.rings) && (decide (cause ≠ 4) || decide (s.token ≠ 2) || s.ring % 4 == 0)

/-- PLANNED_TRANSFER (R380, R376, R384), at its boundary: the token moves; where the new holder's actuator test fails and the former holder is
healthy, the token is to return at the next boundary. -/
def execPlannedTransfer (actuatorOk : Bool) (s : State) : Res :=
  match s.hw.planned with
  | none => .next s
  | some c =>
    let old := s.token
    let new := otherNo old
    s.when (s.powered && decide (old ≠ 0) && s.healthy new && s.transferDue c)
      (let s := ((s.setFld MBX_HEARTWOOD_token new).setFld MBX_RED_STATUS_last_cause c).setFld MBX_RED_STATUS_a_health_rings 0
       let s := (s.actuatorTest actuatorOk).onHw fun h => { h with planned := none }
       if actuatorOk then
         match s.hw.drill with
         | some (d, n, 0) => s.onHw fun h => { h with drill := some (d, n, 1) }
         | some (_, _, 2) => s.drillDone 1
         | some _ => s.drillDone 0
         | none => s
       else
         let s := s.setHealthy new false
         if s.healthy old then
           (s.plan (if s.hw.drill.isSome then 6 else c) (s.rings + 1)).onHw fun h => { h with drill := h.drill.map fun d => (d.1, d.2.1, 2) }
         else s.onHw fun h => { h with holdDue := true })

/-- REVERSION (R380, R381): B plans a transfer to A at the next renewal boundary, unless a firmware transfer or activation makes it wait. -/
def execReversion (s : State) : Res :=
  s.when (s.token == 2 && decide (256 ≤ s.fld MBX_RED_STATUS_a_health_rings) && s.healthy 1 && !s.transferring && !s.fw.activate
    && s.hw.planned.isNone) (s.plan 4 (s.rings + 1))

/-- CROSSLINK_ERROR (R375): Safe Hold at the next ring boundary. -/
def execCrosslinkError (s : State) : Res :=
  s.when (s.powered && !s.safeHold) (s.onHw fun h => { h with holdDue := true })

/-- MIRROR_SYNC_TIMEOUT (*Self-diagnosis*): the standby is reset. -/
def execMirrorSyncTimeout (s : State) : Res :=
  s.when (s.powered && decide (s.token ≠ 0)) (s.heartwoodFails (otherNo s.token) 1)

/-! ### Takeover (R377-R379, R382, R383) -/

/-- Post again the events of the mirrored log beyond MBX_EVT_HEAD (R339): the same slots and sequences, from the new holder; on I3C the unread
slot is the new one. -/
def State.repostEvents (s : State) : State :=
  s.forEach (List.range 18) fun m s =>
    let tail := s.fld (MBX_EVT_STATE_tail m)
    let n := min (evtSlots m) (sub16 tail (s.fld (MBX_EVT_HEAD_head m)))
    s.forEach (List.range n) fun i s =>
      let a := mbxAt m + 0x3000 + 64 * ((s.hw.evtSeq.get 0 m + 2 ^ 32 - n + i) % evtSlots m)
      let old := s.bytes a 64
      let new := s.stampSlot s.token old
      if s.hw.log.any fun e => e.kind == 0 && e.seq == bytesAt old 36 4 then
        let s := s.store a new
        (if m = 17 then s.onI3c fun x => { x with evt := x.evt.map fun y => if y = old then new else y } else s).evtSignal m
      else s

/-- The new holder's calendar (R383): the newest calendar set among the 64 mirrored entries, advanced from its ring time; the flag says
it was rebuilt. -/
def State.rebuildCalendar (s : State) : Bool × State :=
  match s.hw.log.find? fun e => e.kind == 1 with
  | some e =>
    (true, s.onHw fun h => { h with calBase := e.stamp.getD 0, calRef := e.ref })
  | none => (false, s.setFlag MBX_CAL_STATUS_valid false)

/-- The header of an abandoned dump, whose valid byte stays 0 (R480): the slot's first 4 KiB hold zeros (log entry 55). -/
def State.voidDump (s : State) : State :=
  match s.obs.dump with
  | some d =>
    if s.flag HBM_RESERVE_valid then
      (s.hbmWrite (s.slotKey 16) (s.fld HBM_RESERVE_granule * 2 ^ 30 + d.slot * 0x4000000) (List.replicate 4096 0#8)).2
    else s
  | none => s

/-- A takeover abandons a dump in progress; the new holder writes that of an expiry anew (R480). -/
def State.retakeDump (s : State) : State :=
  (s.voidDump.onObs fun o => { o with
    dump := none,
    dumpWait := (match o.dump with | some d => if d.cause = 0 then [d] else [] | none => []) ++ o.dumpWait.filter fun d => d.cause == 0 }).setFlag
      TRC_DUMP_STATUS_in_progress false

/-- TAKEOVER_COMPLETE (R377), at a boundary after that of the move: the records are finished, the events posted again, the calendar rebuilt, TAKEOVER posted, and what
waited behind the takeover is handled (R386). -/
def execTakeoverComplete (s : State) : Res :=
  s.when (s.flag MBX_RED_STATUS_takeover_running && !s.safeHold && !s.hw.holdDue && s.atBoundary && decide (1 ≤ s.hw.takeoverRings))
    (let h := s.token
     let s := (s.forEach s.hw.records fun r s => s.writeSlot h r).onHw fun x => { x with records := [], log := x.log.take 64 }
     let s := (s.setFld MBX_LOG_STATUS_entries (min 64 (s.fld MBX_LOG_STATUS_entries))).repostEvents
     let valid := s.flag MBX_CAL_STATUS_valid
     let (built, s) := if valid then s.rebuildCalendar else (false, s)
     let s := (s.setFlag MBX_RED_STATUS_takeover_running false).dropFirmware
     let s := s.onHw fun x => { x with takeoverRings := 0, telemetry := none }
     let s := s.eventOwner 0x0050 3 0xFF
       (evData [(8, 1, h), (9, 1, s.fld MBX_RED_STATUS_last_cause), (10, 1, bit (!built)), (16, 8, (s.rd RING_TIME).toNat)])
     let s := (s.forEach [0, 1] fun io s => s.notice io 0x05 (s.liveFld NI_NODE_node_id) (s.liveFld NI_NODE_node_epoch)).postQueued
     s.retakeDump.handleLeafFaults)

/-- CALENDAR_END (R358): the calendar holds its last value. -/
def execCalendarEnd (s : State) : Res :=
  s.when (s.flag MBX_CAL_STATUS_valid)
    ((s.setFlag MBX_CAL_STATUS_at_end true).onHw fun h => { h with calBase := calendarEndUs, calRef := s.refNow })

/-! ### At a ring boundary -/

/-- The lease at a boundary (R372, R373): held at 16 during the activation pause (R454), renewed at multiples of 4, else one less; at 0 the token
is to leave its holder. -/
def State.leaseBoundary (s : State) : State :=
  if s.hw.pausing || (s.ring % 4 == 0 && s.healthy s.token) then s.setFld MBX_RED_STATUS_lease_left 16
  else
    let left := s.fld MBX_RED_STATUS_lease_left - 1
    let s := s.setFld MBX_RED_STATUS_lease_left left
    if left = 0 ∧ s.hw.leave = none then s.leaveToken 3 else s

/-- The boundaries in a row at which A is healthy while B holds the token (R381). -/
def State.healthBoundary (s : State) : State :=
  if s.token ≠ 2 then s
  else if s.healthy 1 then s.count MBX_RED_STATUS_a_health_rings 1
  else s.setFld MBX_RED_STATUS_a_health_rings 0

/-- The end of a drill's hold (R384). -/
def State.drillBoundary (s : State) : State :=
  match s.hw.drill with
  | some (d, n, 1) => if d + 1 + n ≤ s.rings ∧ s.hw.planned = none then s.plan 6 s.rings else s
  | _ => s

/-- The boundaries a takeover has run (R378), and a Safe Hold that is due (R385). -/
def State.holdBoundary (s : State) : State :=
  let s := if s.flag MBX_RED_STATUS_takeover_running then s.onHw fun h => { h with takeoverRings := h.takeoverRings + 1 } else s
  if s.hw.holdDue || decide (2 < s.hw.takeoverRings) then s.enterSafeHold else s

/-- What the token logic does at a ring boundary: the first assignment to A (R431), or the lease, A's health count, a drill's end and
a Safe Hold that is due. -/
def State.redundancyBoundary (s : State) : State :=
  if s.token = 0 then (if s.healthy 1 && !s.safeHold then s.firstToken 1 else s.holdBoundary)
  else s.leaseBoundary.healthBoundary.drillBoundary.holdBoundary

end Sys2Proof.Machine
end

