-- ==== Sys2Proof/Machine/Boot.lean ====
section
/-! DEFINITION. Supplies, resets and bring-up (16_bringup_and_identity.md, 15 R395-R397, 19 R499-R500), the clock monitor and its
failover (02). -/

namespace Sys2Proof.Machine

/-! ### What resets keep (R419-R424) -/

/-- Registers of the always-on domain, those of the I3C mailbox among them (R326): kept by every reset and without VIN. -/
def alwaysOn (a : Nat) : Bool :=
  [PWR_TRIP_REC, PWR_WAKE, ID_RESET_COUNT, ID_I3C, ID_PART, ID_SERIAL 0, ID_SERIAL 1, ID_SERIAL 2,
   MBX_REQ_STATE 17, MBX_REQ_RETIRE 17, MBX_EVT_HEAD 17, MBX_EVT_STATE 17].contains a

/-- Registers a warm reset keeps whole (R424); PWR_HOLDUP shows the charge of a store no reset empties (log entry 27). -/
def warmKeeps (a : Nat) : Bool :=
  alwaysOn a || (decide (0xD00000 ≤ a) && decide (a < 0xE00000))
    || [CLK_IOSC_TRIM, CLK_MON_CFG, LIMB_GLOBAL_CFG, MBX_RED_STATUS, MBX_RED_LAST, MBX_LOG_STATUS, PWR_HOLDUP, HBM_STATUS].contains a
    || ((List.range 18).map LIMB_CFG).contains a || ((List.range 12).map HBM_SPARE).contains a
    || (decide (TWIG_STATUS 0 ≤ a) && decide (a < TWIG_STATUS 144) &&
        ((a - TWIG_STATUS 0) % 0x80 == 8 || decide (0x20 ≤ (a - TWIG_STATUS 0) % 0x80)))

/-- Whether an address lies in the flash. -/
def inFlash (a : Nat) : Bool := decide (flashAt ≤ a) && decide (a < flashAt + 2 ^ 27)

/-- Memory a warm reset keeps: HBM, leaf SRAM and buffers (zeroized later, in bring-up), the flash, and the I3C mailbox of the
always-on domain. -/
def warmMem (a : Nat) : Bool := decide (a < mbxAt 0) || inFlash a || (decide (mbxAt 17 ≤ a) && decide (a < mbxAt 18))

/-- Whether an address lies in the I3C mailbox. -/
def inI3cMailbox (a : Nat) : Bool := decide (mbxAt 17 ≤ a) && decide (a < mbxAt 18)

/-- What a reset leaves of the I3C mailbox beside its slots and registers (R326): a request posted and not yet fetched stays posted; one
Heartwood had fetched is gone with it (log entry 71). -/
def State.keepI3cMailbox (t s : State) : State :=
  ((t.setFld (MBX_REQ_STATE_in_intake 17) 0).onI3c fun i => { i with
    busy := s.fld (MBX_REQ_STATE_head 17) != s.fld (MBX_REQ_STATE_tail_seen 17) }).onHw fun h => { h with
      evtSeq := s.hw.evtSeq.filter fun e => e.1 == 17, evtLost := s.hw.evtLost.filter fun e => e.1 == 17 }

/-- The package without the state a loss of VIN or a cold reset takes (R419): the always-on registers, the I3C port and mailbox, the flash, the
fuses and the key counters stay. -/
def State.coldState (s : State) : State :=
  ({ State.reset with
    regs := s.regs.filter fun e => alwaysOn e.1, mem := s.mem.filter fun c => inFlash c.1 || inI3cMailbox c.1, keys := { next := s.keys.next, handles := s.keys.handles },
    boot := { vin := s.boot.vin, vaux := s.boot.vaux, warmPin := s.boot.warmPin, idReset := s.boot.idReset },
    i3c := s.i3c, fuses := s.fuses, pcie := { perst := s.pcie.perst, pmeDue := s.pcie.pmeDue },
    pins := { thermtrip := s.pins.thermtrip }, pwr := { trip := s.pwr.trip }, out := s.out, free := s.free, pending := s.pending } :
    State).keepI3cMailbox s

/-- The parts of registers a warm reset keeps beside whole ones (R43, R91, R226, *MBX_RED_STATUS*). -/
def State.keepFields (t s : State) : State :=
  let t := (t.setFld RING_CFG_period_pending (s.fld RING_CFG_period_pending)).setFld RING_STATUS_period s.period
  let t := t.forEach (List.range 18) fun l t =>
    t.setFld (LIMB_TRAINED_retrain_count l) (s.fld (LIMB_TRAINED_retrain_count l))
  let t := t.forEach (List.range 144) fun i t =>
    ((t.setFld (TWIG_STATUS_spare_phys i) (s.fld (TWIG_STATUS_spare_phys i))).setFld (TWIG_STATUS_oos_count i)
      (s.fld (TWIG_STATUS_oos_count i))).setFld (TWIG_STATUS_degraded i) (s.fld (TWIG_STATUS_degraded i))
  let t := (t.setFld HBM_KEY_STATUS_loaded (s.fld HBM_KEY_STATUS_loaded &&& 0x10000)).setFld HBM_STATUS_hot 0
  let t := (t.setFld HBM_STATUS_self_refresh (s.fld HBM_STATUS_trained)).setFlag CLK_STATUS_mon_running (s.flag CLK_MON_CFG_mon_en)
  let t := ((t.setFld MBX_RED_STATUS_a_healthy 0).setFld MBX_RED_STATUS_b_healthy 0).setFld MBX_RED_STATUS_takeover_running 0
  ((t.setFld MBX_RED_STATUS_drill_running 0).setFld MBX_RED_STATUS_lease_left 0).setFld MBX_RED_STATUS_a_health_rings 0

/-- The package right after a warm reset (R422, R424). -/
def State.warmState (s : State) : State :=
  (({ State.reset with
    regs := s.regs.filter fun e => warmKeeps e.1, mem := s.mem.filter fun c => warmMem c.1, lines := s.lines,
    leaves := (s.leaves.map fun e => (e.1, { e.2 with queue := [], clock := false })).filter fun e => e.2 != {},
    limbs := (s.limbs.map fun e => (e.1, ({ cached := e.2.cached } : Limb))).filter fun e => e.2 != {},
    hbm := { fillKey := s.hbm.fillKey, rowHits := s.hbm.rowHits, spared := s.hbm.spared, copying := s.hbm.copying,
             badRows := s.hbm.badRows, fenced := s.hbm.fenced },
    keys := { slots := s.keys.slots.filter fun e => e.1 == 16, next := s.keys.next, handles := s.keys.handles },
    boot := { vin := s.boot.vin, vaux := s.boot.vaux, warmPin := s.boot.warmPin, idReset := s.boot.idReset, everDone := true, cold := false },
    hw := { log := s.hw.log }, i3c := s.i3c, fuses := s.fuses, leafRst := s.leafRst.map fun x => (x.1, x.2.1, 0),
    pcie := { perst := s.pcie.perst, pmeDue := s.pcie.pmeDue }, pins := { thermtrip := s.pins.thermtrip }, pwr := { trip := s.pwr.trip },
    out := s.out, free := s.free, pending := s.pending } : State).keepI3cMailbox s).keepFields s

/-- A bring-up starts (R426): ID_BOOT shows its path and cause. -/
def State.beginBringup (s : State) (cold : Bool) (cause : Nat) : State :=
  let s := ((s.setFld ID_BOOT_path (if cold then 1 else 2)).setFld ID_BOOT_done 0).setFld ID_BOOT_fail 0
  let s := ((s.setFld ID_BOOT_stage (if cold then 0 else 1)).setFld ID_BOOT_fail_cause 0).setFld ID_BOOT_last_cause cause
  s.onBoot fun b => { b with cold }

/-- A transfer a warm reset ends leaves its bank empty (R451). -/
def State.endTransfer (s : State) : State :=
  if s.transferring && decide (s.token ≠ 0) then s.markBank s.inactiveBank 0 6 (List.replicate 48 0#8) else s

/-- Each ACTIVE limb sends STATUS HOLD (R422). -/
def State.sayHold (s : State) : State :=
  s.forEach (List.range 18) fun l s => if s.limbActive l then s.sendControl l 0x04 (leBytes 1 9) else s

/-- A warm reset takes effect (R422-R424); before any bring-up has completed it is a cold reset (R423). -/
def State.warmReset (s : State) (cause : Nat) : State :=
  let s := s.count ID_RESET_COUNT_warm_count 1
  if s.boot.everDone then (s.endTransfer.sayHold.warmState).beginBringup false cause
  else s.coldState.beginBringup true cause

/-! ### Supplies -/

/-- VIN_APPLIED (R395): a cold reset; VAUX must be present. -/
def execVinApplied (s : State) : Res :=
  s.when s.boot.vaux
    (let s := (s.count ID_RESET_COUNT_cold_count 1).setFld ID_RESET_COUNT_warm_count 0
     let s := ({ s with boot := { s.boot with vin := true, idReset := [] } }).coldState
     s.beginBringup true 0)

/-- A record being programmed when VIN is lost without the hold-up store (R439, R441, R457): either a part of its content, the seal
erased, or its content and a part of its seal; a free choice (log entry 24). -/
def State.tearRecord (s : State) : State :=
  let r := s.journal
  match (List.range 128).find? fun p => s.pageFree r.half p with
  | none => s
  | some p =>
    let b := 1 - r.active
    let r : JRecord := { r with state0 := 3, state1 := 3 }
    let id := s.bankIdent b
    let whole := ({ r with active := b, version := id.1, arb := id.2, seq := r.seq + 1 } : JRecord).toBytes 2 (s.rd RING_TIME).toNat
    let early := s.freeWord.getLsbD 0
    let torn := (List.range 256).map fun i =>
      if i < 248 then (if early then whole.getD i 0xFF#8 ||| Config.torn (s.free + 1) i else whole.getD i 0xFF#8)
      else if early then 0xFF#8 else Config.torn (s.free + 1) i
    (s.flashProgram (journalAt r.half p) torn).drawn.drawn

/-- VIN_LOST (R423, R457, R500): the pause's commit is finished by the hold-up store while refuse_holdup is 1, HOLD_N asserted. -/
def execVinLost (s : State) : Res :=
  s.when s.boot.vin
    (let due := s.hw.pausing && s.fw.activate
     let saved := due && s.flag FLASH_POLICY_refuse_holdup
     let time := (s.rd RING_TIME).toNat
     let s := s.tearFlash
     let s := if due && !saved then s.tearRecord else s
     let s := ({ s with boot := { s.boot with vin := false, idReset := [] } }).coldState
     let s := ((s.setFld PWR_STATUS_state 4).setFlag PWR_WAKE_wake_n false).onPins fun p => { p with thermtrip := false, hold := saved }
     { s with boot := { s.boot with holdup := if saved then some time else none }, pwr := {} })

/-- HOLDUP_COMMIT_DONE (R397, R457, R500): the record with cause 2 is written. -/
def execHoldupCommitDone (s : State) : Res :=
  match s.boot.holdup with
  | none => .next s
  | some time =>
    -- FLASH registers have no power: only the flash changes.
    let t := s.activateBank s.inactiveBank 3 3 2 time
    .next (({ s with mem := t.mem }.onBoot fun b => { b with holdup := none }).onPins fun p => { p with hold := false })

/-- The identity of the always-on domain's fuse bank (R489, R491). -/
def State.auxFuses (s : State) : State :=
  let w := fun (bs : List Byte) (o : Nat) => BitVec.ofNat 64 (bytesAt bs o 8)
  let s := ((s.wr (ID_SERIAL 0) (w s.fuses.serial 0)).wr (ID_SERIAL 1) (w s.fuses.serial 8)).wr (ID_SERIAL 2) (w s.fuses.substrate 0)
  s.setFld ID_I3C_pid (0x0BE7 * 2 ^ 33 + crc32c (padTo 16 s.fuses.serial))

/-- The always-on domain without its state: its registers, the I3C port and the I3C mailbox (R326, R490). -/
def State.loseAux (s : State) : State :=
  { s with regs := s.regs.filter fun e => !alwaysOn e.1, mem := s.mem.filter fun c => !inI3cMailbox c.1, i3c := {} }.onHw fun h =>
    { h with evtSeq := h.evtSeq.filter fun e => e.1 != 17, evtLost := h.evtLost.filter fun e => e.1 != 17 }

/-- VAUX_RISE (R489, R490): the always-on domain starts at its reset values, with its fuses read. -/
def execVauxRise (s : State) : Res := .next (s.loseAux.onBoot fun b => { b with vaux := true }).auxFuses

/-- VAUX_LOSS (R490): the always-on state is lost, the pins are not driven. -/
def execVauxLoss (s : State) : Res :=
  s.when s.boot.vaux ({ s.loseAux with pins := {} }.onBoot fun b => { b with vaux := false })

/-- HOLDUP_CHARGED (R397). -/
def execHoldupCharged (s : State) : Res :=
  s.when s.boot.vin
    ((s.setFld PWR_HOLDUP_charge (s.fld PWR_HOLDUP_commit_threshold)).setFlag PWR_HOLDUP_holdup_ok true)

/-! ### Warm resets (R421) -/

/-- WARM_RST_N_ASSERT (R421): the package stays in reset. -/
def execWarmRstNAssert (s : State) : Res :=
  s.when (s.pinsLive && !s.boot.warmPin) ((s.warmReset 1).onBoot fun b => { b with warmPin := true })

/-- WARM_RST_N_DEASSERT (R421): bring-up starts. -/
def execWarmRstNDeassert (s : State) : Res :=
  s.when s.boot.warmPin (s.onBoot fun b => { b with warmPin := false })

/-- The value of ID_BOOT.last_cause for the path of an ID_RESET write. -/
def resetCause : Origin → Nat
  | .pf0 => 2
  | .i3c => 3
  | .csrWrite | .heartwood _ | .vf _ => 4

/-- A write to ID_RESET (R421). -/
def State.writeIdReset (s : State) (o : Origin) (v : Word) : State :=
  if bitsOf v.toNat 63 48 = 0x5752 ∧ v.getLsbD 0 then s.onBoot fun b => { b with idReset := b.idReset ++ [resetCause o] } else s

/-- ID_RESET_WRITE (R421). -/
def execIdResetWrite (o : Origin) (v : Word) (s : State) : Res := s.when s.boot.vin (s.csrFrom o fun s => s.writeIdReset o v)

/-- ID_RESET_EFFECT (R421). -/
def execIdResetEffect (s : State) : Res :=
  match s.boot.idReset with
  | [] => .next s
  | c :: rest => .next ((s.onBoot fun b => { b with idReset := rest }).warmReset c)

/-! ### R33 and stages 0 to 3 -/

/-- The latest stage started (ID_BOOT.stage). -/
def State.stage (s : State) : Nat := s.fld ID_BOOT_stage

/-- Bring-up runs. -/
def State.booting (s : State) : Bool := s.powered && !s.flag ID_BOOT_done && !s.flag ID_BOOT_fail && !s.safeHold

/-- REGULATION_UP (R426): stage 0 ends. -/
def execRegulationUp (s : State) : Res := s.when (s.booting && s.stage == 0) (s.setFld ID_BOOT_stage 1)

/-- REF_EDGES_PRESENT (R33 step 1). -/
def execRefEdgesPresent (s : State) : Res :=
  s.when (s.booting && s.stage == 1 && s.clk.r33 == .waitEdges)
    ((s.setFlag CLK_STATUS_ref_valid true).onClk fun c => { c with r33 := .trimming })

/-- IOSC_TRIM_DONE (R33 steps 2 and 3, R58): with clk_lock the trim and mon_en stay. -/
def execIoscTrimDone (trim : Nat) (s : State) : Res :=
  s.when (s.booting && s.clk.r33 == .trimming)
    (let s := if s.flag CLK_MON_CFG_clk_lock then s else (s.setFld CLK_IOSC_TRIM_trim trim).setFlag CLK_MON_CFG_mon_en true
     let s := (s.setFlag CLK_STATUS_iosc_trimmed true).setFlag CLK_STATUS_mon_running (s.flag CLK_MON_CFG_mon_en)
     s.onClk fun c => { c with r33 := .windows, windows := 0 })

/-- Whether the link may train (R484, R64): PERST_N is deasserted, the endpoint released and clocked (R55), and the
reference has not failed. -/
def State.linkReady (s : State) : Bool := s.powered && s.boot.endpoint && !s.pcie.perst && bitOf s.gates 14 && !s.flag CLK_STATUS_on_iosc

/-- The endpoint alone is reset (R484): configuration space, SR-IOV settings and MSI-X state of every function. A wake that waits to be
sent stays (R488). -/
def State.resetEndpoint (s : State) : State := s.onPcie fun p => { perst := p.perst, pmeDue := p.pmeDue }

/-- The widths the link trains at (R481). -/
def linkWidths : List Nat := [16, 8, 4, 2, 1]

/-- The rates of PCI Express Base 6.0 the link trains at, in GT/s, 2.5 as 2 (R481). -/
def linkRates : List Nat := [64, 32, 16, 8, 5, 2]

/-- The link trains when it may, at a width and a rate of R481 that the link partner decides as much as the endpoint: free among them (log entry
16). -/
def State.trainLink (s : State) : State :=
  if s.linkReady then
    let w := s.freeWord.toNat
    s.drawn.onPcie fun p => { p with link := true, width := linkWidths.getD (w % 5) 16, rate := linkRates.getD (w / 8 % 6) 64 }
  else s.onPcie fun p => { p with link := false, width := 0, rate := 0 }

/-- MONITOR_WINDOWS_PASSED (R33 step 4, R65, R484): 16 windows in a row have passed; the management PLL and the PCIe reference start, the
endpoint is released. -/
def execMonitorWindowsPassed (s : State) : Res :=
  s.when (s.booting && s.clk.r33 == .windows && decide (16 ≤ s.clk.windows))
    ((s.onClk fun c => { c with r33 := .finished }).onBoot fun b => { b with endpoint := true }).trainLink

/-- The fuses read at a cold bring-up (R437). -/
def State.readFuses (s : State) : State :=
  let s := s.auxFuses.forEach (List.range 6) fun d s => s.wr (ID_DIE d) (s.fuses.dies.getD d 0#64)
  let s := s.forEach (List.range 144) fun t s =>
    s.wr (ID_FUSE_SPARE t) (s.fuses.spares.get (BitVec.ofNat 64 (0x3F <<< 33)) t)
  s.forEach (List.range 12) fun k s => s.setFld (HBM_SPARE_rows_left k) (s.fuses.rowsLeft.getD k 0)

/-- A new key for a slot (R199). -/
def State.newKey (s : State) (slot : Nat) : State :=
  (s.onKeys fun k => { k with slots := k.slots.set 0 slot k.next, next := k.next + 1 }).setFld HBM_KEY_STATUS_loaded
    (s.fld HBM_KEY_STATUS_loaded ||| (1 <<< slot))

/-- A stage fails (R429). -/
def State.failBringup (s : State) (cause : Nat) : State :=
  let s := ((s.setFlag ID_BOOT_fail true).setFld ID_BOOT_fail_cause cause).enterSafeHold
  if cause = 1 then (s.setFlag FLASH_STATUS_recovery true).setFld FLASH_REC_CTRL_rec_state 1 else s

/-- TAPROOT_STAGE_DONE (R426, R430, R437, R458): the newest record is resealed, a bank chosen and its verified images loaded. -/
def execTaprootStageDone (c0 c1 : BankCheck) (s : State) : Res :=
  s.when (s.booting && s.stage == 1 && s.clk.r33 == .finished)
    (let s := if s.boot.cold then s.readFuses.newKey 16 else s
     let r := s.journal
     let s := if s.newestRecord.isSome then s.flashProgram (journalAt r.half r.page + 248) (List.replicate 8 0#8) else s
     let s := (s.setFld FLASH_STATUS_floor s.fuses.floor).showJournal r
     match s.chooseBank c0 c1 with
     | none => s.failBringup 1
     | some b =>
       let s := if b = r.active then s else s.activateBank b 3 (r.stateOf (1 - b)) 4 0
       let id := s.bankIdent b
       let s := s.showImage id.1 id.2
       let c := if b = 0 then c0 else c1
       (s.setFld ID_BOOT_stage 2).onBoot fun x => { x with imgA := c.imageA, imgB := c.imageB })

/-- The first holder of the token; in stage 2 it ends the stage (R426, R431). -/
def State.takeFirst (s : State) (h : Nat) : State :=
  let s := s.firstToken h
  if s.stage = 2 then s.setFld ID_BOOT_stage 3 else s

/-- HEARTWOOD_READY (R431, R382): also of a Heartwood that boots again, which then holds the full mirror. While no ring counter runs
the token is given at once (log entry 28). -/
def execHeartwoodReady (h : Side) (s : State) : Res :=
  s.when (s.powered && !s.safeHold && decide (2 ≤ s.stage) && (match h with | .a => s.boot.imgA | .b => s.boot.imgB))
    (let s := (s.setHealthy (sideNo h) true).onHw fun x => { x with records := x.records.map fun r => { r with held := true } }
     if s.token = 0 ∧ h = .a ∧ !s.clk.ringOn then s.takeFirst 1 else s)

/-- TOKEN_B_FALLBACK (R431). -/
def execTokenBFallback (s : State) : Res :=
  s.when (s.powered && !s.safeHold && s.token == 0 && s.healthy 2 && !s.healthy 1) (s.takeFirst 2)

/-- RING_LCLK shows the counts of the ring that starts (R44, R47). -/
def State.showRing (s : State) : State :=
  let n := s.ringLen
  let l := s.slotLen
  ((s.setFld RING_LCLK_slot_lclk l).setFld RING_LCLK_guard_lclk (n - 62 * l)).setFld RING_LCLK_ring_lclk n

/-- CLOCK_STAGE_DONE (R39, R426): the clocks run at T4, the ring counter runs, the knots are reset, the limbs start training. -/
def execClockStageDone (s : State) : Res :=
  s.when (s.booting && s.stage == 3)
    (let s := ((s.setFld CLK_STATUS_leaf_mult 6).setFld PWR_STATUS_tier 4).setFld ID_BOOT_stage 5
     let s := { (s.onClk fun c => { c with ringOn := true, slot := 0 }) with knots := [], mirrors := [], kops := [], fires := [] }
     let s := (s.wr RING_TIME 0#64).showRing
     s.forEach (List.range 18) fun l s => if s.flag (LIMB_CFG_enable l) then s.startTraining l else s)

/-! ### HBM and leaves -/

/-- HBM_STAGE_DONE (R204, R205, R208, R426, R433): cold, the groups of stacks that failed twice are fenced and every line holds zeros
under slot 16; warm, HBM leaves self-refresh, marked pseudo-channels are replaced and repairs are permanent. -/
def execHbmStageDone (failed : Nat) (s : State) : Res :=
  s.when (s.booting && decide (4 ≤ s.stage) && !s.boot.hbmDone)
    (let s := s.onBoot fun b => { b with hbmDone := true }
     if s.boot.cold then
       let groups := (List.range 4).filter fun g => (List.range 3).any fun k => bitOf failed (3 * g + k)
       let good := maskOfList ((List.range 12).filter fun k => !groups.contains (k / 3))
       let s := ((s.setFld HBM_STATUS_trained good).setFld HBM_STATUS_bist_pass good).setFld ID_BOOT_stack_failed (failed % 4096)
       let key := s.slotKey 16
       let s := { s with mem := Memory.blank s.mem 0 hbmTop, lines := [] }
       s.onHbm fun h => { h with
         fenced := groups, fillKey := if key = 0 then [] else (List.range 576).map fun g => (g, key), copying := [] }
     else
       let s := (s.setFld HBM_STATUS_self_refresh 0).onHbm fun h => { h with copying := [] }
       let s := { s with fuses := { s.fuses with rowsLeft := (List.range 12).map fun k => s.fld (HBM_SPARE_rows_left k) } }
       s.forEach (List.range 12) fun k s =>
         if s.flag (HBM_SPARE_pc_pending k) then (s.setFlag (HBM_SPARE_pc_pending k) false).setFlag (HBM_SPARE_pc_used k) true else s)

/-- The fail_cause values of a stage (*Bring-up stages*): the stages after the third do not fail as a whole. -/
def stageCauses (stage : Nat) : List Nat := [[], [1], [2], [3, 4, 5]].getD stage []

/-- BRINGUP_STAGE_TIMEOUT (R426, R429): the stage fails with a cause of its own; cause 0 is stage 0, whose failure leaves the package off. While RACK_REF is absent Taproot waits
indefinitely (R33), so no bound of stage 1 runs out before R33 has ended (R511). -/
def execBringupStageTimeout (cause : Nat) (s : State) : Res :=
  s.when (s.booting && (stageCauses s.stage).contains cause && !(s.stage == 1 && s.clk.r33 != .finished)) (s.failBringup cause)

/-- LEAF_STAGE_START (R426, R435): at a ring boundary with the HBM and limb stages ended; its ring is *B*. The bough buffers and fold buffers are
to be zeroized. -/
def execLeafStageStart (s : State) : Res :=
  s.when (s.booting && s.stage == 5 && s.boot.hbmDone && s.clk.slot == 0 &&
      !(List.range 18).any fun l => decide (1 ≤ s.limbState l) && decide (s.limbState l ≤ 7))
    (let s := (s.setFld ID_BOOT_stage 6).onBoot fun b => { b with leafRing := s.rings }
     let s := (s.onHbm fun h => { h with bbufDirty := (List.range 4).flatMap fun b => (List.range 64).map fun g => (b, g) }).bbufCounts
     (s.onColl fun c => { c with dirty := allUnits }).zeroUnits)

/-- The twigs of a leaf wave (R435). -/
def waveTwigs (w : Nat) : List Nat := (List.range 18).map fun i => w + 8 * i

/-- The clocks of a leaf wave are enabled (R435): cold, every leaf is clocked for its scan; warm, the leaves in service are clocked and all are
zeroized. -/
def State.enableWave (s : State) (w : Nat) : State :=
  let s := s.onBoot fun b => { b with waves := w :: b.waves }
  s.forEach (waveTwigs w) fun t s =>
    let s := if s.boot.cold then s else s.zeroizeTwig t
    s.forEach (List.range 33) fun p s => if s.boot.cold || !s.isOos t p then s.onLeaf t p fun l => { l with clock := true } else s

/-- Whether the clocks of a leaf wave are to be enabled in this guard band: step 2 of that of ring *B* + 4*w* (R435). -/
def State.waveDue (s : State) (w : Nat) : Bool :=
  s.booting && s.stage == 6 && decide (w < 8) && !s.boot.waves.contains w && s.inStep2 (s.boot.leafRing + 4 * w)

/-- LEAF_WAVE_ENABLE (R435). -/
def execLeafWaveEnable (w : Nat) (s : State) : Res := s.when (s.waveDue w) (s.enableWave w)

/-- The leaf waves that are due and have not been enabled by their rows (log entry 74). -/
def State.wavesDue (s : State) : State := s.forEach (List.range 8) fun w s => if s.waveDue w then s.enableWave w else s

/-- The cold slot map of a twig (R434): `fails` are the positions that failed the scan. -/
def State.coldMap (s : State) (t : Nat) (fails : List Nat) : State :=
  let bad := s.fld (ID_FUSE_SPARE_bad_mask t)
  let fspare := s.fld (ID_FUSE_SPARE_fuse_spare t)
  let good := (List.range 33).filter fun p => !bitOf bad p && !fails.contains p
  let spare := if good.length = 33 then (if good.contains fspare then fspare else 32) else 0x3F
  let serve := good.filter fun p => p != spare
  let s := s.forEach (List.range 32) fun i s =>
    match serve[i]? with
    | some p => ((s.setSlot t i (some p)).setSlotEpoch t i 1).onLeaf t p fun l => { l with stamp := 1, clock := true }
    | none => (s.setSlot t i none).setSlotEpoch t i 0
  let s := s.forEach ((List.range 33).filter fun p => !good.contains p) fun p s =>
    (s.setOos t p true).onLeaf t p fun l => { l with stamp := 0, clock := false }
  (s.setFld (TWIG_STATUS_spare_phys t) spare).refreshDegraded t

/-- LEAF_WAVE_SCAN_DONE (R434, R435): cold only, in the guard band of ring *B* + 4*w* + 64; the maps are built and the wave is zeroized. -/
def execLeafWaveScanDone (w : Nat) (failed : List (Nat × Nat)) (s : State) : Res :=
  s.when (s.booting && s.boot.cold && s.boot.waves.contains w && !s.boot.scanned.contains w && s.inStep2 (s.boot.leafRing + 4 * w + 64))
    (let s := s.onBoot fun b => { b with scanned := w :: b.scanned }
     s.forEach (waveTwigs w) fun t s =>
       (s.coldMap t ((failed.filter fun e => e.1 == t).map (·.2))).zeroizeTwig t)

/-- BRINGUP_COMPLETE (R435, R436, R452): at the boundary that ends ring *B* + 92, warm *B* + 63, with every wave done; the floor rises to the
running image's arb; the sequencer starts. -/
def execBringupComplete (bootMs : Nat) (s : State) : Res :=
  s.when (s.booting && s.stage == 6 && s.boot.waves.length == 8 && (!s.boot.cold || s.boot.scanned.length == 8) && s.clk.slot == 0
      && decide (s.boot.leafRing + (if s.boot.cold then 93 else 64) ≤ s.rings))
    (let s := ((s.setFlag ID_BOOT_done true).setFld ID_BOOT_boot_ms (min (2 ^ 24 - 1) bootMs)).onBoot fun b => { b with everDone := true }
     (s.raiseFloor (s.fld FLASH_STATUS_active_arb)).pwrDirty)

/-! ### The clock monitor (R58-R65) -/

/-- A declared reference failure (R63, R64, R511): its event bit is set; before the management PLL runs Taproot starts R33 again;
afterwards the package fails over and enters Safe Hold. -/
def State.referenceFailure (s : State) (ev : Fld) : State :=
  let s := s.setFlag ev true
  if s.clk.r33 != .finished then s.onClk fun c => { c with r33 := .waitEdges, windows := 0 }
  else
    let s := (s.setFlag CLK_STATUS_on_iosc true).setFld CLK_STATUS_standby_locked 0
    let s := (s.setFld RING_STATUS_epoch_valid 0).setFld RING_STATUS_epoch_src 0
    let s := s.onClk fun c => { c with ringOn := false, standby := none, standbyLocked := false, lockSeen := false, band := 0 }
    let s := (s.setFlag MBX_CAL_STATUS_valid false).onPcie fun p => { perst := p.perst, pmeDue := p.pmeDue }
    s.enterSafeHold

/-- Whether the clock monitor counts: it belongs to the always-on domain and runs with VIN present, a warm reset held or not (R62). -/
def State.monitors (s : State) : Bool := s.boot.vin && s.flag CLK_STATUS_mon_running

/-- A window that passes counts toward the 16 of R33 step 4. -/
def State.windowPassed (s : State) : State :=
  if s.clk.r33 = .windows then s.onClk fun c => { c with windows := c.windows + 1 } else s

/-- MONITOR_WINDOW_END (R59). -/
def execMonitorWindowEnd (count : Nat) (s : State) : Res :=
  s.when s.monitors
    (let s := (s.setFld CLK_MON_COUNT_last_count count).setFld CLK_MON_COUNT_min_count (min count (s.fld CLK_MON_COUNT_min_count))
     let s := s.setFld CLK_MON_COUNT_max_count (max count (s.fld CLK_MON_COUNT_max_count))
     if s.fld CLK_MON_CFG_pass_lo ≤ count ∧ count ≤ s.fld CLK_MON_CFG_pass_hi then s.windowPassed
     else s.referenceFailure CLK_EVENT_mon_fail)

/-- EDGE_TIMEOUT (R61). -/
def execEdgeTimeout (s : State) : Res :=
  s.when s.monitors
    ((s.setFlag CLK_STATUS_ref_valid false).referenceFailure CLK_EVENT_edge_loss)

/-- PLL_UNLOCK (R62). -/
def execPllUnlock (s : State) : Res :=
  s.when s.monitors (s.referenceFailure CLK_EVENT_pll_unlock)

end Sys2Proof.Machine
end

