-- ==== Sys2Proof/Machine/Knots.lean ====
section
/-! DEFINITION. Knots (06_knots_and_latency.md): ownership, operations in flight, the combined update, fires, mirrors. -/

namespace Sys2Proof.Machine

/-- Serial order modulo 2^n (R166). -/
def serialGe (n x y : Nat) : Bool := decide ((x + 2 ^ n - y % 2 ^ n) % 2 ^ n < 2 ^ (n - 1))

/-- The stand that owns a knot, by the ownership in force (R164). -/
def State.knotOwner (s : State) (k : Nat) : Option Nat :=
  if s.liveFlag (KNOT_GRANULE_OWNER_valid (k / 16)) then some (s.liveFld (KNOT_GRANULE_OWNER_stand (k / 16))) else none

/-- Count a foreign access or operation (R163, R164). -/
def State.knotForeign (s : State) : State :=
  (s.count KNOT_STATUS_foreign_count 1).setFlag KNOT_EVENT_foreign true

/-- Count an operation discarded for its mode (R167). -/
def State.knotModeErr (s : State) : State :=
  (s.count KNOT_STATUS_mode_err_count 1).setFlag KNOT_EVENT_mode_err true

/-- The lclk known to the model moves on, never back (log entry 29). -/
def State.atLclk (s : State) (t : Nat) : State :=
  let s := s.onClk fun c => { c with now := max c.now t }
  if s.clk.ringOn then s.setFld RING_TIME_ref_cycle (s.timeAt s.clk.now).1 else s

/-- The bough a knot is homed on (R162). -/
def knotHome (k : Nat) : Nat := k / 1024

/-- The lclk an operation of an NI or window needs from its entry to the home slice (R175): 8 on a bough of the die, 44 across. -/
def ioPath (io k : Nat) : Nat := if knotHome k / 2 = io then 8 else 44

/-- The lclk a leaf's operation needs to the home slice (R176). -/
def leafPath (leaf k : Nat) : Nat :=
  let t := leaf / 32
  let b := t / 36
  let x := t % 36 % 6
  let y := t % 36 / 6
  let dist := fun (a b : Nat) => (a - b) + (b - a)
  let h := knotHome k
  let across := (6 - x) + dist y 2
  let far := dist x 2 + (6 - y)
  if h = b then 4 + 2 * (dist x 1 + y + 1)
  else if h = b ^^^ 1 then 4 + 2 * (across + 8) + 8
  else if h = b ^^^ 2 then 4 + 2 * (far + 8) + 8
  else 4 + 2 * (across + 8 + 8) + 16

/-- The source order of R168 of an NI and of a knot window, after the leaves' own numbers. -/
def niSource (io : Nat) : Nat := 4608 + io
/-- The source order of a knot-window access. -/
def windowSource : Nat := 4610

/-- Whether an operation is combined with others of its knot that it meets (R168). -/
def KnotOp.combines (o : KnotOp) : Bool :=
  match o.kind with
  | .arrive | .add | .signal => true
  | _ => false

/-- Whether `o` may have to wait for `p` (R179): both of one stand, `p` first in order of issue and then of source, not combined with it, and
still on its way when `o` is issued. -/
def KnotOp.waitsFor (o p : KnotOp) : Bool :=
  p.stand == o.stand && (decide (p.issue < o.issue) || (p.issue == o.issue && decide (p.source < o.source)))
    && !(p.knot == o.knot && p.combines && o.combines) && (p.waits && p.home.isNone || decide (o.issue ≤ p.home.getD p.due))

/-- The operations in flight with one more; which of them may have to wait is noted (log entry 31). -/
def addKop (ops : List KnotOp) (o : KnotOp) : List KnotOp :=
  (ops.map fun p => if p.home.isNone && p.waitsFor o then { p with waits := true } else p) ++ [{ o with waits := ops.any o.waitsFor }]

/-- Put an operation in flight. -/
def State.sendKnot (s : State) (k : Nat) (kind : KnotOpKind) (data : Nat) (stand : Option Nat) (source issue path : Nat) : State :=
  { s.atLclk issue with kops := addKop s.kops { knot := k, kind, data, stand, source, issue, due := issue + path } }

/-- Whether a window access reaches a knot (R163, R304): none for a path without a knot window or a stand that is not ACTIVE. -/
def State.knotAccess (s : State) (o : Origin) (k : Nat) : Option Bool :=
  match o with
  | .pf0 => some (s.knotOwner k).isNone
  | .vf st => if s.standState st = 2 then some (s.knotOwner k == some st) else none
  | _ => none

/-- The stand an origin's operation carries. -/
def originStand : Origin → Option Nat
  | .vf st => some st
  | _ => none

/-- A write to a word of a knot's record (R163, R165). -/
def State.knotWrite (s : State) (o : Origin) (k : Nat) (kind : KnotOpKind) (data t : Nat) : State :=
  match s.knotAccess o k with
  | none => s
  | some false => s.knotForeign
  | some true => s.sendKnot k kind data (originStand o) windowSource t (ioPath 0 k)

/-- KNOT_ADD (R165). -/
def execKnotAdd (o : Origin) (k data t : Nat) (s : State) : Res :=
  s.when (decide (k < 4096)) (s.knotWrite o k .add (data % 2 ^ 32) t)

/-- KNOT_SET (R167). -/
def execKnotSet (o : Origin) (k data t : Nat) (s : State) : Res :=
  s.when (decide (k < 4096)) (s.knotWrite o k .set (data % 2 ^ 32) t)

/-- KNOT_SIGNAL (R165). -/
def execKnotSignal (o : Origin) (k data t : Nat) (s : State) : Res :=
  s.when (decide (k < 4096)) (s.knotWrite o k .signal (data % 2 ^ 32) t)

/-- KNOT_ARRIVE (R165). -/
def execKnotArrive (o : Origin) (k t : Nat) (s : State) : Res :=
  s.when (decide (k < 4096)) (s.knotWrite o k .arrive 1 t)

/-- KNOT_THRESH_WRITE (R167). -/
def execKnotThreshWrite (o : Origin) (k : Nat) (v : Word) (t : Nat) (s : State) : Res :=
  s.when (decide (k < 4096)) (s.knotWrite o k .thresh v.toNat t)

/-- KNOT_CONFIG_WRITE (R167). -/
def execKnotConfigWrite (o : Origin) (k : Nat) (v : Word) (t : Nat) (s : State) : Res :=
  s.when (decide (k < 4096)) (s.knotWrite o k .config (v.toNat % 16) t)

/-- A mode's code (*Knot record*). -/
def KnotMode.code : KnotMode → Nat
  | .count => 0
  | .flags => 1
  | .barrier => 2

/-- A word of a knot's record (*Knot record*); the WO words read 0. -/
def Knot.word (x : Knot) (w : Nat) : Word :=
  match w with
  | 0 => BitVec.ofNat 64 (x.value.toNat + x.gen.toNat * 2 ^ 32 + x.mode.code * 2 ^ 50 + bit x.armed * 2 ^ 52)
  | 1 => BitVec.ofNat 64 (x.thresh.toNat + x.step.toNat * 2 ^ 32)
  | 2 => BitVec.ofNat 64 (x.niMask.toNat * 4 + x.mode.code)
  | 3 => x.fireTime
  | _ => 0#64

/-! ### The combined update (R167-R170) -/

/-- The modes an operation is allowed in (R166). SET, THRESH and CONFIG are allowed in all. -/
def KnotOpKind.allowed (kind : KnotOpKind) (m : KnotMode) : Bool :=
  match kind, m with
  | .arrive, .flags => false
  | .add, .flags => false
  | .add, .barrier => false
  | .signal, .count => false
  | .signal, .barrier => false
  | _, _ => true

/-- The sum of the arrivals and additions of an update. -/
def addsOf (ops : List KnotOp) : Nat :=
  (ops.map fun o => match o.kind with | .arrive => 1 | .add => o.data | _ => 0).sum

/-- The OR of the signals of an update. -/
def signalsOf (ops : List KnotOp) : Nat :=
  ops.foldl (fun m o => match o.kind with | .signal => m ||| o.data | _ => m) 0

/-- The SET of an update that wins: the last in ascending order of source, later in flight after earlier. -/
def setOf (ops : List KnotOp) : Option Nat :=
  (ops.foldl (fun (best : Option KnotOp) o =>
    match o.kind, best with
    | .set, none => some o
    | .set, some b => if b.source ≤ o.source then some o else best
    | _, _ => best) none).map (·.data)

/-- Value and generation after an update (R168, R169). -/
def knotArith (m : KnotMode) (thresh : Nat) (value : BitVec 32) (gen : BitVec 16) (ops : List KnotOp) : BitVec 32 × BitVec 16 :=
  let v := BitVec.ofNat 32 ((value.toNat + addsOf ops) ||| signalsOf ops)
  let (v, g) := match m with
    | .barrier => if thresh = 0 ∨ addsOf ops = 0 then (v, gen)
        else (BitVec.ofNat 32 (v.toNat % thresh), gen + BitVec.ofNat 16 (v.toNat / thresh))
    | _ => (v, gen)
  match setOf ops with
  | some d => (BitVec.ofNat 32 d, g)
  | none => (v, g)

/-- Whether an update fires the knot (R170). -/
def Knot.fires (x : Knot) (value : BitVec 32) (gen : BitVec 16) : Bool :=
  match x.mode with
  | .count => x.armed && !serialGe 32 x.value.toNat x.thresh.toNat && serialGe 32 value.toNat x.thresh.toNat
  | .flags => x.armed && (value &&& x.thresh) == x.thresh && (x.value &&& x.thresh) != x.thresh
  | .barrier => gen != x.gen

/-- What a fire leaves in the knot (R170): the new threshold or a disarmed knot, and whether it fires again in the next lclk. -/
def Knot.fired (x : Knot) (time : Word) : Knot :=
  match x.mode with
  | .count =>
    if x.step = 0 then { x with fireTime := time, armed := false, refire := false }
    else
      let th := x.thresh + x.step
      { x with fireTime := time, thresh := th, refire := serialGe 32 x.value.toNat th.toNat }
  | .flags => { x with fireTime := time, armed := false, refire := false }
  | .barrier => { x with fireTime := time, refire := false }

/-- The fire messages of a knot's fire (R171). -/
def State.sendFires (s : State) (k t : Nat) (x : Knot) : State :=
  s.forEach [0, 1] fun io s =>
    if x.niMask.getLsbD io then
      { s with fires := s.fires ++ [{ io, knot := k, gen := x.gen.toNat, due := t + if knotHome k / 2 = io then 12 else 24 }] }
    else s

/-- A fire of a knot in lclk `t`. -/
def State.fireKnot (s : State) (k t : Nat) : State :=
  let x := s.knot k
  ((s.setKnot k { x.fired (BitVec.ofNat 64 (s.timeAt t).1) with nextFire := t + 1 }).sendFires k t x).frostKnot k

/-- Whether a COUNT knot whose value still stands at or above its threshold fires again (R170). -/
def Knot.again (x : Knot) : Bool := x.refire && x.armed && x.mode == .count && serialGe 32 x.value.toNat x.thresh.toNat

/-- The fires that follow one another up to lclk `t`, at most `n` of them. -/
def State.refires (s : State) (k t : Nat) : Nat → State
  | 0 => s
  | n + 1 =>
    if (s.knot k).again && decide ((s.knot k).nextFire ≤ t) then (s.fireKnot k (s.knot k).nextFire).refires k t n else s

/-- Every fire again that is due by lclk `t`. -/
def State.refiresTo (s : State) (k t : Nat) : State := s.refires k t (t + 1 - (s.knot k).nextFire)

/-- A CONFIG write as it applies (*Knot record*): mode 3 is ignored as a whole; a new mode clears value, generation and armed. -/
def State.knotConfig (s : State) (k v : Nat) : State :=
  let x := s.knot k
  let put := fun (m : KnotMode) =>
    let x := if m = x.mode then x else { x with mode := m, value := 0, gen := 0, armed := false, refire := false }
    s.setKnot k { x with niMask := BitVec.ofNat 2 (v / 4) }
  match v % 4 with
  | 0 => put .count
  | 1 => put .flags
  | 2 => put .barrier
  | _ => s.knotModeErr

/-- Whether the issuer of an operation owns the knot as it arrives (R164); a granule that changes owner in this guard band takes none. -/
def State.knotOwned (s : State) (o : KnotOp) : Bool :=
  s.knotOwner o.knot == o.stand && !s.granules.contains (o.knot / 16)

/-- Whether an operation is a CONFIG that changes the knot's mode. -/
def KnotOp.clears (o : KnotOp) (x : Knot) : Bool :=
  match o.kind with
  | .config => decide (o.data % 4 ≠ 3) && decide (o.data % 4 ≠ x.mode.code)
  | _ => false

/-- The THRESH writes of an update, then its CONFIG writes (R167). -/
def State.knotSettings (s : State) (k : Nat) (ops : List KnotOp) : State :=
  let s := s.forEach ops fun o s => match o.kind with
    | .thresh => s.setKnot k { s.knot k with
        thresh := BitVec.ofNat 32 o.data, step := BitVec.ofNat 32 (o.data / 2 ^ 32), armed := true, refire := false }
    | _ => s
  s.forEach ops fun o s => match o.kind with | .config => s.knotConfig k o.data | _ => s

/-- The operations `hit` picks reach a knot in lclk `t` as one update (R167, R168, R170): discards, the combined update and its fire under the
settings in force, then THRESH, then CONFIG. A knot that has fired in this lclk fires in the next. -/
def State.knotApply (s : State) (k t : Nat) (hit : KnotOp → Bool) : State :=
  let here := s.kops.filter hit
  let x := s.knot k
  let takes := fun (o : KnotOp) => s.knotOwned o && o.kind.allowed x.mode
  let met := fun (o : KnotOp) =>
    if hit o then { o with home := some t, mode := x.mode, thresh := x.thresh.toNat, taken := takes o, cleared := takes o && o.clears x } else o
  let owned := here.filter s.knotOwned
  let ops := here.filter takes
  let s := s.forEach (here.filter fun o => !s.knotOwned o) fun _ s => s.knotForeign
  let s := s.forEach (owned.filter fun (o : KnotOp) => !o.kind.allowed x.mode) fun _ s => s.knotModeErr
  let s := { s with kops := s.kops.map met }
  let (v, g) := knotArith x.mode x.thresh.toNat x.value x.gen ops
  let y := { x with value := v, gen := g }
  let s := s.setKnot k y
  let s := if !x.fires v g && !y.again then s
    else if x.nextFire ≤ t then s.fireKnot k t
    else s.setKnot k { y with refire := y.mode == .count }
  s.knotSettings k ops

/-- An operation that cannot have been delayed reaches the home slice in the lclk of its exact count (R176). -/
def KnotOp.exact (o : KnotOp) (k : Nat) : Bool := o.knot == k && o.home.isNone && !o.waits

/-- The earliest lclk up to `t` in which such an operation reaches a knot. -/
def State.nextDue (s : State) (k t : Nat) : Option Nat :=
  (s.kops.filter fun o => o.exact k && decide (o.due ≤ t)).foldl (fun best o => some (min o.due (best.getD o.due))) none

/-- Every update and fire of a knot that is certain by lclk `t`, lclk by lclk, at most `n` updates. -/
def State.settleHome (s : State) (k t : Nat) : Nat → State
  | 0 => s.refiresTo k t
  | n + 1 =>
    match s.nextDue k t with
    | none => s.refiresTo k t
    | some d => ((s.refiresTo k (d - 1)).knotApply k d fun o => o.exact k && o.due == d).settleHome k t n

/-- A knot at the end of lclk `t`, but for operations that may be delayed. -/
def State.settled (s : State) (k t : Nat) : State := s.settleHome k t s.kops.length

/-- Whether an operation may reach a knot in lclk `t`: in its exact count, or where it may be delayed any number of waits of 2 lclk later (R179;
log entry 31). -/
def KnotOp.reaches (o : KnotOp) (k t : Nat) : Bool :=
  o.knot == k && o.home.isNone && (o.due == t || (o.waits && decide (o.due ≤ t) && (t - o.due) % 2 == 0))

/-- The update of a knot in lclk `t`, after what was due before it. -/
def State.knotUpdate (s : State) (k t : Nat) : State :=
  (if t = 0 then s.atLclk t else (s.atLclk t).settled k (t - 1)).knotApply k t fun o => o.reaches k t

/-- KNOT_UPDATE_APPLY (R168): what reaches a knot by lclk `t` reaches it, while its slice is clocked (R27). -/
def execKnotUpdateApply (k t : Nat) (s : State) : Res := s.when (decide (k < 4096) && s.coreOn (knotHome k)) (s.knotUpdate k t)

/-- KNOT_REFIRE (R170): in the lclk after the last fire. -/
def execKnotRefire (k t : Nat) (s : State) : Res :=
  s.when (decide (k < 4096) && s.coreOn (knotHome k) && (s.knot k).again && decide ((s.knot k).nextFire ≤ t))
    ((s.atLclk t).fireKnot k (s.knot k).nextFire)

/-- A read of a word by an origin in lclk `t` (R163, R174): the home state as of the lclk in which the read reaches the slice. -/
def State.knotRead (s : State) (o : Origin) (k w t : Nat) : Word × State :=
  match s.knotAccess o k with
  | none => (0#64, s)
  | some false => (0#64, s.knotForeign)
  | some true =>
    let s := s.settled k (t + ioPath 0 k)
    ((s.knot k).word w, s)

/-- KNOT_TEST (R174): the word leaves the package as the access's data. -/
def execKnotTest (o : Origin) (k : Nat) (w : WordAt) (s : State) : Res :=
  s.when (decide (k < 4096) && decide (w.word < 8))
    (let r := (s.atLclk w.t).knotRead o k w.word w.t
     r.2.emit (.data (leBytes 8 r.1.toNat) false))

/-! ### Mirrors (R172-R174, R179) -/

/-- A dispatcher's mirror of a knot. -/
def State.mirror (s : State) (b k : Nat) : BitVec 32 × BitVec 16 := s.mirrors.get (0, 0) (b * 4096 + k)

/-- Set the four mirrors of a knot; they apply every operation in the same lclk. -/
def State.setMirrors (s : State) (k : Nat) (x : BitVec 32 × BitVec 16) : State :=
  { s with mirrors := (List.range 4).foldl (fun m b => m.set (0, 0) (b * 4096 + k) x) s.mirrors }

/-- Count an operation whose mirrors apply it after t + 70 (R179). -/
def State.countLate (s : State) (o : KnotOp) : State :=
  match o.home with
  | some h =>
    if o.issue + 70 < h then
      let s := ((s.count KNOT_LATE_COUNT_count 1).setFld KNOT_LATE_COUNT_last_knot o.knot).setFlag KNOT_EVENT_late true
      match o.stand with
      | some st => (s.setFld KNOT_LATE_COUNT_last_stand st).standCtr st 14 1
      | none => s
    else s
  | none => s

/-- The lclk in which the mirrors apply an operation that has reached the home slice: 70 after its issue, or that of the slice if later (R172,
R179). -/
def KnotOp.mirrorAt (o : KnotOp) : Option Nat := o.home.map fun h => max h (o.issue + 70)

/-- The mirrors apply in lclk `d` what is due in it (R172, R179), under the mode and threshold it met at the home slice. -/
def State.mirrorApply (s : State) (k d : Nat) : State :=
  let due := fun (o : KnotOp) => o.knot == k && o.mirrorAt == some d
  let here := s.kops.filter due
  let s := { s with kops := s.kops.filter fun o => !due o }
  let s := s.forEach here fun o s => s.countLate o
  let ops := here.filter fun (o : KnotOp) => s.knotOwned o && o.taken
  let m := s.mirror 0 k
  let new := match ops with
    | [] => m
    | o :: _ => if ops.any (·.cleared) then (0, 0) else knotArith o.mode o.thresh m.1 m.2 ops
  { s with mirrorLog := (s.mirrorLog.filter fun (e : Nat × Nat × BitVec 32 × BitVec 16) => decide (d < e.1 + 2)) ++ [(d, k, m.1, m.2)] }.setMirrors k
    new

/-- The earliest lclk up to `t` in which the mirrors of a knot apply an operation. -/
def State.nextMirror (s : State) (k t : Nat) : Option Nat :=
  (s.kops.filter fun o => o.knot == k).foldl (fun best o =>
    match o.mirrorAt with
    | some m => if m ≤ t then some (min m (best.getD m)) else best
    | none => best) none

/-- The mirrors apply what is due by lclk `t`, lclk by lclk, at most `n` times. -/
def State.mirrorTo (s : State) (k t : Nat) : Nat → State
  | 0 => s
  | n + 1 =>
    match s.nextMirror k t with
    | none => s
    | some d => (s.mirrorApply k d).mirrorTo k t n

/-- A knot and its mirrors at the end of lclk `t`, but for operations that may be delayed. -/
def State.mirrorUpdate (s : State) (k t : Nat) : State := (s.settled k t).mirrorTo k t s.kops.length

/-- Every knot with operations in flight whose slice is clocked, and its mirrors, at the end of lclk `t`. -/
def State.knotsTo (s : State) (t : Nat) : State :=
  s.forEach ((s.kops.map (·.knot)).eraseDups.filter fun k => s.coreOn (knotHome k)) fun k s => s.mirrorUpdate k t

/-- A dispatcher's mirror of a knot as it stood at the end of lclk `t` − 2, where a slot boundary in lclk `t` reads it (R173). -/
def State.mirrorSeen (s : State) (b k t : Nat) : BitVec 32 × BitVec 16 :=
  match s.mirrorLog.find? fun e => e.2.1 == k && decide (t < e.1 + 2) with
  | some e => e.2.2
  | none => s.mirror b k

/-- MIRROR_APPLY (R172). -/
def execMirrorApply (k t : Nat) (s : State) : Res :=
  s.when (decide (k < 4096) && s.coreOn (knotHome k)) ((s.atLclk t).mirrorUpdate k t)

/-! ### Granules (R164) -/

/-- Reset the 16 knots of a granule, their mirrors and their fire counts. -/
def State.resetGranule (s : State) (g : Nat) : State :=
  let clear : {α : Type} → SMap α → Nat → SMap α := fun m o => m.clear (o + 16 * g) (o + 16 * g + 16)
  { s with
    knots := clear s.knots 0, mirrors := (List.range 4).foldl (fun m b => clear m (b * 4096)) s.mirrors,
    ni := { s.ni with fires := clear (clear s.ni.fires 0) 4096 } }

/-- The stand a granule is assigned to as written. -/
def State.granuleWritten (s : State) (g : Nat) : Option Nat :=
  if s.flag (KNOT_GRANULE_OWNER_valid g) then some (s.fld (KNOT_GRANULE_OWNER_stand g)) else none

/-- Commit an ownership entry: a change of owner resets the granule (R164). -/
def State.commitGranule (s : State) (g : Nat) : State :=
  if s.granuleWritten g = s.knotOwner (16 * g) then s.commitReg (KNOT_GRANULE_OWNER g)
  else { (s.commitReg (KNOT_GRANULE_OWNER g)).resetGranule g with granules := g :: s.granules }

end Sys2Proof.Machine
end

