-- ==== Sys2Proof/Machine/Descr.lean ====
section
/-! DEFINITION. Command descriptors and sub-descriptors (05_commands_and_dispatch.md): their fields, the leaf SRAM ranges of R507, the
field ranges of R505 and the costs of R144 to R147. -/

namespace Sys2Proof.Machine

/-! ### Fields of a command descriptor (R140) -/

/-- The opcode. -/
def dOpcode (d : List Byte) : Nat := bytesAt d 0 1
/-- The flags: bit 0 sub_table, 1 wait_en, 2 arrive_en, 3 fence, 4 irq. -/
def dFlag (d : List Byte) (i : Nat) : Bool := bitOf (bytesAt d 1 1) i
/-- Layer and operator ids. -/
def dIds (d : List Byte) : Nat := bytesAt d 4 4
/-- The tag. -/
def dTag (d : List Byte) : Nat := bytesAt d 8 4
/-- leaf_mask. -/
def dLeafMask (d : List Byte) : Nat := bytesAt d 12 4
/-- twig_mask. -/
def dTwigMask (d : List Byte) : Nat := bytesAt d 16 18
/-- The twigs named, rising. -/
def dTwigs (d : List Byte) : List Nat := bitList 144 (dTwigMask d)
/-- The leaves selected, in ascending logical number. -/
def dLeaves (d : List Byte) : List Nat := (dTwigs d).flatMap fun t => (bitList 32 (dLeafMask d)).map fun i => 32 * t + i
/-- The inline sub-descriptor. -/
def dSub (d : List Byte) : List Byte := (d.drop 64).take 64
/-- sub_base. -/
def dSubBase (d : List Byte) : Nat := bytesAt d 48 8
/-- leaf_stride. -/
def dStride (d : List Byte) : Nat := bytesAt d 56 4
/-- wait_knot and wait_op. -/
def dWait (d : List Byte) : Nat × Nat := (bytesAt d 34 2 % 4096, bytesAt d 34 2 / 4096)
/-- arrive_knot and arrive_op. -/
def dArrive (d : List Byte) : Nat × Nat := (bytesAt d 40 2 % 4096, bytesAt d 40 2 / 4096)
/-- The bough of a logical leaf. -/
def leafBough (n : Nat) : Nat := n / 1152

/-! ### Fields of a sub-descriptor (R142) -/

/-- a_fmt. -/
def sAFmt (b : List Byte) : Nat := bytesAt b 0 1 % 16
/-- b_fmt. -/
def sBFmt (b : List Byte) : Nat := bytesAt b 0 1 / 16
/-- out_fmt. -/
def sOut (b : List Byte) : Nat := bytesAt b 1 1 % 16
/-- round_mode. -/
def sRound (b : List Byte) : Nat := bitsOf (bytesAt b 1 1) 5 4
/-- no_drain, or causal. -/
def sBit6 (b : List Byte) : Bool := bitOf (bytesAt b 1 1) 6
/-- align. -/
def sAlign (b : List Byte) : Bool := bitOf (bytesAt b 1 1) 7
/-- bank_mask. -/
def sBanks (b : List Byte) : Nat := bytesAt b 2 1
/-- func. -/
def sFunc (b : List Byte) : Nat := bytesAt b 3 1
/-- k_or_n. -/
def sK (b : List Byte) : Nat := bytesAt b 4 4
/-- dim_a. -/
def sDimA (b : List Byte) : Nat := bytesAt b 8 2
/-- dim_b. -/
def sDimB (b : List Byte) : Nat := bytesAt b 10 2
/-- A leaf SRAM offset: bits [17:0] of its field. -/
def sAddr (b : List Byte) (o : Nat) : Nat := bytesAt b o 4 % 2 ^ 18
/-- a_addr. -/
def sA (b : List Byte) : Nat := sAddr b 12
/-- b_addr. -/
def sB (b : List Byte) : Nat := sAddr b 16
/-- c_addr. -/
def sC (b : List Byte) : Nat := sAddr b 20
/-- a_scale. -/
def sAScale (b : List Byte) : Nat := sAddr b 24
/-- b_scale. -/
def sBScale (b : List Byte) : Nat := sAddr b 28
/-- remote_addr. -/
def sRemote (b : List Byte) : Nat := bytesAt b 32 8
/-- tau. -/
def sTau (b : List Byte) : Nat := bytesAt b 32 4
/-- key_base. -/
def sKeyBase (b : List Byte) : Nat := bytesAt b 36 4
/-- query_base. -/
def sQueryBase (b : List Byte) : Nat := bytesAt b 40 4
/-- count0. -/
def sCount0 (b : List Byte) : Nat := bytesAt b 40 2
/-- count1; zero is read as 1. -/
def sCount1 (b : List Byte) : Nat := max 1 (bytesAt b 42 2)
/-- count2; zero is read as 1. -/
def sCount2 (b : List Byte) : Nat := max 1 (bytesAt b 44 2)
/-- Bytes of a move at its source. -/
def sBytes (b : List Byte) : Nat := sCount0 b * sCount1 b * sCount2 b
/-- The remote kind: 0 HBM, 1 bough buffer, 2 leaf. -/
def sKind (b : List Byte) : Nat := sFunc b % 4
/-- The direction: true stores from the leaf. -/
def sStore (b : List Byte) : Bool := bitOf (sFunc b) 2
/-- stride1. -/
def sStride1 (b : List Byte) : Nat := bytesAt b 48 4
/-- stride2. -/
def sStride2 (b : List Byte) : Nat := bytesAt b 52 4
/-- The remote address of each innermost run. -/
def sRuns (b : List Byte) : List Nat :=
  (List.range (sCount2 b)).flatMap fun j => (List.range (sCount1 b)).map fun i =>
    sRemote b + i * sStride1 b + j * sStride2 b
/-- The sub-descriptor of the leaf of rank `r`: in broadcast mode leaf_stride moves remote_addr (R140). -/
def sRank (op : Nat) (b : List Byte) (stride r : Nat) : List Byte :=
  if op = 0x31 ∧ stride ≠ 0 then splice b 32 (leBytes 8 (sRemote b + r * stride)) else b

/-! ### Ranges of a sub-descriptor in leaf SRAM (R507) -/

/-- Bytes of `n` elements of a format. -/
def fmtBytes (fmt n : Nat) : Nat := (elemBits fmt * n + 7) / 8

/-- The ranges of an input: its elements and its scale array. -/
def inRanges (a sc fmt n : Nat) : List (Nat × Nat) :=
  (a, fmtBytes fmt n) :: (if hasScale fmt then [(sc, (n + 31) / 32)] else [])

/-- The range of an output: its elements and, right after them, its scale array. -/
def outRange (c fmt n : Nat) : Nat × Nat := (c, fmtBytes fmt n + if isBlockFmt fmt then (n + 31) / 32 else 0)

/-- Whether a vector command reads its b stream (R506). -/
def readsB (op fn : Nat) : Bool := op == 0x10 && fn != 6

/-- Bytes a move writes at its destination: an aligned move adds one scale byte for 32 elements (R109, R145). -/
def moveBytes (b : List Byte) : Nat := sBytes b + if sAlign b then sBytes b / 64 else 0

/-- The leaf SRAM ranges of a sub-descriptor (*Leaf SRAM ranges of a sub-descriptor*): start and length. -/
def subRanges (op : Nat) (b : List Byte) : List (Nat × Nat) :=
  let rows := sDimA b
  let d := sDimB b
  match op with
  | 0x01 =>
    inRanges (sA b) (sAScale b) (sAFmt b) (16 * rows * sK b) ++ inRanges (sB b) (sBScale b) (sBFmt b) (32 * d * sK b)
      ++ (if sBit6 b then [] else [outRange (sC b) (sOut b) (16 * rows * (32 * d))])
  | 0x02 => [(sC b, 16384)]
  | 0x03 => [(sA b, 16384)]
  | 0x10 =>
    inRanges (sA b) (sAScale b) (sAFmt b) (sK b)
      ++ (if readsB 0x10 (sFunc b) then inRanges (sB b) (sBScale b) (sBFmt b) (sK b) else []) ++ [outRange (sC b) (sOut b) (sK b)]
  | 0x11 => inRanges (sA b) (sAScale b) (sAFmt b) (sK b) ++ [outRange (sC b) (sOut b) (sK b)]
  | 0x12 => inRanges (sA b) (sAScale b) (sAFmt b) (rows * sK b) ++ [outRange (sC b) (sOut b) rows]
  | 0x21 =>
    inRanges (sA b) (sAScale b) (sAFmt b) (rows * d)
      ++ [(sB b, fmtBytes (sBFmt b) (32 * d)), (sC b, fmtBytes (sBFmt b) (32 * d))]
      ++ (if hasScale (sBFmt b) then [(sBScale b, 2 * d)] else [])
  | 0x22 => [outRange (sC b) (sOut b) (rows * d)]
  | 0x23 => [(sC b, 128 + 4 * rows * d)]
  | 0x24 => [(sA b, 128 + 4 * rows * d)]
  | 0x30 => [(sA b, sBytes b), (sC b, moveBytes b)]
  | 0x31 => [(sC b, moveBytes b)]
  | _ => []

/-- Whether a range lies inside leaf SRAM and inside bank_mask (R70). -/
def rangeOk (mask : Nat) (r : Nat × Nat) : Bool :=
  r.2 == 0 || (decide (r.1 + r.2 ≤ 2 ^ 18) && (List.range 8).all fun k =>
    bitOf mask k || decide ((k + 1) * 0x8000 ≤ r.1) || decide (r.1 + r.2 ≤ k * 0x8000))

/-! ### Formats and field ranges (R101, R108, R121, R134, R505, R506) -/

/-- The defined opcodes (*Command types and costs*). -/
def opcodes : List Nat := [0x00, 0x01, 0x02, 0x03, 0x10, 0x11, 0x12, 0x20, 0x21, 0x22, 0x23, 0x24, 0x30, 0x31]

/-- The streams of a vector command (R506). -/
def vecStreams (op : Nat) (b : List Byte) : List Nat :=
  if readsB op (sFunc b) then [sAFmt b, sBFmt b, sOut b] else [sAFmt b, sOut b]

/-- The part of check 2 that a sub-descriptor answers for. -/
def subFormatOk (op : Nat) (b : List Byte) : Bool :=
  let n := sK b
  let rows := sDimA b
  let d := sDimB b
  let common := sRound b != 3 && bytesAt b 46 2 == 0 && bytesAt b 56 8 == 0
  let vec := (vecStreams op b).all vectorFmt && decide (1 ≤ n)
  let attn := fun (used : List Nat) =>
    decide (1 ≤ rows) && decide (rows ≤ 16) && decide (16 ≤ d) && decide (d ≤ 256) && d % 16 == 0
      && (d % 32 == 0 || !used.any isBlockFmt)
  let move := decide (sAFmt b ≤ 10) && decide (1 ≤ sCount0 b)
    && (!sAlign b || (sAFmt b == 7 && sCount0 b % 64 == 0 && !(op == 0x31 && sStore b)))
  common && match op with
    | 0x01 => (pairCost (sAFmt b) (sBFmt b)).isSome && vectorFmt (sOut b) && n % 32 == 0 && decide (32 ≤ n) && decide (n ≤ 1048576)
        && decide (1 ≤ rows) && decide (1 ≤ d) && (!sBit6 b || rows * d == 1)
    | 0x10 => vec && decide (sFunc b ≤ 6) && (n % 32 == 0 || !(vecStreams op b).any isBlockFmt)
    | 0x11 => vec && decide (sFunc b ≤ 3) && (n % 32 == 0 || !(vecStreams op b).any isBlockFmt)
    | 0x12 => vec && decide (1 ≤ rows) && decide (rows ≤ 16) && (n % 32 == 0 || !isBlockFmt (sAFmt b))
    | 0x20 => attn []
    | 0x21 => attn [sAFmt b, sBFmt b, sFunc b] && (sFunc b == 0 || sFunc b == 6)
        && (pairCost (sAFmt b) (sBFmt b)).isSome && (pairCost (sFunc b) (sBFmt b)).isSome
    | 0x22 => attn [sOut b] && vectorFmt (sOut b)
    | 0x23 => attn []
    | 0x24 => attn []
    | 0x30 => move
    | 0x31 => move && decide (sKind b ≤ 2)
    | _ => true

/-- The part of check 2 that the descriptor itself answers for (R140, R166). -/
def descFormatOk (d : List Byte) : Bool :=
  decide (bytesAt d 1 1 < 32) && bytesAt d 2 2 == 0 && bytesAt d 42 2 == 0 && bytesAt d 60 4 == 0
    && dLeafMask d != 0 && dTwigMask d != 0 && decide ((dWait d).2 ≤ 5) && decide ((dArrive d).2 ≤ 2)
    && (!dFlag d 0 || dSubBase d % 64 == 0)

/-! ### Costs (R143-R147) -/

/-- The memory-slot share of a stand (R146): its mask, and the lines per slot to HBM, to the bough buffer and to leaves. -/
structure Share where
  mask : Nat
  hHbm : Nat
  hBbuf : Nat
  hLeaf : Nat
deriving DecidableEq, Repr

/-- The rate of a remote kind. -/
def Share.rate (h : Share) (kind : Nat) : Nat :=
  match kind with
  | 0 => h.hHbm
  | 1 => h.hBbuf
  | _ => h.hLeaf

/-- Lines of a run of `n` bytes at `a` that count twice in a store to HBM: those written only in part (R147). -/
def partLines (a n : Nat) : Nat :=
  if n = 0 then 0
  else
    let first := a / 64
    let last := (a + n - 1) / 64
    if first = last then bit (!(a % 64 == 0 && n == 64)) else bit (a % 64 != 0) + bit ((a + n) % 64 != 0)

/-- *L* of R147. -/
def moveLines (b : List Byte) : Nat :=
  ((sRuns b).map fun a =>
    let n := sCount0 b
    ((a + n - 1) / 64 - a / 64 + 1) + (if sStore b ∧ sKind b = 0 then partLines a n else 0)).sum

/-- The end of the `u`-th owned slot that begins at or after lclk `st` of the ring, if the ring has so many. -/
def ownedEnd (mask slot st u : Nat) : Option Nat :=
  let own := (List.range 62).filter fun k => bitOf mask k && decide (st ≤ k * slot)
  match own[u - 1]? with
  | some k => if u = 0 then some st else some ((k + 1) * slot)
  | none => if u = 0 then some st else none

/-- Whether two ranges share a bank. -/
def shareBank (a n c m : Nat) : Bool :=
  (List.range 8).any fun k =>
    decide (a < (k + 1) * 0x8000) && decide (k * 0x8000 < a + n) && decide (c < (k + 1) * 0x8000) && decide (k * 0x8000 < c + m)

/-- The fixed cost of a command other than MOVE_REMOTE (*Command types and costs*, R145). -/
def localCost (op : Nat) (b : List Byte) : Nat :=
  let rows := sDimA b
  let d := sDimB b
  match op with
  | 0x01 => 8 + rows * d * (ceilDiv (sK b * (pairCost (sAFmt b) (sBFmt b)).getD 0) 2 + if sBit6 b then 0 else 16)
  | 0x02 => 264
  | 0x03 => 264
  | 0x10 => 8 + ceilDiv (sK b) 32 * (if (vecStreams op b).contains 9 then 2 else 1)
  | 0x11 => 8 + 2 * ceilDiv (sK b) 32
  | 0x12 => 8 + 4 * rows * ceilDiv (sK b) 32
  | 0x20 => 24
  | 0x21 => 8 + ceilDiv (d * (pairCost (sAFmt b) (sBFmt b)).getD 0) 2 + 56
      + ceilDiv d 32 * (16 * (pairCost (sFunc b) (sBFmt b)).getD 0 + 16) + ceilDiv (rows * d) 32
  | 0x22 => 24 + 2 * ceilDiv (rows * d) 32
  | 0x23 => 10 + rows * d / 16
  | 0x24 => 10 + rows * d / 16
  | 0x30 => 8 + (if shareBank (sA b) (sBytes b) (sC b) (moveBytes b) then 2 else 1) * ceilDiv (moveBytes b) 64
  | _ => 8

/-- The lclk of the ring after the last of a sub-descriptor that starts in lclk `st`, or none when its owned slots run out (R151). -/
def subEnd (h : Share) (slot op : Nat) (b : List Byte) (st : Nat) : Option Nat :=
  if op = 0x31 then
    let r := h.rate (sKind b)
    if r = 0 then none else ownedEnd h.mask slot st (ceilDiv (moveLines b) r)
  else some (st + localCost op b)

end Sys2Proof.Machine
end

