-- ==== Sys2Proof/Machine/Leaves.lean ====
section
/-! DEFINITION. What a leaf does with the sub-descriptor at the head of its sequencer (03_leaves_and_twigs.md, 05): one meaning per
command type. Results are computed whole, in the order the spec fixes; the sub-descriptor's end is SUBDESC_COMPLETE's. -/

namespace Sys2Proof.Machine

/-! ### Running the head sub-descriptor -/

/-- Change the fetched command a sub-descriptor belongs to. -/
def State.onCmd (s : State) (st q uid : Nat) (f : Cmd → Cmd) : State :=
  { s with cmds := s.cmds.map fun c => if c.stand = st ∧ c.queue = q ∧ c.uid = uid then f c else c }

/-- The fetched command of a stand's queue with a number. -/
def State.cmdAt (s : State) (st q uid : Nat) : Option Cmd :=
  s.cmds.find? fun c => c.stand == st && c.queue == q && c.uid == uid

/-- The trace record of a leaf at the begin (1) or end (2) of a sub-descriptor, for slots TRC_CFG.leaf_slots selects (R474, R475). -/
def State.traceLeaf (s : State) (kind leaf : Nat) (r : SubRun) (t detail : Nat) : State :=
  if !bitOf (s.fld TRC_CFG_leaf_slots) (leaf % 32) then s
  else
    let (time, offset) := s.timeAt t
    let c := s.cmdAt r.stand r.queue r.uid
    let d := (c.map (·.desc)).getD []
    let status := if kind = 1 then r.queue else (c.map (·.status)).getD 0
    s.trace (leafBough leaf)
      { kind, engine := 0, unit := leaf, stand := r.stand, opcode := r.opcode, status, time := BitVec.ofNat 64 time,
        ids := dIds d, tag := dTag d, detail, offset }

/-- Where an operation runs: the twig, the physical position, its logical leaf and the sub-descriptor. -/
structure Place where
  twig : Nat
  phys : Nat
  leaf : Nat
  run  : SubRun
deriving DecidableEq, Repr

/-- The leaf SRAM of a place. -/
def Place.sram (p : Place) : Nat := sramAt p.twig p.phys

/-- An operation's effect: its status and the state it leaves. -/
abbrev LeafOp := Place → State → Status × State

/-- Mark the head sub-descriptor of a place as run. -/
def Leaf.markRan (l : Leaf) : Leaf :=
  match l.queue with
  | r :: q => { l with queue := { r with ran := true } :: q }
  | [] => l

/-- The head sub-descriptor of leaf `n` runs if it is of opcode `op` and has not run, and its leaf is clocked (R27, R55); its status joins its
command's (R83, R133). It runs whole at its row, so of a sub-descriptor that a leaf reset catches either every line is written or none, where R84
leaves any mix (DESIGN CHOICE, log entry 91). -/
def State.runHead (s : State) (n op : Nat) (f : LeafOp) : State :=
  match s.leafPlace n with
  | none => s
  | some (t, p) =>
    match (s.leaf t p).queue with
    | [] => s
    | r :: _ =>
      if r.opcode ≠ op ∨ r.ran ∨ !s.leavesOn (leafBough n) then s
      else
        let s := (s.onLeaf t p Leaf.markRan).onClk fun c => { c with now := max c.now r.start }
        let s := (s.traceLeaf 1 n r r.start 0).leafEvent n 0x02 1 1
        let (st, s) := f ⟨t, p, n, r⟩ s
        let st := { st with narrow := st.narrow || r.narrow }
        s.onCmd r.stand r.queue r.uid fun c => { c with st := c.st.join st }

/-- A row of a leaf's operation. -/
def State.runRow (s : State) (n op : Nat) (f : LeafOp) : Res := .next (s.runHead n op f)

/-- An input array of a sub-descriptor at a place. -/
def Place.arr (p : Place) (base fmt scale : Nat) : Arr := ⟨p.sram + base, fmt, p.sram + scale⟩

/-- The a operand. -/
def Place.aArr (p : Place) : Arr := p.arr (sA p.run.sub) (sAFmt p.run.sub) (sAScale p.run.sub)
/-- The b operand. -/
def Place.bArr (p : Place) : Arr := p.arr (sB p.run.sub) (sBFmt p.run.sub) (sBScale p.run.sub)

/-- Whether one of the first `n` elements is of the reserved BF16A class. -/
def Arr.anyBad (a : Arr) (m : List Host.Cell) (n : Nat) : Bool := a.fmt == 10 && (List.range n).any (a.bad m)

/-- How element `i` of the output a place's descriptor names is rounded (R121, R125). -/
def Place.rnd (p : Place) (s : State) (i : Nat) : Rnd :=
  roundMode (sRound p.run.sub) (s.liveRd (STAND_SEED p.run.stand)).toNat (p.run.layer % 2 ^ 20) i

/-- Write an output array at c_addr in out_fmt, its elements rounded by `r` (R121-R125, R507). -/
def Place.store (p : Place) (r : Nat → Rnd) (s : State) (vs : List Val) : Status × State :=
  let (bs, o, n) := packArray (sOut p.run.sub) r vs
  (packStatus o n, s.store (p.sram + sC p.run.sub) bs)

/-- What is rounded out of long accumulators, written under round_mode (R121). -/
def Place.output (p : Place) (s : State) (vs : List Val) : Status × State := p.store (p.rnd s) s vs

/-- A vector store: round_mode applies to formats narrower than FP32, and FP32 is always RNE (R121). -/
def Place.vecStore (p : Place) (s : State) (vs : List Val) : Status × State :=
  p.store (if sOut p.run.sub = 9 then fun _ => .rne else p.rnd s) s vs

/-! ### NOP and the matrix unit (R71-R73, R108, R144) -/

/-- NOP (R144): costs 8 lclk and does nothing else. -/
def execNop (leaf : Nat) (s : State) : Res := s.runRow leaf 0x00 fun _ s => ({}, s)

/-- One output accumulator: row `i` of A by column `j` of B, *k* ascending (R118). -/
def matDot (narrow : Bool) (m : List Host.Cell) (a b : Arr) (k i j : Nat) (acc : Acc) : Acc :=
  (List.range k).foldl (fun acc x => acc.addProd narrow a.fmt b.fmt (a.get m (i * k + x)) (b.get m (j * k + x))) acc

/-- The accumulator of output element (i, j): the first tile goes on from what the accumulators hold, the others start clear (R72). -/
def matAcc (narrow : Bool) (m : List Host.Cell) (a b : Arr) (k : Nat) (accs : SMap Acc) (i j : Nat) : Acc :=
  matDot narrow m a b k i j (if i < 16 ∧ j < 32 then accs.get {} (i * 32 + j) else {})

/-- All accumulators, in row-major order. -/
def Leaf.accList (l : Leaf) : List Acc := (List.range 512).map fun i => l.accs.get {} i

/-- Put the 512 accumulators. -/
def Leaf.setAccs (l : Leaf) (as : List Acc) : Leaf :=
  { l with accs := (List.range 512).foldl (fun m i => m.set {} i (as.getD i {})) [] }

/-- MATMUL at a place. The accumulators an earlier no_drain left hold the integer *acc* and the anchor as they stand: a command admitted in the
other window reads them in its own unit (DESIGN CHOICE, log entry 92; R132 converts at a save and a restore only). -/
def matmulAt : LeafOp := fun p s =>
  let b := p.run.sub
  let k := sK b
  let w := 32 * sDimB b
  let l := s.leaf p.twig p.phys
  let accs := (List.range (16 * sDimA b * w)).map fun x => matAcc p.run.narrow s.mem p.aArr p.bArr k l.accs (x / w) (x % w)
  let before := (List.range (16 * sDimA b * w)).map fun x =>
    if x / w < 16 ∧ x % w < 32 then l.accs.get {} (x / w * 32 + x % w) else {}
  let bad := p.aArr.anyBad s.mem (16 * sDimA b * k) || p.bArr.anyBad s.mem (w * k)
  let tiles := sDimA b * sDimB b
  let c := (pairCost (sAFmt b) (sBFmt b)).getD 2
  let s := s.leafEvent p.leaf 0x04 (if c = 1 then tiles * k / 2 else tiles * k) (if c ≤ 2 then tiles else tiles * k)
  if sBit6 b then
    ({ (accStatus before accs) with accLoss := false, formatErr := bad }, s.onLeaf p.twig p.phys fun l => l.setAccs accs)
  else
    let s := (s.leafEvent p.leaf 0x05 (16 * tiles) tiles).onLeaf p.twig p.phys fun l => { l with accs := [] }
    let (st, s) := p.output s (accs.map (Acc.value p.run.narrow))
    (((accStatus before accs).join st).join { formatErr := bad }, s)

/-- MATMUL (R71, R72, R144). -/
def execMatmul (leaf : Nat) (s : State) : Res := s.runRow leaf 0x01 matmulAt

/-- ACC_SAVE (R73, R132). -/
def execAccSave (leaf : Nat) (s : State) : Res :=
  s.runRow leaf 0x02 fun p s =>
    let as := (s.leaf p.twig p.phys).accList
    ({ accLoss := as.any (·.sticky) }, s.store (p.sram + sC p.run.sub) (as.flatMap (Acc.toRecord p.run.narrow)))

/-- ACC_RESTORE (R73, R132). -/
def execAccRestore (leaf : Nat) (s : State) : Res :=
  s.runRow leaf 0x03 fun p s =>
    let recs := (List.range 512).map fun i => s.bytes (p.sram + sA p.run.sub + 32 * i) 32
    ({ formatErr := recs.any recordBad }, s.onLeaf p.twig p.phys fun l => l.setAccs (recs.map (Acc.ofRecord p.run.narrow)))

/-! ### The vector unit (R74, R75, R126-R128, R506) -/

/-- An element loaded as FP32, with overflow (R127). -/
def Arr.load (a : Arr) (m : List Host.Cell) (i : Nat) : Nat × Bool := toF32 (a.get m i)

/-- The c stream as an input: out_fmt, its scales after its elements (R507). -/
def Place.cArr (p : Place) : Arr :=
  let b := p.run.sub
  p.arr (sC b) (sOut b) (sC b + fmtBytes (sOut b) (sK b))

/-- A vector function of FP32 words (R506): its FP32 word and overflow. -/
def vecFn (fn a b c : Nat) : Nat × Bool :=
  let x := f32Val a
  let y := f32Val b
  match fn with
  | 0 => toF32 (x.plus y)
  | 1 => toF32 (x.times y)
  | 2 => toF32 ((x.times y).plus (f32Val c))
  | 3 => toF32 (x.max y)
  | 4 => toF32 (x.min y)
  | 5 => (if x.gt y then 0x3F800000 else 0, false)
  | _ => (a, false)

/-- Run a vector function over `n` elements. -/
def vecRun (n : Nat) (f : Nat → Nat × Bool) (p : Place) (s : State) : Status × State :=
  let rs := (List.range n).map f
  let (st, s) := p.vecStore s (rs.map fun r => f32Val r.1)
  (st.join { overflow := rs.any (·.2) }, s)

/-- VEC_MAP (R506). -/
def execVecMap (leaf : Nat) (s : State) : Res :=
  s.runRow leaf 0x10 fun p s =>
    let fn := sFunc p.run.sub
    let s := s.leafEvent p.leaf 0x06 (ceilDiv (sK p.run.sub) 32) 1
    let one := fun i =>
      let a := p.aArr.load s.mem i
      let b := if readsB 0x10 fn then p.bArr.load s.mem i else (0, false)
      let c := if fn = 2 then p.cArr.load s.mem i else (0, false)
      let r := vecFn fn a.1 b.1 c.1
      (r.1, a.2 || b.2 || c.2 || r.2)
    vecRun (sK p.run.sub) one p s

/-- VEC_SFU (R128, R506). -/
def execVecSfu (leaf : Nat) (s : State) : Res :=
  s.runRow leaf 0x11 fun p s =>
    let s := s.leafEvent p.leaf 0x07 (2 * ceilDiv (sK p.run.sub) 32) 1
    let one := fun i =>
      let a := p.aArr.load s.mem i
      let r := sfu (sFunc p.run.sub) a.1
      (r.1, a.2 || r.2)
    vecRun (sK p.run.sub) one p s

/-- The exact sum of FP32 words (R75). -/
def sumAcc (narrow : Bool) (ws : List Nat) : Acc := ws.foldl (fun acc w => acc.add narrow (f32Val w)) {}

/-- VEC_REDUCE (R75, R121, R506): each row is rounded out of its long accumulator once to FP32 under round_mode, then stored in out_fmt. -/
def execVecReduce (leaf : Nat) (s : State) : Res :=
  s.runRow leaf 0x12 fun p s =>
    let n := sK p.run.sub
    let rows := (List.range (sDimA p.run.sub)).map fun r => (List.range n).map fun i => p.aArr.load s.mem (r * n + i)
    let accs := rows.map fun row => sumAcc p.run.narrow (row.map (·.1))
    let outs := (List.range accs.length).map fun r => packIeee 9 (p.rnd s r) ((accs.getD r {}).value p.run.narrow)
    let (st, s) := p.vecStore s (outs.map fun o => f32Val o.1)
    let ovf := (rows.any fun row => row.any (·.2)) || outs.any (·.2)
    ((st.join (accStatus [] accs)).join { overflow := ovf }, s)

/-! ### Attention streaming (R78-R82) -/

/-- FP32 minus infinity. -/
def negInf : Nat := 0xFF800000

/-- m[r]. -/
def Leaf.am (l : Leaf) (r : Nat) : Nat := l.attnM.get negInf r
/-- l[r]. -/
def Leaf.al (l : Leaf) (r : Nat) : Nat := l.attnL.get 0 r
/-- O[r][j]. -/
def Leaf.ao (l : Leaf) (r j : Nat) : Nat := l.attnO.get 0 (r * 256 + j)

/-- ATTN_INIT (R78): all 16 rows and 256 columns. -/
def execAttnInit (leaf : Nat) (s : State) : Res :=
  s.runRow leaf 0x20 fun p s => ({}, s.onLeaf p.twig p.phys fun l => { l with attnM := [], attnL := [], attnO := [] })

/-- One row of an attention tile (R79): its new m, l and O, the accumulators rounded, and overflow. -/
structure TileRow where
  m : Nat
  l : Nat
  o : List Nat
  accs : List Acc
  ovf : Bool
deriving DecidableEq, Repr

/-- The scores of a row: dot products rounded to FP32, scaled by tau; a masked key scores minus infinity. -/
def tileScores (narrow : Bool) (mem : List Host.Cell) (q k : Arr) (d tau : Nat) (masked : Nat → Bool) (r : Nat) :
    List (Nat × Acc × Bool) :=
  (List.range 32).map fun c =>
    if masked c then (negInf, {}, false)
    else
      let acc := matDot narrow mem q k d r c {}
      let x := toF32 (acc.value narrow)
      let y := toF32 ((f32Val x.1).times (f32Val tau))
      (y.1, acc, x.2 || y.2)

/-- p rounded to p_fmt as one block (R79, R123, R124). -/
def tileP (fmt : Nat) (p : List Nat) : List Val × Bool :=
  let vs := p.map f32Val
  let (codes, x, o) := if fmt = 6 then packPbBlock (fun _ => .rne) vs else packMxBlock fmt (fun _ => .rne) vs
  (codes.map fun c => decodeElem fmt c x, o)

/-- A row of a tile (R79). -/
def tileRow (narrow : Bool) (mem : List Host.Cell) (q k v : Arr) (pfmt d tau : Nat) (masked : Nat → Bool) (l : Leaf) (r : Nat) : TileRow :=
  let sc := tileScores narrow mem q k d tau masked r
  let mNew := (toF32 (sc.foldl (fun best x => best.max (f32Val x.1)) (f32Val (l.am r)))).1
  let expOf := fun (x : Nat) => let dif := toF32 ((f32Val x).plus (f32Val mNew).neg); let e := sfu 0 dif.1; (e.1, dif.2 || e.2)
  let alpha := if mNew = negInf then (0x3F800000, false) else expOf (l.am r)
  let p := if mNew = negInf then sc.map fun _ => (0, false) else sc.map fun x => expOf x.1
  let sum := sumAcc narrow (p.map (·.1))
  let lNew := toF32 (((f32Val (l.al r)).times (f32Val alpha.1)).plus (sum.value narrow))
  let (pq, po) := tileP pfmt (p.map (·.1))
  let cols := (List.range d).map fun j =>
    let acc := (List.range 32).foldl (fun acc c => acc.addProd narrow pfmt v.fmt (pq.getD c .nan) (v.get mem (32 * j + c))) {}
    let pv := toF32 (acc.value narrow)
    let o := toF32 (((f32Val (l.ao r j)).times (f32Val alpha.1)).plus (f32Val pv.1))
    (o.1, acc, pv.2 || o.2)
  { m := mNew, l := lNew.1, o := cols.map (·.1), accs := sc.map (·.2.1) ++ [sum] ++ cols.map (·.2.1),
    ovf := sc.any (·.2.2) || alpha.2 || p.any (·.2) || lNew.2 || po || cols.any (·.2.2) }

/-- Put rows into the streaming state. -/
def Leaf.putRows (l : Leaf) (rows : List TileRow) : Leaf :=
  (List.range rows.length).foldl (fun l r =>
    match rows[r]? with
    | none => l
    | some x =>
      { l with
        attnM := l.attnM.set negInf r x.m, attnL := l.attnL.set 0 r x.l,
        attnO := (List.range x.o.length).foldl (fun m j => m.set 0 (r * 256 + j) (x.o.getD j 0)) l.attnO }) l

/-- ATTN_TILE (R79, R129): the narrow window holds inside its dot products too. -/
def execAttnTile (leaf : Nat) (s : State) : Res :=
  s.runRow leaf 0x21 fun p s =>
    let b := p.run.sub
    let d := sDimB b
    let v := p.arr (sC b) (sBFmt b) (sBScale b + d)
    let masked := fun r c => sBit6 b && decide (sQueryBase b + r < sKeyBase b + c)
    let l := s.leaf p.twig p.phys
    let rows := (List.range (sDimA b)).map fun r =>
      tileRow p.run.narrow s.mem p.aArr p.bArr v (sFunc b) d (sTau b) (masked r) l r
    let bad := p.aArr.anyBad s.mem (sDimA b * d) || p.bArr.anyBad s.mem (32 * d) || v.anyBad s.mem (32 * d)
    ((accStatus [] (rows.flatMap (·.accs))).join { overflow := rows.any (·.ovf), formatErr := bad },
      s.onLeaf p.twig p.phys fun l => l.putRows rows)

/-- ATTN_FINAL (R80): a vector store of each element's one product. -/
def execAttnFinal (leaf : Nat) (s : State) : Res :=
  s.runRow leaf 0x22 fun p s =>
    let rows := sDimA p.run.sub
    let d := sDimB p.run.sub
    let l := s.leaf p.twig p.phys
    let nanRow := fun r => f32Val (l.am r) == .nan
    let empty := fun r => !nanRow r && l.al r == 0
    let value := fun r j =>
      if nanRow r then Val.nan
      else if empty r then .fin false 0 0
      else (f32Val (l.ao r j)).times (f32Val (sfu 2 (l.al r)).1)
    let (st, s) := p.vecStore s ((List.range (rows * d)).map fun x => value (x / d) (x % d))
    let rs := List.range rows
    (st.join { emptyRow := rs.any empty, nanRow := rs.any nanRow,
               overflow := rs.any fun r => !nanRow r && !empty r && (sfu 2 (l.al r)).2 }, s)

/-- ATTN_SAVE (R82). -/
def execAttnSave (leaf : Nat) (s : State) : Res :=
  s.runRow leaf 0x23 fun p s =>
    let d := sDimB p.run.sub
    let l := s.leaf p.twig p.phys
    let bs := ((List.range 16).flatMap fun r => leBytes 4 (l.am r)) ++ ((List.range 16).flatMap fun r => leBytes 4 (l.al r))
      ++ (List.range (sDimA p.run.sub * d)).flatMap fun x => leBytes 4 (l.ao (x / d) (x % d))
    ({}, s.store (p.sram + sC p.run.sub) bs)

/-- ATTN_LOAD (R82). -/
def execAttnLoad (leaf : Nat) (s : State) : Res :=
  s.runRow leaf 0x24 fun p s =>
    let d := sDimB p.run.sub
    let bs := s.bytes (p.sram + sA p.run.sub) (128 + 4 * sDimA p.run.sub * d)
    ({}, s.onLeaf p.twig p.phys fun l =>
      { l with
        attnM := (List.range 16).foldl (fun m r => m.set negInf r (bytesAt bs (4 * r) 4)) l.attnM,
        attnL := (List.range 16).foldl (fun m r => m.set 0 r (bytesAt bs (64 + 4 * r) 4)) l.attnL,
        attnO := (List.range (sDimA p.run.sub * d)).foldl
          (fun m x => m.set 0 (x / d * 256 + x % d) (bytesAt bs (128 + 4 * x) 4)) l.attnO })

/-! ### The data mover (R76, R77, R109-R111, R145-R147) -/

/-- A finite non-zero BF16 element's exponent (R109). -/
def bf16Exp (w : Nat) : Option Int :=
  let e := bitsOf w 14 7
  if e = 255 ∨ w % 32768 = 0 then none else some (if e = 0 then -126 else (e : Int) - 127)

/-- One group of 32 BF16 words aligned (R109, R110): the words, the scale byte, and the elements flushed. -/
def alignGroup (ws : List Nat) : List Nat × Nat × Nat :=
  let top := ws.foldl (fun (best : Option Int) w => match bf16Exp w, best with
    | none, b => b
    | some e, none => some e
    | some e, some b => some (max b e)) none
  match top with
  | none => (ws.map fun w => if bitsOf w 14 7 = 255 then (if w % 128 = 0 then w / 32768 * 32768 + 0x2000 else 0x4000) else 0, 0, 0)
  | some t =>
    let conv := fun w =>
      match bf16Exp w with
      | none => if bitsOf w 14 7 = 255 then (if w % 128 = 0 then w / 32768 * 32768 + 0x2000 else 0x4000) else 0
      | some e =>
        let o := (t - e).toNat
        if o ≤ 31 then w / 32768 * 32768 + o * 256 + (if bitsOf w 14 7 = 0 then 0 else 128) + w % 128 else 0
    (ws.map conv, (t + 127).toNat, ws.countP fun w => match bf16Exp w with | none => false | some e => decide (32 ≤ t - e))

/-- BF16 bytes as an aligned move writes them: words, then scale bytes (R109); with the elements flushed. -/
def alignBytes (bs : List Byte) : List Byte × Nat :=
  let groups := (List.range (bs.length / 64)).map fun g => alignGroup ((List.range 32).map fun i => bytesAt bs (64 * g + 2 * i) 2)
  (groups.flatMap (fun g => g.1.flatMap (leBytes 2)) ++ groups.map (fun g => BitVec.ofNat 8 g.2.1), (groups.map (·.2.2)).sum)

/-- What a move writes for the bytes it read. -/
def moved (b : List Byte) (bs : List Byte) : List Byte × Nat := if sAlign b then alignBytes bs else (bs, 0)

/-- MOVE_LOCAL (R109, R142, R145): the source is read whole before the destination is written. -/
def execMoveLocal (leaf : Nat) (s : State) : Res :=
  s.runRow leaf 0x30 fun p s =>
    let b := p.run.sub
    let (out, fl) := moved b (s.bytes (p.sram + sA b) (sBytes b))
    ({ flush := min 65535 fl }, s.store (p.sram + sC b) out)

/-- Whether a bough-buffer address of a stand lies in its region on that bough (R94, R142). -/
def State.bbufIn (s : State) (st a n : Nat) : Bool :=
  let w := s.liveRd (TWIG_BBUF_REGION (bitsOf a 39 38) st)
  decide (a < 2 ^ 40) && bitsOf a 37 26 == 0 && w.getLsbD 63
    && decide (bitsOf a 25 0 + n ≤ (bitsOf w.toNat 13 8 + 1 - bitsOf w.toNat 5 0) * 2 ^ 20)

/-- The bough-buffer byte of a stand's address. -/
def State.bbufPlace (s : State) (st a : Nat) : Nat :=
  bbufAt (bitsOf a 39 38) + s.liveFld (TWIG_BBUF_REGION_base (bitsOf a 39 38) st) * 2 ^ 20 + bitsOf a 25 0

/-- Whether `n` bytes of the leaf window from `a` lie in leaves of a stand (R77, R98). -/
def State.leafIn (s : State) (st a n : Nat) : Bool :=
  decide (a + n ≤ 4608 * 2 ^ 18) && (List.range ((a + n - 1) / 2 ^ 18 + 1 - a / 2 ^ 18)).all fun i =>
    s.twigStand ((a / 2 ^ 18 + i) / 32) == some st

/-- The byte of leaf SRAM a leaf-window offset names; none for an unserved slot (R97). -/
def State.windowPlace (s : State) (a : Nat) : Option Nat :=
  (s.leafPlace (a / 2 ^ 18)).map fun p => sramAt p.1 p.2 + a % 2 ^ 18

/-- Read leaf SRAM through the window: an unserved slot reads 0 (R97). -/
def State.windowRead (s : State) (a n : Nat) : List Byte :=
  (List.range n).map fun i => match s.windowPlace (a + i) with
    | some x => Memory.read s.mem x
    | none => 0#8

/-- Write leaf SRAM through the window: an unserved slot discards (R97). -/
def State.windowWrite (s : State) (a : Nat) (bs : List Byte) : State :=
  s.forEach (List.range bs.length) fun i s => match s.windowPlace (a + i) with
    | some x => s.store x [bs.getD i 0#8]
    | none => s

/-- Whether a run of a remote move lies inside the stand's regions or leaves (R77). -/
def State.remoteIn (s : State) (st kind a n : Nat) : Bool :=
  match kind with
  | 0 => s.inBounds st a n
  | 1 => s.bbufIn st a n
  | _ => decide (a < 2 ^ 31) && s.leafIn st a n

/-- The bough that holds what a stand's address names: by HBM group, bough buffer or leaf. Channel areas lie in the I/O dies. -/
def State.targetBough (s : State) (st kind a : Nat) : Option Nat :=
  match kind with
  | 0 => (s.translate st a).map fun x => granuleGroup (x / 2 ^ 30)
  | 1 => some (bitsOf a 39 38)
  | 2 => some (leafBough (a / 2 ^ 18))
  | _ => none

/-- Read one run of a remote move. The flag is an uncorrectable line, whose bytes are zeros (R202). -/
def State.remoteRead (s : State) (st kind a n : Nat) : List Byte × Bool × State :=
  match kind with
  | 0 => (s.standRead st a n).getD (List.replicate n 0#8, false, s)
  | 1 => (s.bytes (s.bbufPlace st a) n, false, s)
  | _ => (s.windowRead a n, false, s)

/-- Write one run of a remote move. The flag is a merge that met an uncorrectable line (R512). -/
def State.remoteWrite (s : State) (st kind a : Nat) (bs : List Byte) : Bool × State :=
  match kind with
  | 0 => (s.standWrite st a bs).getD (false, s)
  | 1 => (false, s.store (s.bbufPlace st a) bs)
  | _ => (false, s.windowWrite a bs)

/-- Read the runs of a move, in order. -/
def State.readRuns (s : State) (st kind n : Nat) : List Nat → List Byte × Bool × State
  | [] => ([], false, s)
  | a :: as =>
    let (b, bad, s) := s.remoteRead st kind a n
    let (bs, bads, s) := State.readRuns s st kind n as
    (b ++ bs, bad || bads, s)

/-- Write the runs of a move, in order. -/
def State.writeRuns (s : State) (st kind n : Nat) : List Nat → List Byte → Bool × State
  | [], _ => (false, s)
  | a :: as, bs =>
    let (bad, s) := s.remoteWrite st kind a (bs.take n)
    let (bads, s) := State.writeRuns s st kind n as (bs.drop n)
    (bad || bads, s)

/-- MOVE_REMOTE (R76, R147): the local end is contiguous, the remote end strided. -/
def execMoveRemote (leaf : Nat) (upsets : List (Nat × LineErr)) (s : State) : Res :=
  s.runRow leaf 0x31 fun p s =>
    let b := p.run.sub
    let s := (s.upset upsets).leafEvent p.leaf 0x08 (moveLines b) 1
    if sStore b then
      let (bad, s) := s.writeRuns p.run.stand (sKind b) (sCount0 b) (sRuns b) (s.bytes (p.sram + sC b) (sBytes b))
      ({ memError := bad }, s)
    else
      let (bs, bad, s) := s.readRuns p.run.stand (sKind b) (sCount0 b) (sRuns b)
      let (out, fl) := moved b bs
      ({ flush := min 65535 fl, memError := bad }, s.store (p.sram + sC b) out)

end Sys2Proof.Machine
end

