-- ==== Sys2Proof/Machine/Ni.lean ====
section
/-! DEFINITION. The network interfaces' tables and drain (09_fabric_transport.md, R243, R253, R259, R261), the packets waiting in them,
the failure of an operation, and the coalescing table of fault notices (R265, R266). -/

namespace Sys2Proof.Machine

/-! ### Identity and rank tables -/

/-- The node ID in force. -/
def State.node (s : State) : Nat := s.liveFld NI_NODE_node_id

/-- The node epoch in force. -/
def State.nodeEpoch (s : State) : Nat := s.liveFld NI_NODE_node_epoch

/-- Whether an entry index lies in a stand's grant in force. -/
def State.granted (s : State) (st r : Nat) : Bool :=
  s.liveFlag (NI_RANK_GRANT_valid st) && decide (r < s.liveFld (NI_RANK_GRANT_count st) * 1024)

/-- The table index of a stand's rank (R253): base * 1,024 + r. -/
def State.rankIndex (s : State) (st r : Nat) : Nat := s.liveFld (NI_RANK_GRANT_base st) * 1024 + r

/-- The valid entry of a stand's rank, if any. -/
def State.rankEntry (s : State) (st r : Nat) : Option Nat :=
  if s.granted st r && s.liveFlag (NI_RANK_ENTRY_valid (s.rankIndex st r)) then some (s.rankIndex st r) else none

/-- A stand's own rank: the lowest of its grant that names this node and stand, or 0 (log entry 38). -/
def State.ownRank (s : State) (st : Nat) : Nat :=
  ((List.range (s.liveFld (NI_RANK_GRANT_count st) * 1024)).find? fun r =>
    match s.rankEntry st r with
    | some i => s.liveFld (NI_RANK_ENTRY_node i) == s.node && s.liveFld (NI_RANK_ENTRY_dst_stand i) == st
    | none => false).getD 0

/-! ### Drain (R259) -/

/-- Whether a stand is the one whose drain was started and has not been released. -/
def State.drainingOf (s : State) (st : Nat) : Bool := decide (s.fld NI_DRAIN_state ≠ 0) && s.ni.drainStand == st

/-- Whether a stand's new triggers and packets not yet begun are held. -/
def State.standHeld (s : State) (st : Nat) : Bool := s.drainingOf st || s.ni.held.contains st || s.ni.resume.contains st

/-- Whether a stand's tables may be written: it is drained, or has never been active (log entry 39). -/
def State.drainedOk (s : State) (st : Nat) : Bool :=
  decide (s.standState st ≤ 1) || (s.fld NI_DRAIN_state == 2 && s.ni.drainStand == st) || s.ni.held.contains st

/-- A write to NI_DRAIN: start while idle, release while committed. A drain keeps the stand and knot it was started with, whatever is written to
their fields after (log entry 84). -/
def State.writeDrain (s : State) (v : Word) : State :=
  let s := (s.setFld NI_DRAIN_stand (bitsOf v.toNat 19 16)).setFld NI_DRAIN_drain_knot (bitsOf v.toNat 11 0)
  match s.fld NI_DRAIN_state with
  | 0 =>
    if v.getLsbD 32 then
      (s.setFld NI_DRAIN_state 1).onNi fun n => { n with drainStand := bitsOf v.toNat 19 16, drainKnot := bitsOf v.toNat 11 0 }
    else s
  | 3 =>
    if v.getLsbD 33 then (s.setFld NI_DRAIN_state 0).onNi fun n => { n with resume := n.drainStand :: n.resume } else s
  | _ => s

/-- NI_DRAIN_START (R259). -/
def execNiDrainStart (v : Word) (s : State) : Res := s.when (v.getLsbD 32) (s.writeDrain v)

/-- NI_DRAIN_RELEASE (R259): held triggers resume from slot 0 of the next ring. -/
def execNiDrainRelease (v : Word) (s : State) : Res := s.when (v.getLsbD 33) (s.writeDrain v)

/-- Whether a packet has been begun: it is on its way or on an egress queue, or waits for its resend (R258, R259). -/
def TxPkt.begun (p : TxPkt) : Bool := p.sent || p.limb != 31 || p.lost || bitOf p.pkt.flags 1

/-- Whether a stand has a packet begun and not acknowledged (R259 step 3). -/
def State.inFlight (s : State) (st : Nat) : Bool := s.ni.txq.any fun p => !p.mgmt && p.stand == st && p.begun

/-- A stand being drained is drained (R259 steps 3, 4): the NI of I/O-0 adds 1 to drain_knot. -/
def State.drainEnd (s : State) : State :=
  let k := s.ni.drainKnot
  (s.setFld NI_DRAIN_state 2).sendKnot k .add 1 (some s.ni.drainStand) (niSource 0) s.clk.now (ioPath 0 k)

/-! ### Table writes -/

/-- A table write made while not drained is ignored (R259). -/
def State.tableRefused (s : State) : State := s.setFlag NI_EVENT_table_refused true

/-- A write to NI_FSLOT_MASK (R243). -/
def State.writeFslotMask (s : State) (st : Nat) (v : Word) : State :=
  let m := bitsOf v.toNat 61 0
  if (List.range 16).any fun x => x != st && s.fld (NI_FSLOT_MASK_slots x) &&& m != 0 then s.setFlag NI_EVENT_mask_overlap true
  else if !s.drainedOk st then s.tableRefused
  else s.setFld (NI_FSLOT_MASK_slots st) m

/-- NI_FSLOT_MASK_WRITE (R243). -/
def execNiFslotMaskWrite (st : Nat) (v : Word) (s : State) : Res := s.when (decide (st < 16)) (s.writeFslotMask st v)

/-- Whether a grant of `count` granules from `base` is out of range or meets another stand's. -/
def State.grantClash (s : State) (st base count : Nat) : Bool :=
  decide (count = 0) || decide (64 < base + count) || (List.range 16).any fun x => x != st && s.flag (NI_RANK_GRANT_valid x)
    && decide (base < s.fld (NI_RANK_GRANT_base x) + s.fld (NI_RANK_GRANT_count x))
    && decide (s.fld (NI_RANK_GRANT_base x) < base + count)

/-- A write to NI_RANK_GRANT (R253). -/
def State.writeRankGrant (s : State) (st : Nat) (v : Word) : State :=
  let base := bitsOf v.toNat 21 16
  let count := bitsOf v.toNat 6 0
  if !s.drainedOk st || (v.getLsbD 63 && s.grantClash st base count) then s.tableRefused
  else s.wr (NI_RANK_GRANT st) (v &&& 0x80000000003F007F#64)

/-- NI_RANK_GRANT_WRITE (R253). -/
def execNiRankGrantWrite (st : Nat) (v : Word) (s : State) : Res := s.when (decide (st < 16)) (s.writeRankGrant st v)

/-- The stand whose grant, as written, holds an entry. -/
def State.entryStand (s : State) (i : Nat) : Option Nat :=
  (List.range 16).find? fun st => s.flag (NI_RANK_GRANT_valid st) && decide (s.fld (NI_RANK_GRANT_base st) ≤ i / 1024)
    && decide (i / 1024 < s.fld (NI_RANK_GRANT_base st) + s.fld (NI_RANK_GRANT_count st))

/-- A write to NI_RANK_ENTRY: of a stand's granule only while that stand is drained (R259). -/
def State.writeRankEntry (s : State) (i : Nat) (v : Word) : State :=
  match s.entryStand i with
  | some st => if s.drainedOk st then s.wr (NI_RANK_ENTRY i) v else s.tableRefused
  | none => s.wr (NI_RANK_ENTRY i) v

/-- A write to NI_MCAST_GROUP (R261). -/
def State.writeMcastGroup (s : State) (g : Nat) (v : Word) : State := s.wr (NI_MCAST_GROUP g) (v &&& 0xFFFFFE000003FFFF#64)

/-- A write to NI_NODE needs every stand drained (R259). -/
def State.writeNode (s : State) (v : Word) : State :=
  if (List.range 16).all s.drainedOk then s.wr NI_NODE (v &&& 0x80000000FFFF0FFF#64) else s.tableRefused

/-- A write to NI_CFG: ignored with be_lo at or above be_hi. -/
def State.writeNiCfg (s : State) (v : Word) : State :=
  if bitsOf v.toNat 47 40 ≤ bitsOf v.toNat 39 32 then s else s.wr NI_CFG (v &&& 0x8000FFFFFFFFFF00#64)

/-- A write to LIMB_KEY_MAP: each index it changes belongs to drained stands, before and after (R259). -/
def State.writeKeyMap (s : State) (l : Nat) (v : Word) : State :=
  let old := (s.rd (LIMB_KEY_MAP l)).toNat
  let ok := (List.range 16).all fun i =>
    let a := bitsOf old (4 * i + 3) (4 * i)
    let b := bitsOf v.toNat (4 * i + 3) (4 * i)
    a == b || ((!bitOf (s.fld (LIMB_KEY_VALID_valid l)) i || s.drainedOk a) && s.drainedOk b)
  if ok then s.wr (LIMB_KEY_MAP l) v else s.tableRefused

/-! ### Packets waiting in the NIs -/

/-- What a trigger descriptor's class and a rank entry give a packet's path; `off` says that a scheduled trigger has to go best-effort (R254). -/
structure Path where
  io     : Nat
  stand  : Nat
  index  : Nat
  sched  : Bool
  route  : Nat
  budget : Nat
  off    : Bool := false
deriving DecidableEq, Repr

/-- The number a response carries in place of a trigger's index. -/
def noTrigger : Nat := 65536

/-- Packets enter an NI's queue. -/
def State.queue (s : State) (x : Path) (ps : List (Packet × Nat)) : State :=
  s.onNi fun n => { n with txq := n.txq ++ ps.map fun p =>
    { io := x.io, stand := x.stand, index := x.index, sched := x.sched, mgmt := false, route := x.route, limb := 31, budget := x.budget,
      sent := false, since := s.rings, off := x.off, pad := p.2, pkt := p.1 } }

/-- Replace the packet at a place of the queue. -/
def State.setTx (s : State) (i : Nat) (p : TxPkt) : State := s.onNi fun n => { n with txq := n.txq.set i p }

/-- Remove the packet at a place of the queue. -/
def State.dropTx (s : State) (i : Nat) : State := s.onNi fun n => { n with txq := n.txq.eraseIdx i }

/-- Change the triggers with an index and stand. -/
def State.onTrig (s : State) (st i : Nat) (f : Trig → Trig) : State :=
  s.onNi fun n => { n with trigs := n.trigs.map fun t => if t.stand == st && t.index == i then f t else t }

/-- The posted trigger of an index. -/
def State.trigAt (s : State) (st i : Nat) : Option Trig := s.ni.trigs.find? fun t => t.stand == st && t.index == i

/-- The posted trigger whose operation has a number (R239). -/
def State.trigOp (s : State) (st op : Nat) : Option Trig :=
  s.ni.trigs.find? fun t => t.stand == st && t.opId == op && (t.state == .running)

/-- Give an operation a status, unless it already has one. -/
def Trig.fail (t : Trig) (status cause : Nat) : Trig := if t.status = 0 then { t with status, cause } else t

/-- The packet at a place of the queue is dropped and its operation fails (R258). -/
def State.failTx (s : State) (i status : Nat) : State :=
  match s.ni.txq[i]? with
  | none => s
  | some p =>
    let s := s.dropTx i
    if p.mgmt then s
    else s.onTrig p.stand p.index fun t =>
      let t := t.fail status 0
      if p.sent then { t with unacked := t.unacked - 1 } else { t with unsent := t.unsent - 1 }

/-- Whether a packet takes the loopback path (R288). -/
def State.isLoop (s : State) (p : TxPkt) : Bool := p.pkt.dstNode == s.node

/-- The number of an NI's loopback path among limbs. -/
def loopLimb (io : Nat) : Nat := 18 + io

/-- The NI a limb or loopback path belongs to. -/
def limbIo (l : Nat) : Nat := if l < 18 then l / 9 else l - 18

/-- The ACTIVE limbs of a route mask, rising. -/
def State.routeLimbs (s : State) (route : Nat) : List Nat := (List.range 18).filter fun l => bitOf route l && s.limbActive l

/-- The limbs of a route mask that carry the scheduled class (R247). -/
def State.schedLimbs (s : State) (route : Nat) : List Nat := (s.routeLimbs route).filter fun l => s.limbCarries l 0

/-- The limb a scheduled packet goes on (R247): limb *i* modulo their count. -/
def State.schedLimb (s : State) (p : TxPkt) : Option Nat :=
  if s.isLoop p then some (loopLimb p.io)
  else
    let ls := s.schedLimbs p.route
    ls[p.pkt.pktIndex % ls.length]?

/-- Whether a limb takes a packet of its size: an LLP2 limb carries at most 2,048 bytes of payload (R232, R238). -/
def State.limbTakes (s : State) (p : Packet) (l : Nat) : Bool := s.fld (LIMB_STATUS_llp l) != 2 || decide (p.payload.length ≤ 2048)

/-- The largest payload for a route (R238, R232): 2,048 bytes where an LLP2 limb may carry it. -/
def State.maxPayload (s : State) (route : Nat) : Nat :=
  if (s.routeLimbs route).any fun l => s.fld (LIMB_STATUS_llp l) == 2 then 2048 else 4096

/-- NI_CONG counts the best-effort packets queued toward a node (R268). -/
def State.congWord (s : State) (n : Nat) : Word :=
  putBits (s.rd (NI_CONG n)) 63 48 (min 65535 (s.ni.txq.countP fun p => !p.sched && !p.mgmt && !p.sent && p.pkt.dstNode == n))

/-! ### Fault notices (R265, R266) -/

/-- The places of the coalescing table. -/
def faultPlaces : List Nat := List.range 256

/-- NI_FAULT_STATUS counts the entries in use. -/
def State.showFaults (s : State) : State :=
  s.setFld NI_FAULT_STATUS_in_use (faultPlaces.countP fun i => s.flag (NI_FAULT_ENTRY_valid i))

/-- Whether an entry holds a key. -/
def State.faultIs (s : State) (i node code epoch : Nat) : Bool :=
  s.flag (NI_FAULT_ENTRY_valid i) && s.fld (NI_FAULT_ENTRY_node i) == node && s.fld (NI_FAULT_ENTRY_code i) == code
    && s.fld (NI_FAULT_ENTRY_epoch i) == epoch

/-- A fault notice reaches the coalescing table (R265). -/
def State.takeFault (s : State) (node code epoch : Nat) : State :=
  match faultPlaces.find? fun i => s.faultIs i node code epoch with
  | some i => (s.count (NI_FAULT_ENTRY_count i) 1).setFld (NI_FAULT_ENTRY_idle_rings i) 0
  | none =>
    match faultPlaces.find? fun i => !s.flag (NI_FAULT_ENTRY_valid i) with
    | some i =>
      let w := putBits (putBits (putBits (putBits (putBits 0#64 63 63 1) 62 51 node) 50 43 code) 42 27 epoch) 15 0 1
      (s.wr (NI_FAULT_ENTRY i) w).showFaults
    | none => ((s.count NI_FAULT_STATUS_overflow 1).setFlag NI_EVENT_fault_overflow true).onNi fun n =>
        { n with lostFaults := n.lostFaults + 1 }

/-- One entry at a ring boundary (R266): a count is reported and reset; otherwise the entry ages. -/
def State.faultEntryBoundary (s : State) (i : Nat) : State :=
  if !s.flag (NI_FAULT_ENTRY_valid i) then s
  else
    let n := s.fld (NI_FAULT_ENTRY_count i)
    if n = 0 then s.setFld (NI_FAULT_ENTRY_idle_rings i) (min 64 (s.fld (NI_FAULT_ENTRY_idle_rings i) + 1))
    else
      let s := s.eventOwner 0x0020 2 0xFF (evData [(8, 2, s.fld (NI_FAULT_ENTRY_node i)), (10, 1, s.fld (NI_FAULT_ENTRY_code i)),
        (12, 2, s.fld (NI_FAULT_ENTRY_epoch i)), (16, 4, n)])
      (s.setFld (NI_FAULT_ENTRY_count i) 0).setFld (NI_FAULT_ENTRY_idle_rings i) 0

/-- The coalescing table at a ring boundary (R266). -/
def State.faultBoundary (s : State) : State :=
  let s := s.forEach faultPlaces fun i s => s.faultEntryBoundary i
  let lost := s.ni.lostFaults
  if lost = 0 then s
  else (s.eventOwner 0x0021 2 0xFF (evData [(8, 4, lost)])).onNi fun n => { n with lostFaults := 0 }

/-- FAULT_ENTRY_FREE (R266): an entry whose count stayed at 0 for 64 rings. -/
def execFaultEntryFree (i : Nat) (s : State) : Res :=
  s.when (decide (i < 256) && s.flag (NI_FAULT_ENTRY_valid i) && decide (64 ≤ s.fld (NI_FAULT_ENTRY_idle_rings i)))
    ((s.wr (NI_FAULT_ENTRY i) 0#64).showFaults)

/-! ### Naks and credits -/

/-- NAK_RECEIVE (R219, R257, R297): a nak that counts; the group and every later one are replayed and their operations are LATE, or the limb
retrains. -/
def execNakReceive (l g : Nat) (s : State) : Res :=
  s.when (decide (l < 18) && s.limbActive l && s.limbOn l) ((s.countNaks l).takeNak l g)

/-- CREDIT_RECEIVE (R250): credits return. -/
def execCreditReceive (l be mg : Nat) (s : State) : Res :=
  s.when (decide (l < 18) && s.limbActive l && s.limbOn l)
    (s.onNi fun n => { n with beUsed := n.beUsed.modify 0 l (· - be), mgUsed := n.mgUsed.modify 0 l (· - mg) })

end Sys2Proof.Machine
end

