-- ==== Sys2Proof/Machine/Queues.lean ====
section
/-! DEFINITION. Command queues and dispatch (05_commands_and_dispatch.md): doorbells, fetch and its checks, ring admission, completion. -/

namespace Sys2Proof.Machine

/-! ### Doorbells (R137, R138, R160) -/

/-- The slot a doorbell that reaches the dispatcher now counts from, numbered ring * 64 + slot (R138). -/
def State.bellSlot (s : State) (last : Bool) : Nat :=
  let k := s.clk.slot
  if 62 ≤ k ∨ (k = 61 ∧ last) then (s.rings + 1) * 64 + 1 else s.rings * 64 + k + (if last then 2 else 1)

/-- The key of a queue: 0-3 the command queues of a stand, 4 its trigger queue. -/
def queueKey (st q : Nat) : Nat := st * 5 + q

/-- Note a doorbell's tail and the slot it counts from. -/
def State.addBell (s : State) (key tail : Nat) (last : Bool) : State :=
  { s with bells := s.bells ++ [(key, tail, s.bellSlot last)] }

/-- A queue progresses in this ring (R478). -/
def State.progress (s : State) (key : Nat) : State := s.onObs fun o => { o with moved := o.moved.set false key true }

/-- A tenant's write to CQ_DOORBELL: a write with a tail out of range is ignored and sets doorbell_err; resume clears halted (R137, R160). -/
def State.ringDoorbell (s : State) (st q : Nat) (v : Word) (last : Bool) : State :=
  if s.standState st ≠ 2 then s
  else
    let tail := bitsOf v.toNat 15 0
    if 2 ^ s.fld (CQ_CFG_log2_size st q) ≤ tail then s.setFlag (CQ_STATE_doorbell_err st q) true
    else
      let s := if v.getLsbD 63 then s.setFlag (CQ_STATE_halted st q) false else s
      if tail = s.fld (CQ_STATE_tail_seen st q) then s
      else (s.setFld (CQ_STATE_tail_seen st q) tail).addBell (queueKey st q) tail last

/-- CQ_DOORBELL_TAIL (R138). -/
def execCqDoorbellTail (st q : Nat) (v : Word) (last : Bool) (s : State) : Res :=
  s.when (decide (st < 16) && decide (q < 4)) (s.ringDoorbell st q v last)

/-- CQ_RESUME (R160). -/
def execCqResume (st q : Nat) (v : Word) (last : Bool) (s : State) : Res :=
  s.when (decide (st < 16) && decide (q < 4) && v.getLsbD 63) (s.ringDoorbell st q v last)

/-! ### Completion (R159, R160) -/

/-- The stand-relative address of a queue entry. -/
def State.entryAt (s : State) (st q i : Nat) : Nat := s.fld (CQ_CFG_base st q) * 4096 + 128 * i
/-- The stand-relative address of a completion entry. -/
def State.cplAt (s : State) (st q i : Nat) : Nat := s.fld (CQ_CPL_BASE_cpl_base st q) * 4096 + 32 * i

/-- The 32 bytes of a completion record (R159). -/
def cplRecord (tag status flags defers flush check bough ids start stop : Nat) : List Byte :=
  leBytes 4 tag ++ leBytes 2 status ++ leBytes 1 flags ++ leBytes 1 (min 255 defers) ++ leBytes 2 flush ++ leBytes 1 check
    ++ leBytes 1 bough ++ leBytes 4 ids ++ leBytes 8 start ++ leBytes 8 stop

/-- Write a completion record where its entry lies inside the stand's regions. -/
def State.writeCpl (s : State) (st q i : Nat) (rec : List Byte) : State :=
  match s.standWrite st (s.cplAt st q i) rec with
  | some r => r.2
  | none => s

/-- A queue halts with a status (R160): the commands fetched after the failed one, and after every one with a segment admitted, are withdrawn,
and the head stays on the first of them. No entry of an admitted command is read again (R137). -/
def State.haltQueue (s : State) (st q status : Nat) (after : List Cmd) : State :=
  let s := (s.setFlag (CQ_STATE_halted st q) true).setFld (CQ_STATE_halt_code st q) (status % 256)
  match (after.reverse.takeWhile fun c => c.started.isNone).reverse with
  | [] => s
  | c :: rest =>
    { s.setFld (CQ_STATE_head st q) c.index with
      cmds := s.cmds.filter fun d => !(d.stand == st && d.queue == q && (c :: rest).any fun x => x.uid == d.uid) }

/-- The queue's MSI-X vector, where the descriptor and CQ_CFG ask for it (R141). -/
def State.cplIrq (s : State) (st q : Nat) (d : List Byte) : State :=
  if dFlag d 4 && s.flag (CQ_CFG_irq_en st q) then s.msix (st + 1) q else s

/-- Stand counters of a completion (R463). -/
def State.countCpl (s : State) (st q status : Nat) : State :=
  (s.standCtr st (if status = 0 then 0 else 1) 1).progress (queueKey st q)

/-- The completion status of a command: its own, or MEM_ERROR where a data mover met an uncorrectable line (R202). -/
def Cmd.final (c : Cmd) : Nat := if c.status = 0 ∧ c.st.memError then 7 else c.status

/-- The completion record of a command. -/
def Cmd.record (c : Cmd) (now : Nat) : List Byte :=
  cplRecord (dTag c.desc) c.final c.st.byte c.defers c.st.flush 0 c.failBough (dIds c.desc)
    (match c.started with | some t => if t ≤ now then t else 0 | none => 0) c.ended

/-- The commands of the same queue fetched after a command. -/
def State.laterCmds (s : State) (c : Cmd) : List Cmd :=
  ((s.cmds.filter fun d => d.stand == c.stand && d.queue == c.queue).dropWhile fun d => d.uid != c.uid).drop 1

/-- Complete a command: its record, its vector, its counters, and the halt of a status other than OK. -/
def State.completeCmd (s : State) (c : Cmd) : State :=
  let later := s.laterCmds c
  let s := { s with
    cmds := s.cmds.filter fun d => !(d.stand == c.stand && d.queue == c.queue && d.uid == c.uid),
    fence := s.fence.modify 0 (queueKey c.stand c.queue) (max c.last) }
  let s := (s.writeCpl c.stand c.queue c.index (c.record (s.timeAt s.clk.now).1)).countCpl c.stand c.queue c.final
  let s := if c.final = 0 then s else s.haltQueue c.stand c.queue c.final later
  s.cplIrq c.stand c.queue c.desc

/-! ### Fetch checks (R148) -/

/-- The first twig of the mask that fails check 3: its status and bough. -/
def State.twigCheck (s : State) (st : Nat) (twigs : List Nat) : Option (Nat × Nat) :=
  (twigs.find? fun t => s.twigStand t != some st || s.flag (TWIG_STATUS_degraded t)).map fun t =>
    (if s.twigStand t != some st then 1 else 4, t / 36)

/-- The share of a stand as its queue page shows it (R146). -/
def State.share (s : State) (st : Nat) : Share :=
  { mask := s.fld (CQ_SHARE_MASK_mem_slots st), hHbm := s.fld (CQ_SHARE_RATE_h_hbm st), hBbuf := s.fld (CQ_SHARE_RATE_h_bbuf st),
    hLeaf := s.fld (CQ_SHARE_RATE_h_leaf st) }

/-- Where a sub-descriptor that starts in lclk `t` of the ring ends, if before the guard band (R151, R156). -/
def State.planEnd (s : State) (st op : Nat) (b : List Byte) (t : Nat) : Option Nat :=
  match subEnd (s.share st) s.slotLen op b t with
  | none => none
  | some e =>
    let e := e + if s.traceOn st then 6 else 0
    if e ≤ 62 * s.slotLen then some e else none

/-- Checks 3 to 8 of a descriptor whose sub-descriptors are `subs` (*Fetch checks*): status, check and bough of the first failure. -/
def State.checkRest (s : State) (st : Nat) (d : List Byte) (subs : List (Nat × List Byte)) : Option (Nat × Nat × Nat) :=
  let op := dOpcode d
  let low := leafBough ((dLeaves d).headD 0)
  let bad := fun (f : Nat × List Byte → Bool) => (subs.find? fun x => !f x).map fun x => leafBough x.1
  match s.twigCheck st (dTwigs d) with
  | some (status, b) => some (status, 3, b)
  | none =>
    if (dFlag d 1 ∧ s.knotOwner (dWait d).1 ≠ some st) ∨ (dFlag d 2 ∧ s.knotOwner (dArrive d).1 ≠ some st) then some (1, 4, low)
    else if dFlag d 0 ∧ !s.inBounds st (dSubBase d) (64 * (dLeaves d).length) then some (1, 5, low)
    else match bad fun x => (subRanges op x.2).all (rangeOk (sBanks x.2)) with
      | some b => some (1, 6, b)
      | none =>
        match bad fun x => op != 0x31 || (sRuns x.2).all fun a => s.remoteIn st (sKind x.2) a (sCount0 x.2) with
        | some b => some (1, 7, b)
        | none => (bad fun x => (s.planEnd st op x.2 0).isSome).map fun b => (2, 8, b)

/-- The checks of R148 in order, none when all pass. -/
def State.fetchCheck (s : State) (st : Nat) (d : List Byte) (subs : List (Nat × List Byte)) : Option (Nat × Nat × Nat) :=
  let low := leafBough ((dLeaves d).headD 0)
  if !opcodes.contains (dOpcode d) then some (5, 1, low)
  else if !descFormatOk d then some (3, 2, low)
  else match subs.find? fun x => !subFormatOk (dOpcode d) x.2 with
    | some x => some (3, 2, leafBough x.1)
    | none => s.checkRest st d subs

/-- Bytes a dispatcher reads of its stand's HBM; what an uncorrectable line gives it is not stated (log entry 34). -/
def State.dispatchRead (s : State) (st a n : Nat) : List Byte × State :=
  match s.standRead st a n with
  | none => ([], s)
  | some (bs, bad, s) => if bad then (s.freeBytes n, s.drawnBytes n) else (bs, s)

/-- The sub-descriptors of a descriptor, one for each selected leaf (R140). -/
def State.readSubs (s : State) (st : Nat) (d : List Byte) : List (Nat × List Byte) × State :=
  let leaves := dLeaves d
  let ranks := List.range leaves.length
  if dFlag d 0 then
    let (t, s) := if dSubBase d % 64 = 0 then s.dispatchRead st (dSubBase d) (64 * leaves.length) else ([], s)
    (if t = [] then [] else ranks.map fun r => (leaves.getD r 0, (t.drop (64 * r)).take 64), s)
  else (ranks.map fun r => (leaves.getD r 0, sRank (dOpcode d) (dSub d) (dStride d) r), s)

/-- The slot an entry is eligible from: that of the first doorbell that covers it. -/
def State.entrySlot (s : State) (key : Nat) : Nat := ((s.bells.find? fun b => b.1 == key).map (·.2.2)).getD 0

/-- The head moves past an entry; a doorbell that covers nothing more is used up. -/
def State.passEntry (s : State) (st q : Nat) : State :=
  let head := (s.fld (CQ_STATE_head st q) + 1) % 2 ^ s.fld (CQ_CFG_log2_size st q)
  let key := queueKey st q
  let s := { s with fetched := s.fetched.modify 0 key (· + 1), bells := s.bells.filter fun b => !(b.1 == key && b.2.1 == head) }
  s.setFld (CQ_STATE_head st q) head

/-- A command fails a check (R159, R160): its record where its completion entry is inside the regions, the fault count, the halt. -/
def State.failFetch (s : State) (st q i : Nat) (d : List Byte) (f : CheckFail) : State :=
  let s := if f.status = 1 then s.standFault st 1 else s
  let now := (s.timeAt s.clk.now).1
  let s := if f.written then s.writeCpl st q i (cplRecord f.tag f.status 0 0 0 f.check f.bough f.ids 0 now) else s
  ((s.countCpl st q f.status).haltQueue st q f.status []).cplIrq st q d

/-- Whether a queue still holds a fetched command with a segment to admit. -/
def State.unadmitted (s : State) (st q : Nat) : Bool := s.cmds.any fun c => c.stand == st && c.queue == q && !c.boughs.isEmpty

/-- A number that no fetched command of a queue has. -/
def State.nextUid (s : State) (st q : Nat) : Nat :=
  (s.cmds.filter fun c => c.stand == st && c.queue == q).foldl (fun n c => max n (c.uid + 1)) 0

/-- A failed check takes effect in queue order: at once, or once the earlier commands of its queue are admitted (log entry 58). -/
def State.failInOrder (s : State) (st q i : Nat) (d : List Byte) (f : CheckFail) : State :=
  if s.unadmitted st q then
    { s with
      cmds := s.cmds ++ [{ stand := st, queue := q, index := i, uid := s.nextUid st q, desc := d, subs := [], boughs := [], waiting := [], slot := 0,
                           failed := some f }] }
  else s.failFetch st q i d f

/-- The oldest command of an entry that may complete: one that failed a check, or whose every leaf of every segment has arrived. -/
def State.doneAt (s : State) (st q i : Nat) : Option Cmd :=
  s.cmds.find? fun c => c.stand == st && c.queue == q && c.index == i && (c.failed.isSome || (c.boughs.isEmpty && c.waiting.isEmpty))

/-- COMMAND_COMPLETE (R155): every leaf of every segment has arrived. A command that failed a check behind commands still waiting for
admission fails here, once they are admitted (R159, log entry 58). -/
def execCommandComplete (st q i : Nat) (s : State) : Res :=
  match s.doneAt st q i with
  | none => .next s
  | some c =>
    match c.failed with
    | some f =>
      s.when (!s.unadmitted st q) <|
        { s with cmds := s.cmds.filter fun d => !(d.stand == st && d.queue == q && d.uid == c.uid) }.failFetch st q i c.desc f
    | none => .next (s.completeCmd c)

/-- Fetch and check one entry (R148). -/
def State.fetchEntry (s : State) (st q : Nat) : State :=
  let i := s.fld (CQ_STATE_head st q)
  let slot := s.entrySlot (queueKey st q)
  let written := s.inBounds st (s.cplAt st q i) 32
  if !(s.inBounds st (s.entryAt st q i) 128 && written) then
    let tag := bytesAt (s.freeBytes 8) 0 4
    let ids := bytesAt (s.freeBytes 8) 4 4
    ((s.drawnBytes 8).passEntry st q).failInOrder st q i [] { status := 1, check := 5, bough := 0, tag, ids, written }
  else
    let (d, s) := s.dispatchRead st (s.entryAt st q i) 128
    let (subs, s) := s.readSubs st d
    let s := s.passEntry st q
    match s.fetchCheck st d subs with
    | some (status, check, bough) =>
      s.failInOrder st q i d { status, check, bough, tag := dTag d, ids := dIds d, written := true }
    | none =>
      let leaves := dLeaves d
      let c : Cmd :=
        { stand := st, queue := q, index := i, uid := s.nextUid st q, desc := d, subs, boughs := (leaves.map leafBough).eraseDups, waiting := leaves, slot }
      { s with cmds := s.cmds ++ [c] }.progress (queueKey st q)

/-- Whether a stand holds a twig on a bough. -/
def State.standOnBough (s : State) (st b : Nat) : Bool := (List.range 36).any fun j => s.twigStand (36 * b + j) == some st

/-- Whether a queue of a stand may fetch now (R137, R139, R160). -/
def State.mayFetch (s : State) (st q : Nat) : Bool :=
  decide (st < 16) && decide (q < 4) && s.standState st == 2 && s.clk.ringOn && decide (s.clk.slot < 62) && s.serving
    && ((List.range 4).all fun b => s.coreOn b || !s.standOnBough st b) && s.flag (CQ_CFG_enable st q) && !s.flag (CQ_STATE_halted st q)
    && !(s.cmds.any fun c => c.stand == st && c.queue == q && c.failed.isSome)
    && s.fld (CQ_STATE_head st q) != s.fld (CQ_STATE_tail_seen st q) && decide (s.fetched.get 0 (queueKey st q) < 8)

/-- DESCRIPTOR_FETCH (R148): at most 8 per queue per slot, none in the guard band. -/
def execDescriptorFetch (st q : Nat) (s : State) : Res := s.when (s.mayFetch st q) (s.fetchEntry st q)

/-! ### Ring admission (R149-R157) -/

/-- A wait condition on a mirror's value and generation (R166). -/
def waitMet (op value gen operand : Nat) : Bool :=
  match op with
  | 0 => serialGe 32 value operand
  | 1 => value == operand
  | 2 => value != operand
  | 3 => serialGe 16 gen (operand % 65536)
  | 4 => (value &&& operand) != 0
  | _ => (value &&& operand) == operand

/-- Whether a command's wait condition holds on bough `b`'s mirror at a slot that starts in lclk `t` (R154, R173). -/
def State.cmdWaitMet (s : State) (b t : Nat) (c : Cmd) : Bool :=
  !dFlag c.desc 1 ||
    (let (k, op) := dWait c.desc
     let (v, g) := s.mirrorSeen b k t
     waitMet op v.toNat g.toNat (bytesAt c.desc 36 4))

/-- Whether a command's fence condition holds at a slot that starts in lclk `t` (R141, R154). -/
def State.cmdFenceMet (s : State) (t : Nat) (c : Cmd) : Bool :=
  !dFlag c.desc 3 ||
    (let mine := s.cmds.filter fun d => d.stand == c.stand && d.queue == c.queue
     (match mine with | [] => true | d :: _ => d.uid == c.uid)
       && (let last := s.fence.get 0 (queueKey c.stand c.queue); last == 0 || decide (last + 72 ≤ t)))

/-- The sub-descriptors of a command's segment on a bough. -/
def Cmd.segment (c : Cmd) (b : Nat) : List (Nat × List Byte) := c.subs.filter fun x => leafBough x.1 == b

/-- The lclk of the ring from which a leaf is free. -/
def State.leafFree (s : State) (n : Nat) : Nat :=
  match s.leafPlace n with
  | none => 0
  | some (t, p) => (s.leaf t p).free - s.clk.lclk0

/-- The start and end a segment's sub-descriptors are planned for, none when one does not fit (R151). -/
def State.planSegment (s : State) (c : Cmd) (t0 : Nat) : List (Nat × List Byte) → Option (List (Nat × List Byte × Nat × Nat))
  | [] => some []
  | (n, b) :: rest =>
    let st := max t0 (s.leafFree n)
    match s.planEnd c.stand (dOpcode c.desc) b st with
    | none => none
    | some e => (State.planSegment s c t0 rest).map fun l => (n, b, st, e) :: l

/-- The dispatcher's trace record of an admission (3) or a deferral (4). -/
def State.traceSeg (s : State) (kind b : Nat) (c : Cmd) (detail : Nat) : State :=
  s.trace b { kind, engine := 1, unit := b, stand := c.stand, opcode := dOpcode c.desc, status := if kind = 3 then c.queue else 0,
              time := s.rd RING_TIME, ids := dIds c.desc, tag := dTag c.desc, detail }

/-- A leaf of a command is gone at a ring time: the command completes with LEAF_ABSENT and without its arrive (R158, R89), its end no earlier. -/
def Cmd.dropLeaf (c : Cmd) (n time : Nat) : Cmd :=
  { c with
    ended := max c.ended time, waiting := c.waiting.filter (· != n), status := if c.status = 0 then 4 else c.status,
    failBough := if c.status = 0 then leafBough n else c.failBough }

/-- Hand one planned sub-descriptor to its leaf. -/
def State.admitLeaf (s : State) (c : Cmd) (x : Nat × List Byte × Nat × Nat) : State :=
  match s.leafPlace x.1 with
  | none => s.onCmd c.stand c.queue c.uid fun c => c.dropLeaf x.1 (s.rd RING_TIME).toNat
  | some (t, p) =>
    let r : SubRun :=
      { stand := c.stand, queue := c.queue, index := c.index, uid := c.uid, opcode := dOpcode c.desc, sub := x.2.1,
        start := s.clk.lclk0 + x.2.2.1, stop := s.clk.lclk0 + x.2.2.2, narrow := s.standNarrow c.stand,
        layer := dIds c.desc % 2 ^ 20 }
    s.onLeaf t p fun l => { l with queue := l.queue ++ [r], free := r.stop }

/-- Admit a segment as planned (R151). -/
def State.admitSegment (s : State) (b : Nat) (c : Cmd) (plan : List (Nat × List Byte × Nat × Nat)) : State :=
  let first := (plan.map fun x => (s.timeAt (s.clk.lclk0 + x.2.2.1)).1).foldl (fun (m : Option Nat) t => some (match m with
    | none => t
    | some x => min x t)) none
  let start := match c.started, first with
    | none, f => f
    | some x, none => some x
    | some x, some y => some (min x y)
  let s := s.forEach plan fun x s => s.admitLeaf c x
  let s := s.onCmd c.stand c.queue c.uid fun d =>
    { d with
      boughs := d.boughs.filter (· != b), started := start, st := { d.st with traced := d.st.traced || s.traceOn c.stand },
      deferred := d.deferred.filter fun e => e.1 != b }
  ((s.standCtr c.stand 2 1).progress (queueKey c.stand c.queue)).traceSeg 3 b c ((plan.map (·.2.2.2)).foldl max 0)

/-- Defer a segment to slot 0 of the next ring (R152). -/
def State.deferSegment (s : State) (b : Nat) (c : Cmd) : State :=
  let s := s.onCmd c.stand c.queue c.uid fun d =>
    { d with defers := min 255 (d.defers + 1), deferred := (b, s.rings + 1) :: d.deferred.filter fun e => e.1 != b }
  (s.standCtr c.stand 3 1).traceSeg 4 b c (min 255 (c.defers + 1))

/-- The slot a segment is eligible from (R138, R139). -/
def Cmd.eligible (c : Cmd) (b : Nat) : Nat := c.slot + if dFlag c.desc 0 then ceilDiv (c.segment b).length 512 else 0

/-- Whether the head segment waits at this boundary (R150). -/
def State.segmentWaits (s : State) (b k : Nat) (c : Cmd) : Bool :=
  let seg := c.segment b
  let t := s.clk.lclk0 + k * s.slotLen
  !s.cmdWaitMet b t c || !s.cmdFenceMet t c
    || seg.any (fun x => s.parked (x.1 / 32))
    || seg.any fun x => match s.leafPlace x.1 with
      | some (t, p) => decide (4 ≤ (s.leaf t p).queue.length)
      | none => false

/-- Whether a segment fits no ring even from lclk 0 with all leaves free (R153). -/
def State.segmentUnfit (s : State) (b : Nat) (c : Cmd) : Bool :=
  (c.segment b).any fun x => (s.planEnd c.stand (dOpcode c.desc) x.2 0).isNone

/-- The head segment of a queue on a bough: of the first command that has one there. -/
def State.headSegment (s : State) (b st q : Nat) : Option Cmd :=
  s.cmds.find? fun c => c.stand == st && c.queue == q && c.boughs.contains b

/-- Evaluate the head segment at the start of slot `k`: admitted, or none when the queue's evaluation ends (R151-R153). The state comes
back either way. -/
def State.evalHead (s : State) (b st q k : Nat) : Bool × State :=
  match s.headSegment b st q with
  | none => (false, s)
  | some c =>
    let held := c.deferred.any fun e => e.1 == b && decide (s.rings < e.2)
    let late := c.deferred.any fun e => e.1 == b
    if held ∨ s.rings * 64 + k < c.eligible b then (false, s)
    else if k = 0 ∧ late ∧ s.segmentUnfit b c then (false, s.deferSegment b c)
    else if s.segmentWaits b k c then (false, s)
    else match s.planSegment c (k * s.slotLen) (c.segment b) with
      | none => (false, s.deferSegment b c)
      | some plan => (true, s.admitSegment b c plan)

/-- Up to `n` segments of a queue. -/
def State.evalQueue : Nat → State → Nat → Nat → Nat → Nat → State
  | 0, s, _, _, _, _ => s
  | n + 1, s, b, st, q, k =>
    match s.evalHead b st q k with
    | (true, s) => State.evalQueue n s b st q k
    | (false, s) => s

/-- Whether a bough's dispatcher evaluates a stand (R149): its leaves run. -/
def State.evaluates (s : State) (b st : Nat) : Bool := s.standState st == 2 && s.standOnBough st b && s.leavesOn b

/-- A queue's CQ_STATE.unfit at slot 0 (R153): a deferred head fits no ring on some bough, found anew where its dispatcher evaluates it and as it
was where none does. -/
def State.refreshUnfit (s : State) (st q : Nat) : State :=
  let old := s.flag (CQ_STATE_unfit st q)
  let unfit := (List.range 4).any fun b =>
    match s.headSegment b st q with
    | some c =>
      (c.deferred.any fun e => e.1 == b) &&
        (if s.evaluates b st && !s.flag (CQ_STATE_halted st q) then s.segmentUnfit b c else old)
    | none => false
  if unfit = old then s else s.setFlag (CQ_STATE_unfit st q) unfit

/-- One dispatcher's evaluation of one stand (R149), while the bough's leaves run. -/
def State.evalStand (s : State) (b st k : Nat) : State :=
  if s.evaluates b st then
    s.forEach [0, 1, 2, 3] fun q s => if s.flag (CQ_STATE_halted st q) then s else State.evalQueue 8 s b st q k
  else s

/-- The admission of slot `k` (R149): every dispatcher, every stand. -/
def State.admitSlot (s : State) (k : Nat) : State :=
  let s := if k = 0 then
      s.forEach ((List.range 16).flatMap fun st => [0, 1, 2, 3].map fun q => (st, q)) fun p s => s.refreshUnfit p.1 p.2
    else s
  s.forEach [0, 1, 2, 3] fun b s => s.forEach (List.range 16) fun st s => s.evalStand b st k

/-! ### The end of a sub-descriptor (R83, R155, R158) -/

/-- The knot operation of an arrive (R166). -/
def arriveKind (op : Nat) : KnotOpKind := if op = 0 then .arrive else if op = 1 then .add else .signal

/-- A leaf issues the arrive its descriptor names, in lclk `t` (R141, R176). -/
def State.leafArrive (s : State) (n : Nat) (c : Cmd) (t : Nat) : State :=
  if dFlag c.desc 2 then
    let (k, op) := dArrive c.desc
    s.sendKnot k (arriveKind op) (if op = 0 then 1 else bytesAt c.desc 44 4) (some c.stand) n t (leafPath n k)
  else s

/-- A leaf of a command has arrived in lclk `t`. -/
def Cmd.arrived (c : Cmd) (n t time : Nat) : Cmd :=
  { c with waiting := c.waiting.filter (· != n), last := max c.last t, ended := max c.ended time }

/-- The head sub-descriptor of a leaf ends in lclk `t`. -/
def State.endHead (s : State) (n tw p : Nat) (r : SubRun) (t : Nat) : State :=
  let s := (s.atLclk t).traceLeaf 2 n r t (t + 1 - r.start)
  let d := ((s.cmdAt r.stand r.queue r.uid).map (·.desc)).getD []
  let s := match s.cmdAt r.stand r.queue r.uid with
    | some c => s.leafArrive n c t
    | none => s
  let s := s.onCmd r.stand r.queue r.uid fun c => c.arrived n t (s.timeAt t).1
  let s := (s.standCtr r.stand 4 1).standCtr r.stand 5 (t + 1 - r.start)
  ((s.leafEvent n 0x03 1 1).nameSamples n t (r.opcode, r.queue, dIds d, dTag d)).onLeaf tw p fun l => { l with queue := l.queue.drop 1 }

/-- Whether a sub-descriptor may arrive in lclk `t`: in the last lclk of its cost (R143), up to 6 lclk before while traced (R156). -/
def State.arrivesAt (s : State) (r : SubRun) (t : Nat) : Bool :=
  decide (t + 1 ≤ r.stop) && decide (r.stop ≤ t + 1 + if s.traceOn r.stand then 6 else 0)

/-- SUBDESC_COMPLETE (R83): the head sub-descriptor, once run, ends with its arrive; the next one starts after it. -/
def execSubdescComplete (leaf t : Nat) (s : State) : Res :=
  match s.leafPlace leaf with
  | none => .next s
  | some (tw, p) =>
    match (s.leaf tw p).queue with
    | [] => .next s
    | r :: _ => s.when (r.ran && s.leavesOn (leafBough leaf) && s.arrivesAt r t) (s.endHead leaf tw p r t)

/-- A leaf that has not arrived by step 1 of the guard band is dropped (R158): its sub-descriptors go, its fault bit is set, it takes a
leaf reset. -/
def State.dropLeaf (s : State) (tw p : Nat) : State :=
  match s.slotOf tw p with
  | none => s
  | some i =>
    let n := 32 * tw + i
    let s := s.forEach (s.leaf tw p).queue fun r s => s.onCmd r.stand r.queue r.uid fun c => c.dropLeaf n (s.rd RING_TIME).toNat
    (s.resetLeaf tw p).setLeafFault tw i

/-- Every leaf with an admitted sub-descriptor is dropped at step 1 of the guard band (R158). -/
def State.dropLeaves (s : State) : State :=
  s.forEach ((s.leaves.filter fun e => !e.2.queue.isEmpty).map (·.1)) fun key s => s.dropLeaf (key / 33) (key % 33)

end Sys2Proof.Machine
end

