-- ==== Sys2Proof/Machine/Receive.lean ====
section
/-! DEFINITION. What an NI receives (09_fabric_transport.md, R238-R241, R255-R267; 10_collectives.md, R282, R287, R296): the receive
checks, placement, open operations, and the ten packet types. -/

namespace Sys2Proof

open Machine

/-! ### What a packet says -/

/-- Whether a packet carries a knot operation. -/
def Packet.hasKnot (p : Packet) : Bool := p.knotOp != 15

/-- The resent flag. -/
def Packet.resent (p : Packet) : Bool := bitOf p.flags 1

/-- The crc_e2e flag. -/
def Packet.e2e (p : Packet) : Bool := bitOf p.flags 2

/-- The wire mode of a packet (R282). -/
def Packet.wire (p : Packet) : Nat := bitsOf p.coll 27 24

/-- The element type of a packet (R282). -/
def Packet.elem (p : Packet) : Nat := bitsOf p.coll 31 28

/-- The types that carry their payload to an address of the destination. -/
def Packet.places (p : Packet) : Bool := p.type == 1 || p.type == 3 || p.type == 5 || p.type == 6

/-- The bytes a packet's payload is written as (R282, R290, R295): a REDUCE decodes LOSSLESS only, reserved codes are written as
received. -/
def Rx.written (r : Rx) : List Byte :=
  let p := r.pkt
  if !wireOk p.wire p.elem then p.payload
  else if p.type = 5 ∧ isBqe p.wire then p.payload
  else decodePayload p.wire p.elem r.pad p.payload

/-- The bytes a packet's range has at the destination: those written, or those a GET_REQ reads. -/
def Rx.extent (r : Rx) : Nat := if r.pkt.type = 2 then bytesAt r.pkt.payload 8 4 else r.written.length

/-- The placement target: a REDUCE names the channel area with target 3; so is target 3 of other data (log entry 40). -/
def Packet.kind (p : Packet) : Nat := if p.type = 5 then 3 else p.target

/-- The knot operation of a packet as it is sent on. -/
def Packet.knotData (p : Packet) : Nat := if p.knotOp = 0 then 1 else p.knotValue

/-- Whether a packet came by loopback. -/
def Rx.loop (r : Rx) : Bool := decide (18 ≤ r.limb)

/-- Whether a packet is delivered LATE (R220, R258). -/
def Rx.isLate (r : Rx) : Bool := r.late || r.pkt.resent

/-- A new operation for a packet at an NI. -/
def Packet.newOp (p : Packet) (io : Nat) : RxOp :=
  { io, srcNode := p.srcNode, srcEpoch := p.srcEpoch, srcStand := p.srcStand, opId := p.opId, dstStand := p.dstStand, count := p.pktCount,
    got := [], highest := [] }

/-- A FAULT packet's key: the node and code in knot_value, the epoch in remote_addr (R265; log entry 43). -/
def Packet.faultKey (p : Packet) : Nat × Nat × Nat := (bitsOf p.knotValue 11 0, bitsOf p.knotValue 23 16, bitsOf p.remote 15 0)

/-- The wire mode and element type a GET_RESP is coded in: those the GET_REQ's coll field names (log entry 85). -/
def Packet.coding (p : Packet) : Nat × Nat := if wireOk p.wire p.elem then (p.wire, p.elem) else (0, p.elem)

/-- Whether an ERR names a packet: its index, sent to where the ERR comes from (an A2A sends one index to several, R298). -/
def Packet.namedBy (p e : Packet) : Bool := p.pktIndex == e.remote && p.dstNode == e.srcNode && p.dstStand == e.srcStand

/-- Whether two packets of a limb belong to one operation: they arrive in order (R240). -/
def Rx.sameOp (r q : Rx) : Bool :=
  r.limb == q.limb && r.pkt.srcNode == q.pkt.srcNode && r.pkt.srcEpoch == q.pkt.srcEpoch && r.pkt.srcStand == q.pkt.srcStand
    && r.pkt.opId == q.pkt.opId && r.pkt.dstStand == q.pkt.dstStand

/-- Whether a packet would go to Heartwood: a FAULT or CHAIN packet. -/
def Rx.forHeartwood (r : Rx) : Bool := r.pkt.type == 9 || r.pkt.type == 10

end Sys2Proof

namespace Sys2Proof.Machine

/-! ### Receive checks (R255) -/

/-- Check 1: its type, reserved fields, length and knot_op (log entry 41). -/
def State.check1 (s : State) (r : Rx) : Bool :=
  let p := r.pkt
  let top := if !r.loop && s.fld (LIMB_STATUS_llp r.limb) == 2 then 2048 else 4096
  decide (1 ≤ p.type) && decide (p.type ≤ 10) && decide (p.flags < 8) && p.reserved == 0 && p.length == p.payload.length
    && decide (p.length ≤ top) && (decide (p.knotOp ≤ 2) || p.knotOp == 15)
    && (p.type != 2 || (p.length == 16 && bytesAt p.payload 12 4 == 0))
    && !((p.type == 4 || p.type == 7 || p.type == 8) && p.length != 0)

/-- Check 2: the node, and the epoch but for FAULT and CHAIN (R267, R450). -/
def State.check2 (s : State) (p : Packet) : Bool :=
  s.liveFlag NI_NODE_valid && p.dstNode == s.node && (p.type == 9 || p.type == 10 || p.dstEpoch == s.nodeEpoch)

/-- The stand a limb's key index maps to, handed to the NI with a packet (R223). -/
def State.keyStand (s : State) (l k : Nat) : Option Nat :=
  if k < 16 then some (bitsOf (s.liveRd (LIMB_KEY_MAP l)).toNat (4 * k + 3) (4 * k)) else none

/-- Check 3: on LLP3, the stand of the key index; loopback carries no crypto (R288). -/
def State.check3 (s : State) (r : Rx) : Bool :=
  r.loop || s.fld (LIMB_STATUS_llp r.limb) == 2 || s.keyStand r.limb r.keyIndex == some r.pkt.dstStand

/-- Check 4: the source's rank entry; for a MACK the sender's group entry (R264). -/
def State.check4 (s : State) (p : Packet) : Bool :=
  if p.type = 7 then
    s.liveFlag (NI_MCAST_GROUP_valid p.group) && s.liveFlag (NI_MCAST_GROUP_sender p.group) && s.liveFld (NI_MCAST_GROUP_stand p.group) == p.dstStand
  else match s.rankEntry p.dstStand p.srcRank with
    | some i => s.liveFld (NI_RANK_ENTRY_node i) == p.srcNode && s.liveFld (NI_RANK_ENTRY_epoch i) == p.srcEpoch
    | none => false

/-- Check 5: the stand exists and is not in reset. -/
def State.check5 (s : State) (st : Nat) : Bool :=
  s.standState st != 0 && s.standState st != 3 && !(s.stand st).resetEntered

/-- Whether a range of `n` bytes at a packet's address is its stand's (R77, R94, R190, R282). -/
def State.rangeIn (s : State) (p : Packet) (n : Nat) : Bool :=
  if p.kind = 3 then s.chanOf p.channel p.dstStand && s.chanIn p.channel p.remote n else s.remoteIn p.dstStand p.kind p.remote n

/-- Check 6: the range and the knot. -/
def State.check6 (s : State) (r : Rx) : Bool :=
  let p := r.pkt
  ((!(p.places || p.type == 2) || (r.extent == 0 && p.type != 5)) || s.rangeIn p r.extent)
    && (!p.hasKnot || s.knotOwner p.knot == some p.dstStand)

/-- Check 7: membership and deliver_by of an MCAST_PUT. -/
def State.check7 (s : State) (p : Packet) : Bool :=
  p.type != 6 || (s.liveFlag (NI_MCAST_GROUP_valid p.group) && !s.liveFlag (NI_MCAST_GROUP_sender p.group)
    && s.liveFld (NI_MCAST_GROUP_stand p.group) == p.dstStand && !serialGe 32 (s.ring % 2 ^ 32) p.deliverBy)

/-- The first receive check that fails, or 0. -/
def State.rxCheck (s : State) (r : Rx) : Nat :=
  let p := r.pkt
  let mgmt := p.type == 9 || p.type == 10
  if !s.check1 r then 1
  else if !s.check2 p then 2
  else if mgmt then 0
  else if !s.check3 r then 3
  else if !s.check4 p then 4
  else if !s.check5 p.dstStand then 5
  else if p.type != 7 && !s.check6 r then 6
  else if !s.check7 p then 7
  else 0

/-! ### Packets an NI builds itself -/

/-- The path of a response to a packet of a stand: best-effort or in the request's class, by the source's rank entry. -/
def State.replyPath (s : State) (r : Rx) (sched : Bool) : Path :=
  let p := r.pkt
  match s.rankEntry p.dstStand p.srcRank with
  | some i =>
    { io := limbIo r.limb, stand := p.dstStand, index := noTrigger, sched := sched && s.liveFlag (NI_RANK_ENTRY_sched_ok i),
      route := s.liveFld (NI_RANK_ENTRY_route i), budget := s.liveFld (NI_RANK_ENTRY_budget i) }
  | none => { io := limbIo r.limb, stand := p.dstStand, index := noTrigger, sched := false, route := 0, budget := 0 }

/-- The header of a reply: back to the source, with the operation's number and channel. -/
def State.replyHead (s : State) (r : Rx) (type : Nat) : Packet :=
  let p := r.pkt
  { type, flags := 0, dstStand := p.srcStand, srcStand := p.dstStand, srcLimb := 0, target := 3, dstNode := p.srcNode,
    dstEpoch := p.srcEpoch, srcNode := s.node, srcEpoch := s.nodeEpoch, srcRank := s.ownRank p.dstStand, group := 0, length := 0,
    knot := 0, knotOp := 15, knotValue := 0, remote := 0, opId := p.opId, channel := p.channel, reserved := 0, inject := 0,
    pktIndex := 0, pktCount := 1, deliverBy := 0, coll := 0, payload := [] }

/-- An ERR to the source rank (R255): knot_value carries the cause, remote_addr the refused packet's index (log entry 42). A MACK names no rank
(R264), so none answers it (log entry 68). -/
def State.sendErr (s : State) (r : Rx) (cause : Nat) : State :=
  if r.pkt.type = 7 then s
  else s.queue (s.replyPath r false) [({ s.replyHead r 8 with knotValue := cause, remote := r.pkt.pktIndex }, 0)]

/-- A MACK of a delivered MCAST_PUT (R264), on the limb of its last packet or by the group's route. -/
def State.sendMack (s : State) (r : Rx) : State :=
  let p := r.pkt
  let h := { s.replyHead r 7 with srcRank := 0, group := p.group, pktIndex := s.liveFld (NI_MCAST_GROUP_member p.group) }
  let route := if r.limb < 18 ∧ s.limbActive r.limb then 1 <<< r.limb else s.liveFld (NI_MCAST_GROUP_route p.group)
  s.queue { io := limbIo r.limb, stand := p.dstStand, index := noTrigger, sched := false, route, budget := 0 } [(h, 0)]

/-- Read a range of a stand: HBM, bough buffer, leaf or channel area. The flag is an uncorrectable line, sent as zeros (R256). -/
def State.readKind (s : State) (st kind channel a n : Nat) : List Byte × Bool × State :=
  if kind = 3 then (s.bytes (s.chanAt channel a) n, false, s) else s.remoteRead st kind a n

/-- Whether a line of HBM that a stand's range touches is uncorrectable (R202). -/
def State.rangeBad (s : State) (st kind a n : Nat) : Bool :=
  kind == 0 && (match s.translate st a with
    | some p => (List.range (linesOf p n)).any fun i => (s.line (p / 64 + i)).err == .uncorrectable
    | none => false)

/-- The GET_RESP packets that answer a GET_REQ, coded from the bytes read (R238, R282, R289). A packet whose own bytes touched an uncorrectable line is
poisoned (R256); under crc_e2e each carries its CRC (R296). -/
def State.getPackets (s : State) (r : Rx) (bad : Nat → Nat → Bool) (n : Nat) (c : Coded) : List (Packet × Nat) :=
  let p := r.pkt
  let ret := bytesAt p.payload 0 8
  (List.range c.parts.length).map fun i =>
    let x := c.parts.getD i (0, [])
    let w := c.span p.coding.1 p.coding.2 n false i
    ({ s.replyHead r 3 with
        flags := bit (bad w.1 w.2) + 4 * bit p.e2e, target := bitsOf ret 63 62, remote := bitsOf ret 61 0 + x.1, length := x.2.length,
        pktIndex := i, pktCount := c.parts.length, payload := x.2,
        coll := p.coding.1 * 2 ^ 24 + p.coding.2 % 16 * 2 ^ 28 + (if p.e2e then crc32c x.2 * 2 ^ 32 else 0) },
      if i + 1 = c.parts.length then c.pad else 0)

/-- A GET_REQ is answered with GET_RESP packets in its class (R238). A BQE answer starts from residuals of zero (log entry 85). -/
def State.answerGet (s : State) (r : Rx) : State :=
  let p := r.pkt
  let x := s.replyPath r r.sched
  let n := bytesAt p.payload 8 4
  let bad := fun (o k : Nat) => s.rangeBad p.dstStand p.kind (p.remote + o) k
  let (bs, _, t) := s.readKind p.dstStand p.kind p.channel p.remote n
  t.queue x (t.getPackets r bad n (codeData p.coding.1 p.coding.2 (s.maxPayload x.route) false bs []))

/-! ### Discards -/

/-- The counter of a failed check. -/
def dropCounter (check : Nat) : Fld :=
  match check with
  | 1 => NI_RX_DROP1_type_err
  | 2 => NI_RX_DROP0_epoch_drop
  | 3 => NI_RX_DROP1_stand_mismatch
  | 4 => NI_RX_DROP0_epoch_drop
  | 5 => NI_RX_DROP1_stand_absent
  | 6 => NI_RX_DROP0_bounds_drop
  | _ => NI_RX_DROP1_mcast_drop

/-- NI_LAST_DROP records a discard. -/
def State.lastDrop (s : State) (check : Nat) (r : Rx) : State :=
  let p := r.pkt
  s.wr NI_LAST_DROP (putBits (putBits (putBits (putBits (putBits (putBits 0#64 58 56 check) 55 52 p.dstStand) 51 40 p.srcNode)
    39 24 p.srcEpoch) 20 16 r.limb) 15 0 p.srcRank)

/-- A source that fails check 4 (R260, R393): the event at most once a ring, and a notice. -/
def State.staleSource (s : State) (r : Rx) : State :=
  let s := (s.setFlag NI_EVENT_stale_src true).eventOnce 0x0022 2 0xFF
    (evData [(8, 4, s.fld NI_RX_DROP0_epoch_drop), (12, 2, r.pkt.srcNode), (14, 2, r.pkt.srcEpoch)])
  s.notice (limbIo r.limb) 0x03 r.pkt.srcNode r.pkt.srcEpoch

/-- A packet fails a check. -/
def State.rxDrop (s : State) (check : Nat) (r : Rx) : State :=
  let s := (((s.setFlag NI_EVENT_rx_drop true).count (dropCounter check) 1).lastDrop check r)
  match check with
  | 4 => if r.pkt.type = 7 then s else s.staleSource r
  | 5 => s.sendErr r 5
  | 6 => (s.standFault r.pkt.dstStand 1).sendErr r 6
  | _ => s

/-! ### Delivery -/

/-- Whether a packet is OFFSCHED: its sender says so, or it is scheduled and comes outside its stand's slots (R246, R254). -/
def State.offSched (s : State) (r : Rx) : Bool :=
  r.off || (r.sched && !bitOf (s.liveFld (NI_FSLOT_MASK_slots r.pkt.dstStand)) s.clk.slot)

/-- Count a packet that passes every check (R256, R257, R461, R463, R464, R465). -/
def State.countRx (s : State) (r : Rx) : State :=
  let p := r.pkt
  let st := p.dstStand
  let n := 64 + p.payload.length
  let s := (s.standCtr st 8 1).standCtr st 10 n
  let s := if r.isLate then (s.count NI_RX_LATE_late 1).standCtr st 11 1 else s
  let s := if r.off then (s.count NI_RX_LATE_offsched 1).standCtr st 12 1 else s
  let s := if bitOf p.flags 0 then s.count NI_RX_LATE_rx_poison 1 else s
  if r.loop then s
  else
    let s := ((s.limbView st r.limb 1 1).limbView st r.limb 3 (ceilDiv (88 + p.payload.length) 192)).limbBytes st (18 + r.limb) n
    (s.limbEvent r.limb 0x25 (some st) 1).limbEvent r.limb 0x26 (some st) (ceilDiv (88 + p.payload.length) 192)

/-- Ranges of addresses that meet. -/
def meets (a n b m : Nat) : Bool := decide (a < b + m) && decide (b < a + n)

/-- Whether a FOLD reads its staging range while a packet of this slot writes: it has groups left, or folded its last in this slot (R287). -/
def State.foldReads (s : State) (c : Nat) (t : Trig) : Bool :=
  t.state == .running || (t.state == .finished && t.status == 0 && s.coll.sliced.get 0 c == s.slotNo + 1)

/-- A write into a range a FOLD reads sets stage_conflict (R287; log entry 86). -/
def State.stageWrite (s : State) (c a n : Nat) : State :=
  let hit := fun (t : Trig) => s.foldReads c t && bytesAt t.desc 0 1 == 0x10 && bytesAt t.desc 46 1 % 64 == c
    && meets a n (bytesAt t.desc 32 4)
      (bytesAt t.desc 18 2 * stagedBytes (bytesAt t.desc 2 1 % 16) (bytesAt t.desc 2 1 / 16) (bytesAt t.desc 40 4))
  let k := s.ni.trigs.countP hit
  if k = 0 then s
  else
    let s := s.onNi fun x => { x with trigs := x.trigs.map fun t => if hit t then { t with flags := t.flags ||| 32 } else t }
    (s.count (COLL_CHAN_STATUS_stage_conflicts c) 1).setFlag COLL_EVENT_stage_conflict true

/-- Write bytes where a packet names. -/
def State.placeBytes (s : State) (p : Packet) (bs : List Byte) : State :=
  if p.kind = 3 then (s.stageWrite p.channel p.remote bs.length).store (s.chanAt p.channel p.remote) bs
  else (s.remoteWrite p.dstStand p.kind p.remote bs).2

/-- Whether an open operation is a packet's (R239). -/
def RxOp.is (o : RxOp) (p : Packet) : Bool :=
  o.srcNode == p.srcNode && o.srcEpoch == p.srcEpoch && o.srcStand == p.srcStand && o.opId == p.opId && o.dstStand == p.dstStand

/-- The open operation of a packet, if any. -/
def State.rxOp (s : State) (p : Packet) : Option RxOp := s.ni.rxOps.find? fun o => o.is p

/-- Whether a packet needs a bough whose core domain is gated, for its delivery or its knot operation (R418). -/
def State.rxGated (s : State) (p : Packet) : Bool :=
  ((p.places || p.type == 2) && (match s.targetBough p.dstStand p.kind p.remote with | some b => !s.coreOn b | none => false))
    || (p.hasKnot && !s.coreOn (knotHome p.knot))

/-- Whether a packet waits in its receive buffer: for a gated domain (R418), for a place among the NI's 256 operations of its stand (R239) or 16
chunks (R282). -/
def State.rxWaits (s : State) (r : Rx) : Bool :=
  let p := r.pkt
  s.rxGated p
    || ((s.rxOp p).isNone && decide (256 ≤ s.ni.rxOps.countP fun o => o.dstStand == p.dstStand && o.io == limbIo r.limb))
    || (p.type == 5 && !s.chunkRoom p.channel (bitsOf p.coll 23 16))

/-- Whether a packet is a duplicate (R240, R296). -/
def RxOp.dup (o : RxOp) (p : Packet) : Bool :=
  if p.resent && p.e2e then o.got.contains p.pktIndex
  else o.highest.any fun h => h.1 == p.srcLimb && decide (p.pktIndex ≤ h.2)

/-- An operation after a packet was written. -/
def RxOp.take (o : RxOp) (r : Rx) : RxOp :=
  let p := r.pkt
  { o with
    got := if o.got.contains p.pktIndex then o.got else p.pktIndex :: o.got,
    highest := (p.srcLimb, max p.pktIndex (((o.highest.find? fun h => h.1 == p.srcLimb).map (·.2)).getD 0)) ::
      o.highest.filter (fun h => h.1 != p.srcLimb),
    idle := 0, fresh := true, limb := r.limb, poison := o.poison || bitOf p.flags 0, late := o.late || r.isLate }

/-- Whether every packet of an operation has been written. -/
def RxOp.complete (o : RxOp) : Bool := decide (o.count ≤ o.got.countP fun i => decide (i < o.count))

/-- Close an operation. -/
def State.closeOp (s : State) (p : Packet) : State := s.onNi fun n => { n with rxOps := n.rxOps.filter fun o => !o.is p }

/-- A chunk is open from its first packet (R282). -/
def State.openChunk (s : State) (c k : Nat) : State :=
  if (s.chunkOf c k).isSome then s
  else (s.onColl fun x => { x with chunks := x.chunks ++ [{ channel := c, chunk := k, count := 0 }] }).showChunks c

/-- The knot operation of a completed operation (R239). -/
def State.rxKnot (s : State) (r : Rx) : State :=
  let p := r.pkt
  if p.hasKnot then
    s.sendKnot p.knot (arriveKind p.knotOp) p.knotData (some p.dstStand) (niSource (limbIo r.limb)) s.clk.now (ioPath (limbIo r.limb) p.knot)
  else s

/-- The last GET_RESP of a GET is written: its operation completes with what the packets showed (R277, R279, R295). -/
def State.getDone (s : State) (r : Rx) (o : RxOp) : State :=
  match s.trigOp r.pkt.dstStand r.pkt.opId with
  | some t =>
    if bytesAt t.desc 0 1 = 2 then
      s.onTrig t.stand t.index fun t => { t with state := .finished, flags := t.flags ||| (bit o.late + 2 * bit o.poison) }
    else s
  | none => s

/-- A BQE payload written in a type: overflow of an element, and a reserved code (R291, R295). -/
def bqeFlags (mode ty : Nat) (bs : List Byte) : Nat :=
  let es := (List.range (bs.length / bqeBytes mode)).flatMap fun b =>
    (List.range 32).map (bqeElem mode ((bs.drop (bqeBytes mode * b)).take (bqeBytes mode)))
  8 * bit (es.any fun e => (packIeee (typeFmt ty) .rne e.1).2) + 16 * bit (es.any (·.2))

/-- The record flags a GET_RESP's decoding sets. -/
def State.getFlags (s : State) (p : Packet) : State :=
  if p.type = 3 ∧ wireOk p.wire p.elem ∧ isBqe p.wire then
    match s.trigOp p.dstStand p.opId with
    | some t => s.onTrig t.stand t.index fun t => { t with flags := t.flags ||| bqeFlags p.wire p.elem p.payload }
    | none => s
  else s

/-- What completing an operation does by its type. -/
def State.rxComplete (s : State) (r : Rx) (o : RxOp) : State :=
  let p := r.pkt
  let s := (s.closeOp p).rxKnot r
  match p.type with
  | 2 => s.answerGet r
  | 3 => s.getDone r o
  | 5 => s.contribute p.channel (bitsOf p.coll 23 16) o.poison
  | 6 => s.sendMack r
  | _ => s

/-- Write a packet and advance its operation. -/
def State.rxWrite (s : State) (r : Rx) : State :=
  let p := r.pkt
  let o := ((s.rxOp p).getD (p.newOp (limbIo r.limb))).take r
  let s := if p.type = 5 then s.openChunk p.channel (bitsOf p.coll 23 16) else s
  let s := (if p.places then s.placeBytes p r.written else s).getFlags p
  let s := (s.closeOp p).onNi fun n => { n with rxOps := n.rxOps ++ [o] }
  if o.complete then s.rxComplete r o else s

/-- A packet that passes the checks and belongs to an operation (R239, R240, R296). -/
def State.rxDeliver (s : State) (r : Rx) : State :=
  let p := r.pkt
  if p.e2e && crc32c p.payload != bitsOf p.coll 63 32 then (s.count (COLL_CHAN_CRC_rx_crc_fail (p.channel % 64)) 1).sendErr r 8
  else if (s.rxOp p).any (·.dup p) then s
  else (s.countRx r).rxWrite r

/-! ### MACK, ERR, FAULT and CHAIN -/

/-- A MACK is recorded in its operation's bitmap, or is late (R263, R264). -/
def State.takeMack (s : State) (r : Rx) : State :=
  let p := r.pkt
  let s := s.countRx r
  match s.trigOp p.dstStand p.opId with
  | some t => s.onTrig t.stand t.index fun t => { t with
      bitmap := if t.bitmap.contains p.pktIndex then t.bitmap else p.pktIndex :: t.bitmap }
  | none =>
    ((((s.count NI_MCAST_LATE_count 1).setFld NI_MCAST_LATE_last_group p.group).setFld NI_MCAST_LATE_last_member p.pktIndex)).setFlag
      NI_EVENT_mcast_late true

/-- An ERR that names a completed operation (R278). -/
def State.lateErr (s : State) (p : Packet) : State :=
  let st := p.dstStand
  let s := ((s.count (CQ_TRIG_LATE_ERR_count st) 1).setFld (CQ_TRIG_LATE_ERR_last_op st) p.opId).setFld
    (CQ_TRIG_LATE_ERR_last_cause st) p.knotValue
  let s := s.setFlag COLL_EVENT_late_err true
  if s.flag (CQ_TRIG_CFG_irq_en st) then s.msix (st + 1) 4 else s

/-- The packet named by an ERR of cause 8 is resent once (R296). -/
def State.crcResend (s : State) (t : Trig) (p : Packet) (route : Nat) : State :=
  let s := (s.queue { io := t.io, stand := t.stand, index := t.index, sched := false, route, budget := 0 }
    [({ p with flags := p.flags ||| 2 }, 0)]).count (COLL_CHAN_CRC_resends (p.channel % 64)) 1
  s.onTrig t.stand t.index fun t => { t with
    kept := t.kept.filter (· != p), unsent := t.unsent + 1, flags := t.flags ||| 65 }

/-- An ERR recorded against its open operation (R255, R296): one of cause 8 has the packet resent, once; the packets that may still be are kept. -/
def State.errOf (s : State) (r : Rx) (t : Trig) : State :=
  let cause := r.pkt.knotValue % 256
  let close := bytesAt t.desc 0 1 == 2
  let fail := fun (status : Nat) (s : State) => s.onTrig t.stand t.index fun t =>
    let t := t.fail status (if status = 0x13 then cause else 0)
    if close then { t with state := .finished } else t
  if cause = 8 then
    match t.kept.find? fun p => p.namedBy r.pkt with
    | some p => s.crcResend t p (s.replyPath r false).route
    | none => fail 0x14 s
  else fail 0x13 s

/-- A GET_RESP refused for its CRC is resent once by the NI that answered (R296; log entry 85). -/
def State.replyResend (s : State) (x : TxPkt) : State :=
  ((s.onNi fun n => { n with replies := n.replies.erase x }).queue
    { io := x.io, stand := x.stand, index := noTrigger, sched := false, route := x.route, budget := 0 }
    [({ x.pkt with flags := x.pkt.flags ||| 2 }, x.pad)]).count (COLL_CHAN_CRC_resends (x.pkt.channel % 64)) 1

/-- The GET_RESP an ERR of cause 8 names, where this NI keeps it. -/
def State.replyNamed (s : State) (e : Packet) : Option TxPkt :=
  if e.knotValue % 256 = 8 then
    s.ni.replies.find? fun x => x.pkt.opId == e.opId && x.stand == e.dstStand && x.pkt.namedBy e
  else none

/-- An ERR is recorded against its operation, or is late (R255, R278). -/
def State.takeErr (s : State) (r : Rx) : State :=
  let s := s.countRx r
  match s.replyNamed r.pkt, s.trigOp r.pkt.dstStand r.pkt.opId with
  | some x, _ => s.replyResend x
  | none, some t => s.errOf r t
  | none, none => s.lateErr r.pkt

/-- A CHAIN packet goes to the token holder (R450): a half of a header, or a part of a block's record. At most two complete records
wait; a block without an accepted header is discarded. -/
def State.takeChain (s : State) (p : Packet) (chk : HeaderCheck) : State :=
  if s.token = 0 ∨ s.safeHold then s
  else if p.opId = 0xFFFFFFFF then (if s.transferring then s else (s.takeHeaderHalf p.payload chk).2)
  else if s.transferring ∧ s.fw.complete.length < 2 then s.takePiece p.opId (p.pktIndex * 4096) p.payload
  else s

/-- A packet at an NI: the checks, then its delivery. -/
def State.rxPacket (s : State) (r : Rx) : State :=
  let p := r.pkt
  match s.rxCheck r with
  | 0 =>
    match p.type with
    | 7 => s.takeMack r
    | 8 => s.takeErr r
    | 9 => s.takeFault p.faultKey.1 p.faultKey.2.1 p.faultKey.2.2
    | 10 => s.takeChain p r.chk
    | _ => s.rxDeliver r
  | n + 1 => s.rxDrop (n + 1) r

/-! ### Receive buffers (R239, R246, R247, R250) -/

/-- Whether a packet stays in its receive buffer: it passes the checks and waits, or an earlier one of its operation among `before` does (log entry 82);
or it would go to Heartwood during the activation pause (R456). -/
def State.rxHeld (s : State) (before : List Rx) (r : Rx) : Bool :=
  s.rxCheck r == 0
    && ((decide (r.pkt.type ≤ 6) && (s.rxWaits r || before.any (·.sameOp r))) || (r.forHeartwood && s.hw.pausing))

/-- A packet has left its receive buffer, and its credit returns (R250). -/
def State.rxFree (s : State) (r : Rx) : State :=
  if r.loop || r.sched then s else s.returnCredit r.limb (if r.forHeartwood then 2 else 1)

/-- Deliver what waits in the receive buffers and can be delivered now, oldest first. A scheduled packet that waited is OFFSCHED (R418). -/
def State.rxRetry (s : State) : State :=
  s.forEach s.ni.rxBuf fun r s =>
    if s.rxHeld (s.ni.rxBuf.takeWhile (· != r)) r then s
    else ((s.onNi fun n => { n with rxBuf := n.rxBuf.erase r }).rxPacket { r with off := r.off || r.sched }).rxFree r

/-- Whether a limb's scheduled receive buffer of two packets is full (R246, R247). -/
def State.schedFull (s : State) (l : Nat) : Bool := decide (2 ≤ s.ni.rxBuf.countP fun x => x.limb == l && x.sched && !x.off)

/-- A packet comes to an NI from a limb: it is held, or taken. -/
def State.rxArrive (s : State) (r : Rx) : State :=
  let r := { r with off := s.offSched r || (r.sched && s.schedFull r.limb) }
  if s.rxHeld s.ni.rxBuf r then s.onNi fun n => { n with rxBuf := n.rxBuf ++ [r] }
  else ((s.rxPacket r).rxFree r).rxRetry

/-- What the flits of a packet said of it, where they were received (R220, R223; log entry 81). On LLP2 there is no LATE flag (R232). -/
def State.asHanded (s : State) (r : Rx) : Rx :=
  let r := match (s.limb r.limb).handed with
    | [] => r
    | h :: _ => { r with late := h.late, keyIndex := h.index, sched := h.vc == 0 }
  { r with late := r.late && s.fld (LIMB_STATUS_llp r.limb) == 3 }

/-- A packet reaches an NI on an ACTIVE limb: each row takes its own type, and a type that is not defined. A limb hands over no packet of a class it
does not carry (R231). -/
def State.rxRow (s : State) (type : Nat) (r : Rx) : Res :=
  s.when (decide (r.limb < 18) && s.limbActive r.limb && s.limbOn r.limb && (r.pkt.type == type || r.pkt.type == 0 || decide (10 < r.pkt.type))
      && (!(s.asHanded r).sched || s.limbCarries r.limb 0))
    ((s.onLimb r.limb fun x => { x with handed := x.handed.drop 1 }).rxArrive (s.asHanded r))

/-- PUT_RECEIVE (R239, R255). -/
def execPutReceive (r : Rx) (s : State) : Res := s.rxRow 1 r
/-- GET_REQ_RECEIVE (R238). -/
def execGetReqReceive (r : Rx) (s : State) : Res := s.rxRow 2 r
/-- GET_RESP_RECEIVE (R238). -/
def execGetRespReceive (r : Rx) (s : State) : Res := s.rxRow 3 r
/-- KNOT_PACKET_RECEIVE (R239). -/
def execKnotPacketReceive (r : Rx) (s : State) : Res := s.rxRow 4 r
/-- REDUCE_RECEIVE (R282). -/
def execReduceReceive (r : Rx) (s : State) : Res := s.rxRow 5 r
/-- MCAST_PUT_RECEIVE (R262). -/
def execMcastPutReceive (r : Rx) (s : State) : Res := s.rxRow 6 r
/-- MACK_RECEIVE (R264). -/
def execMackReceive (r : Rx) (s : State) : Res := s.rxRow 7 r
/-- ERR_RECEIVE (R255). -/
def execErrReceive (r : Rx) (s : State) : Res := s.rxRow 8 r
/-- FAULT_RECEIVE (R265). -/
def execFaultReceive (r : Rx) (s : State) : Res := s.rxRow 9 r
/-- CHAIN_RECEIVE (R450). -/
def execChainReceive (r : Rx) (chk : HeaderCheck) (s : State) : Res := s.rxRow 10 { r with chk }

/-- OP_EXPIRE (R241): an open operation without a packet for op_timeout rings. -/
def execOpExpire (i : Nat) (s : State) : Res :=
  match s.ni.rxOps[i]? with
  | none => .next s
  | some o =>
    s.when (decide (max 1 (s.liveFld NI_CFG_op_timeout) ≤ o.idle))
      (let s := s.onNi fun n => { n with rxOps := n.rxOps.eraseIdx i }
       ((((s.count NI_OP_EXPIRED_count 1).setFld NI_OP_EXPIRED_last_src_node o.srcNode).setFld NI_OP_EXPIRED_last_dst_stand
         o.dstStand).setFld NI_OP_EXPIRED_last_src_epoch o.srcEpoch).rxRetry)

/-- The ACTIVE limbs of a packet's route that take it. -/
def State.carriers (s : State) (p : TxPkt) : List Nat := (s.routeLimbs p.route).filter (s.limbTakes p.pkt)

/-- A ring boundary: an open operation ages by each ring in which no packet of it came (R241); packets that find an ACTIVE limb start their 16 rings
anew (R258); a GET_RESP whose GET has had time to expire is no longer kept (log entry 85). -/
def State.niBoundary (s : State) : State :=
  s.onNi fun n => { n with
    rxOps := n.rxOps.map (fun o => if o.fresh then { o with fresh := false, idle := 0 } else { o with idle := o.idle + 1 }),
    txq := n.txq.map (fun p => if s.isLoop p || !(s.carriers p).isEmpty then { p with since := s.rings } else p),
    replies := n.replies.filter (fun p => decide (s.rings < p.since + max 1 (s.liveFld NI_CFG_op_timeout))),
    noticed := [], resume := [] }

end Sys2Proof.Machine
end

