-- ==== Sys2Proof/Machine/Inject.lean ====
section
/-! DEFINITION. What an NI sends (09_fabric_transport.md, R242-R251, R258, R262, R288, R393): placement in slots and flit times, credits, the
choice of a limb, keys, resends, notices. A cycle is an I/O fabric cycle of the ring in progress. -/

namespace Sys2Proof.Machine

/-! ### Flit times (R213, R230, R242) -/

/-- Whether the I/O fabric of an NI is clocked (R40, R55). -/
def State.niOn (s : State) (io : Nat) : Bool := s.powered && bitOf s.gates (12 + io)

/-- Whether a limb, or the loopback path of an NI, is clocked. -/
def State.pathOn (s : State) (l : Nat) : Bool := s.niOn (limbIo l)

/-- I/O fabric cycles from one flit of a packet to the next on a limb or loopback path. -/
def State.flitCycles (s : State) (l : Nat) : Nat :=
  if l < 18 ∧ (s.fld (LIMB_STATUS_llp l) = 2 ∨ s.limbStride l = 2) then 4 else 2

/-- I/O fabric cycles in a slot. -/
def State.slotCycles (s : State) : Nat := 16 * Config.slotRef s.period

/-- A cycle of this ring, counted on across rings. -/
def State.ioTime (s : State) (cycle : Nat) : Nat := s.clk.refTotal * 16 + cycle

/-- Ring time at a cycle. -/
def State.cycleTime (s : State) (cycle : Nat) : Nat := s.ring * 65536 + cycle / 16

/-- Whether a cycle begins a flit time of the slot in progress that no earlier packet of the limb takes, past the slot's first flit time (R242). -/
def State.flitFree (s : State) (l cycle : Nat) : Bool :=
  let slot := cycle / s.slotCycles
  s.clk.ringOn && cycle % 2 == 0 && (slot == s.clk.slot || (decide (62 ≤ s.clk.slot) && decide (s.clk.slot ≤ slot) && decide (slot ≤ 63)))
    && decide (slot * s.slotCycles + 2 ≤ cycle) && decide (s.ni.busy.get 0 l ≤ s.ioTime cycle)

/-- Whether a packet of `n` cycles ends in its slot and keeps off the MARKER's flit time (R233, R242). -/
def State.fitsSlot (s : State) (cycle n : Nat) : Bool :=
  let slot := cycle / s.slotCycles
  let p := Config.slotRef s.period
  let marker := 16 * (63 * p + p / 2)
  decide (cycle + n ≤ (slot + 1) * s.slotCycles) && (slot != 63 || decide (cycle + n ≤ marker) || decide (marker + 2 ≤ cycle))

/-- Whether the condition of R245 holds for a packet of `f` flits and budget `d` that begins at a cycle of the ring. -/
def State.fits (s : State) (cycle f d : Nat) : Bool :=
  decide (cycle + 2 * f + d + 256 ≤ (cycle / s.slotCycles + 1) * s.slotCycles)

/-! ### Sending one packet -/

/-- Whether a key index of a limb is valid and maps to a stand. -/
def State.keyMaps (s : State) (l st k : Nat) : Bool :=
  bitOf (bitsOf (s.liveRd (LIMB_KEY_VALID l)).toNat 15 0) k && s.keyStand l k == some st

/-- The key index a packet is sent under (R223, R232): 16 for the management class and on LLP2, else the lowest valid one of its
stand. -/
def State.keyFor (s : State) (l : Nat) (p : TxPkt) : Option Nat :=
  if p.mgmt || s.fld (LIMB_STATUS_llp l) == 2 then (if s.flag (LIMB_KEY_VALID_mgmt_loaded l) then some 16 else none)
  else (List.range 16).find? fun k => s.keyMaps l p.stand k

/-- The class of a packet's flits: 0 scheduled, 1 best-effort, 2 management. -/
def TxPkt.vc (p : TxPkt) : Nat := if p.mgmt then 2 else if p.sched then 0 else 1

/-- A packet as it leaves: its limb, inject_time, and the deliver_by of an MCAST_PUT (R238, R261). A resent packet keeps the limb it was first sent
on, by which the receiver knows a duplicate (R240, R258; log entry 87). -/
def State.stampPkt (s : State) (p : TxPkt) (l time : Nat) : Packet :=
  { p.pkt with
    srcLimb := if p.pkt.resent then p.pkt.srcLimb else l, inject := time,
    deliverBy := if p.pkt.type = 6 then (s.ring + max 1 (s.liveFld NI_CFG_mcast_rings)) % 2 ^ 32 else p.pkt.deliverBy }

/-- The trigger of a packet that was sent; a GET_RESP under crc_e2e is kept for its resend (R296). -/
def State.noteSent (s : State) (p : TxPkt) (pkt : Packet) (loop : Bool) : State :=
  if p.index = noTrigger then
    if pkt.type = 3 ∧ pkt.e2e ∧ !pkt.resent ∧ !loop then s.onNi fun n => { n with replies := n.replies ++ [{ p with since := s.rings, pkt }] } else s
  else s.onTrig p.stand p.index fun t =>
    { t with
      unsent := t.unsent - 1, unacked := if loop then t.unacked else t.unacked + 1, units := if pkt.resent then t.units else t.units + 1,
      due := if pkt.type = 6 then s.rings + 2 * max 1 (s.liveFld NI_CFG_mcast_rings) else t.due,
      kept := if t.crcOn && !pkt.resent then t.kept ++ [pkt] else t.kept }

/-- Counters of a packet sent on a limb (R461, R463-R465). -/
def State.countTx (s : State) (p : TxPkt) (l : Nat) (pkt : Packet) : State :=
  let n := 64 + pkt.payload.length
  let st := if p.mgmt then none else some p.stand
  let s := match st with
    | some st => (((s.standCtr st 7 1).standCtr st 9 n).limbView st l 0 1).limbView st l 2 pkt.flits
    | none => s
  let s := match st with
    | some st => s.limbBytes st l n
    | none => s.portBytes l n
  (s.limbEvent l 0x20 st pkt.flits).limbEvent l (if p.sched then 0x23 else 0x24) st 1

/-- A credit of a limb is used by a packet outside the scheduled class (R247, R250). -/
def State.useCredit (s : State) (p : TxPkt) (l : Nat) : State :=
  if p.sched then s
  else s.onNi fun n => if p.mgmt then { n with mgUsed := n.mgUsed.modify 0 l (· + 1) } else { n with beUsed := n.beUsed.modify 0 l (· + 1) }

/-- A packet goes out on a limb under its key; its flits enter the replay buffer. A packet without a key to send under is dropped (R225). -/
def State.sendLimb (s : State) (i l time : Nat) (p : TxPkt) : State :=
  match s.keyFor l p with
  | none => s.failTx i 0x12
  | some k =>
    match s.useKey l k with
    | (none, s) => s.failTx i 0x12
    | (some key, s) =>
      let pkt := s.stampPkt p l time
      let (group, s) := s.sendFlits l pkt.flits (.packet l p.vc pkt · key)
      let s := (s.useCredit p l).setTx i { p with limb := l, sent := true, group, pkt }
      (if p.mgmt then s else s.noteSent p pkt false).countTx p l pkt

/-- A packet goes by loopback: it is delivered at once by the same NI, which knows of a scheduled trigger sent best-effort (R254, R288). -/
def State.sendLoop (s : State) (i time : Nat) (p : TxPkt) : State :=
  let pkt := s.stampPkt p (loopLimb p.io) time
  let s := s.dropTx i
  let s := if p.mgmt then s
    else ((s.noteSent p pkt true).standCtr p.stand 7 1).standCtr p.stand 9 (64 + pkt.payload.length)
  let r : Rx := { limb := loopLimb p.io, keyIndex := 16, late := false, sched := p.sched, off := p.off, pad := p.pad, pkt }
  s.rxPacket { r with off := s.offSched r }

/-- Send the packet at a place of the queue from a cycle on: its flit times are taken. -/
def State.sendTx (s : State) (i cycle : Nat) (p : TxPkt) (l : Nat) : State :=
  let s := s.onNi fun n => { n with busy := n.busy.set 0 l (s.ioTime cycle + p.pkt.flits * s.flitCycles l) }
  if l < 18 then s.sendLimb i l (s.cycleTime cycle) p else s.sendLoop i (s.cycleTime cycle) p

/-- Whether a packet by loopback would have to wait for a place at the receiver (R239, R282). -/
def State.loopRoom (s : State) (p : TxPkt) : Bool :=
  !(decide (p.pkt.type ≤ 6) && s.rxWaits { limb := loopLimb p.io, keyIndex := 16, late := false, sched := p.sched, pkt := p.pkt })

/-- Whether a path takes a packet's flits now: an ACTIVE limb whose partner is not in HOLD, in its replay window (R217, R237); a loopback path with
room. -/
def State.pathTakes (s : State) (p : TxPkt) (l : Nat) : Bool :=
  s.pathOn l && (if l < 18 then s.limbActive l && !(s.limb l).partnerHold && s.windowOpen l p.pkt.flits && s.limbTakes p.pkt l else s.loopRoom p)

/-! ### Scheduled packets (R39, R242-R248, R509) -/

/-- The stand whose fabric slot mask holds a slot. -/
def State.slotOwner (s : State) (slot : Nat) : Option Nat :=
  (List.range 16).find? fun st => bitOf (s.liveFld (NI_FSLOT_MASK_slots st)) slot

/-- The place of the first packet of a stand queued for a limb in the scheduled class (R247). -/
def State.schedHead (s : State) (st l : Nat) : Option Nat :=
  s.ni.txq.findIdx? fun p => p.sched && !p.sent && p.stand == st && s.schedLimb p == some l

/-- Whether the scheduled packet at the head of its stand's queue for a limb may begin at a cycle (R245, R248). -/
def State.maySched (s : State) (p : TxPkt) (l cycle : Nat) : Bool :=
  s.flitFree l cycle && s.pathTakes p l && s.fits cycle p.pkt.flits (if l < 18 then p.budget else 0)

/-- Send the scheduled packet at a place if it fits at the cycle. -/
def State.injectAt (s : State) (i l cycle : Nat) : State :=
  match s.ni.txq[i]? with
  | none => s
  | some p => if s.maySched p l cycle then s.sendTx i cycle p l else s

/-- PACKET_INJECT_SCHEDULED (R39, R243, R245, R247, R509). -/
def execPacketInjectScheduled (l cycle : Nat) (s : State) : Res :=
  let slot := cycle / s.slotCycles
  match s.slotOwner slot with
  | none => .next s
  | some st =>
    match s.schedHead st l with
    | none => .next s
    | some i =>
      s.when (decide (l < 20) && s.liveFlag NI_NODE_valid && s.epoch && !s.clk.establishing && decide (slot < 62) && !s.standHeld st)
        (s.injectAt i l cycle)

/-! ### Best-effort and management packets (R244, R250, R251) -/

/-- Packets a limb's best-effort egress queue holds. -/
def State.depth (s : State) (l : Nat) : Nat := s.ni.txq.countP fun p => p.limb == l && !p.sent && !p.mgmt

/-- Limbs stop at be_hi packets and resume below be_lo (R251). -/
def State.refreshBlocked (s : State) : State :=
  let hi := s.liveFld NI_CFG_be_hi
  let lo := s.liveFld NI_CFG_be_lo
  s.onNi fun n => { n with
    blocked := (List.range 20).filter fun l => decide (hi ≤ s.depth l) || (n.blocked.contains l && decide (lo ≤ s.depth l)) }

/-- The shallowest limb of a list that takes injections, the lowest number on a tie (R251). -/
def State.shallowest (s : State) (ls : List Nat) : Option Nat :=
  (ls.filter fun l => !s.ni.blocked.contains l).foldl (fun (b : Option Nat) l =>
    match b with
    | some x => if s.depth l < s.depth x then some l else some x
    | none => some l) none

/-- Whether a packet goes best-effort: its own class, or a scheduled one that no limb can carry (R254). -/
def State.isBe (s : State) (p : TxPkt) : Bool := !p.sched || (!s.isLoop p && (s.schedLimbs p.route).isEmpty)

/-- Whether a stand's quota of best-effort packets in an NI's queues is full (R251). -/
def State.quotaFull (s : State) (io st : Nat) : Bool :=
  decide (max 1 (s.liveFld NI_CFG_be_quota) ≤ s.ni.txq.countP fun p => p.io == io && !p.mgmt && p.stand == st && p.limb != 31 && !p.sent)

/-- Whether a packet has a limb that can still carry it. -/
def State.placed (s : State) (p : TxPkt) : Bool := p.limb != 31 && (decide (18 ≤ p.limb) || (s.limbActive p.limb && s.limbTakes p.pkt p.limb))

/-- The limbs a packet may go on: those of its route; a resent one takes the others before the one that lost it (R258). -/
def State.choices (s : State) (p : TxPkt) : List Nat :=
  if s.isLoop p then [loopLimb p.io]
  else
    let ls := s.carriers p
    let others := ls.filter (· != p.avoid)
    if others = [] then ls else others

/-- Put the packet at a place of the queue on a limb, where R251 lets it. A stand's packets not yet begun are held in its drain (R259). -/
def State.assignAt (s : State) (io i : Nat) : State :=
  match s.ni.txq[i]? with
  | none => s
  | some p =>
    if p.io != io || p.sent || !s.isBe p || s.placed p then s
    else
      let s := s.setTx i { p with limb := 31 }
      if !p.mgmt && ((s.standHeld p.stand && !p.pkt.resent) || s.quotaFull io p.stand) then s
      else match s.shallowest (s.choices p) with
        | some l => (s.setTx i { p with limb := l, sched := false, off := p.off || p.sched }).refreshBlocked
        | none => s

/-- Put every packet of an NI that waits on a limb, in order. -/
def State.assignAll (s : State) (io : Nat) : State :=
  s.refreshBlocked.forEach (List.range s.ni.txq.length) fun i s => s.assignAt io i

/-- Whether a limb may carry best-effort and management flits in a slot (R244). -/
def State.beSlot (s : State) (l slot : Nat) : Bool :=
  if 62 ≤ slot then true
  else match s.slotOwner slot with
    | none => true
    | some _ => s.liveFlag NI_CFG_be_fill && (List.range 16).all fun st => (s.schedHead st l).isNone

/-- Whether a credit of a packet's class is in hand at a limb (R250). -/
def State.hasCredit (s : State) (p : TxPkt) (l : Nat) : Bool :=
  decide (18 ≤ l) || (if p.mgmt then decide (s.ni.mgUsed.get 0 l < 2) else decide (s.ni.beUsed.get 0 l < 8))

/-- Whether a packet outside the scheduled class may begin on a limb at a cycle (R242, R244, R250). -/
def State.mayBe (s : State) (p : TxPkt) (l cycle : Nat) : Bool :=
  s.flitFree l cycle && s.fitsSlot cycle (p.pkt.flits * s.flitCycles l) && s.beSlot l (cycle / s.slotCycles) && s.pathTakes p l && s.hasCredit p l

/-- Whether the packet at a place of an NI's queue may be sent now: it heads its limb's queue of its class. -/
def State.maySend (s : State) (io cycle i : Nat) (p : TxPkt) : Bool :=
  p.io == io && !p.sent && !p.sched && p.limb != 31 && s.mayBe p p.limb cycle
    && !(s.ni.txq.take i).any fun q => q.io == io && !q.sent && !q.sched && q.limb == p.limb && q.mgmt == p.mgmt

/-- The first packet of an NI that may be sent at a cycle. -/
def State.beHead (s : State) (io cycle : Nat) : Option (Nat × TxPkt) :=
  ((List.range s.ni.txq.length).zip s.ni.txq).find? fun x => s.maySend io cycle x.1 x.2

/-- One best-effort or management packet of an NI goes out at a cycle. -/
def State.injectBe (s : State) (io cycle : Nat) : State :=
  let s := s.assignAll io
  match s.beHead io cycle with
  | none => s
  | some (i, p) => s.sendTx i cycle p p.limb

/-- PACKET_INJECT_BEST_EFFORT (R244, R250, R251). -/
def execPacketInjectBestEffort (d : Departure) (s : State) : Res :=
  s.when (decide (d.io < 2) && s.liveFlag NI_NODE_valid && s.niOn d.io) (s.injectBe d.io d.cycle)

/-! ### Resends (R258) -/

/-- PACKET_RESEND (R258): once, best-effort, with resent set, on a limb R251 chooses; a packet lost a second time fails its operation with LINK
(log entry 45). -/
def execPacketResend (i : Nat) (s : State) : Res :=
  match s.ni.txq[i]? with
  | none => .next s
  | some p =>
    s.when (p.lost && !(s.carriers p).isEmpty)
      (if p.pkt.resent then s.failTx i 0x11
       else
         let s := s.onTrig p.stand p.index fun t =>
           { t with unacked := t.unacked - 1, unsent := t.unsent + 1, flags := t.flags ||| 1 }
         ((s.setTx i { p with
           lost := false, sent := false, sched := false, limb := 31, pkt := { p.pkt with flags := p.pkt.flags ||| 2 } }).refreshBlocked).assignAt
             p.io i)

/-- RESEND_TIMEOUT (R258): 16 rings without an ACTIVE limb. -/
def execResendTimeout (i : Nat) (s : State) : Res :=
  match s.ni.txq[i]? with
  | none => .next s
  | some p => s.when ((p.lost || !p.sent) && !s.isLoop p && (s.carriers p).isEmpty && decide (p.since + 16 ≤ s.rings)) (s.failTx i 0x11)

/-! ### Fault notices (R267, R393) and the missing-member bitmap (R262) -/

/-- The FAULT packet of a notice (R267). -/
def State.faultPacket (s : State) (n : Notice) : Packet :=
  { type := 9, flags := 0, dstStand := 0, srcStand := 0, srcLimb := 0, target := 3,
    dstNode := if n.sink = 0 then s.fld MBX_RED_CFG_sink0 else s.fld MBX_RED_CFG_sink1, dstEpoch := 0, srcNode := s.node,
    srcEpoch := s.nodeEpoch, srcRank := 0, group := 0, length := 0, knot := 0, knotOp := 15,
    knotValue := n.node + n.code * 65536, remote := n.epoch, opId := 0, channel := 0, reserved := 0, inject := 0, pktIndex := 0,
    pktCount := 1, deliverBy := 0, coll := 0, payload := [] }

/-- The route mask of a sink. -/
def State.sinkRoute (s : State) (sink : Nat) : Nat := if sink = 0 then s.fld MBX_RED_ROUTE_sink0_route else s.fld MBX_RED_ROUTE_sink1_route

/-- Send a notice at a cycle on the limb of its route that R251 names, once it may begin there: it waits for that limb's management credit; dropped
without an ACTIVE limb. -/
def State.sendNotice (s : State) (n : Notice) (cycle : Nat) : State :=
  let route := s.sinkRoute n.sink
  let drop := s.onNi fun x => { x with notices := x.notices.erase n }
  if (s.routeLimbs route).isEmpty then drop.count MBX_RED_NOTICE_dropped 1
  else
    match s.refreshBlocked.shallowest (s.routeLimbs route) with
    | none => s
    | some l =>
      let i := drop.ni.txq.length
      let drop := drop.sendMgmt n.io route [s.faultPacket n]
      match drop.ni.txq[i]? with
      | none => s
      | some p => if s.mayBe p l cycle then (drop.sendTx i cycle p l).count MBX_RED_NOTICE_sent 1 else s

/-- FAULT_NOTICE_SEND (R393): the first notice an NI holds. A Crown in Safe Hold sends none. -/
def execFaultNoticeSend (d : Departure) (s : State) : Res :=
  match s.ni.notices.find? fun n => n.io == d.io with
  | none => .next s
  | some n => s.when (!s.safeHold && s.liveFlag NI_NODE_valid && s.niOn d.io) (s.sendNotice n d.cycle)

/-- The bitmap of the members that have not been heard from (R262). -/
def missing (count : Nat) (heard : List Nat) : Nat := maskOfList ((List.range count).filter fun i => !heard.contains i)

/-- MCAST_BITMAP_DUE (R262, R300): at the start of ring deliver_by + mcast_rings. -/
def execMcastBitmapDue (st i : Nat) (s : State) : Res :=
  match s.trigAt st i with
  | none => .next s
  | some t =>
    let m := missing (s.liveFld (NI_MCAST_GROUP_count (bytesAt t.desc 18 2 % 4096))) t.bitmap
    s.when (t.state == .running && bytesAt t.desc 0 1 == 6 && t.unsent == 0 && decide (t.due ≤ s.rings))
      (s.onTrig st i fun t => { t with state := .finished, detail := leBytes 32 m, flags := t.flags ||| (256 * bit (decide (m ≠ 0))) })

end Sys2Proof.Machine
end

