-- ==== Sys2Proof/Machine/Triggers.lean ====
section
/-! DEFINITION. The trigger queue (10_collectives.md, R269-R279, R298-R300): descriptors, fetch and its checks, fires, the start of each
sending operation, and completion. -/

namespace Sys2Proof.Machine

/-! ### The descriptor (R270) -/

/-- op. -/
def tOp (d : List Byte) : Nat := bytesAt d 0 1
/-- Bit `i` of flags: 0 sched, 1 fire_en, 2 cpl_en, 3 irq, 4 ni. -/
def tFlag (d : List Byte) (i : Nat) : Bool := bitOf (bytesAt d 1 1) i
/-- The NI that runs the operation. -/
def tIo (d : List Byte) : Nat := bit (tFlag d 4)
/-- Wire mode. -/
def tWire (d : List Byte) : Nat := bytesAt d 2 1 % 16
/-- Element type. -/
def tElem (d : List Byte) : Nat := bytesAt d 2 1 / 16
/-- Output element type of a FOLD. -/
def tOut (d : List Byte) : Nat := bytesAt d 3 1 % 16
/-- round_mode. -/
def tRound (d : List Byte) : Nat := bitsOf (bytesAt d 3 1) 5 4
/-- Layer and operator. -/
def tIds (d : List Byte) : Nat := bytesAt d 4 4
/-- tag. -/
def tTag (d : List Byte) : Nat := bytesAt d 8 4
/-- trig_knot. -/
def tTrigKnot (d : List Byte) : Nat := bytesAt d 12 2 % 4096
/-- fire_seq. -/
def tFireSeq (d : List Byte) : Nat := bytesAt d 14 2
/-- cpl_knot. -/
def tCplKnot (d : List Byte) : Nat := bytesAt d 16 2 % 4096
/-- cpl_op. -/
def tCplOp (d : List Byte) : Nat := bytesAt d 16 2 / 4096
/-- rank: destination rank, group, or *N*. -/
def tRank (d : List Byte) : Nat := bytesAt d 18 2
/-- The local kind. -/
def tKind (d : List Byte) : Nat := bitsOf (bytesAt d 24 8) 63 62
/-- The local address. -/
def tLocal (d : List Byte) : Nat := bitsOf (bytesAt d 24 8) 61 0
/-- length: bytes, or elements *E*. -/
def tLen (d : List Byte) : Nat := bytesAt d 40 4
/-- The channel. -/
def tChan (d : List Byte) : Nat := bytesAt d 46 1 % 64
/-- The chunk. -/
def tChunk (d : List Byte) : Nat := bytesAt d 47 1
/-- contrib, or *N_d* of an A2A. -/
def tContrib (d : List Byte) : Nat := bytesAt d 54 2
/-- aux: resid_addr, or elem_base. -/
def tAux (d : List Byte) : Nat := bytesAt d 56 8
/-- cap of an A2A, in elements. -/
def tCap (d : List Byte) : Nat := bytesAt d 56 4
/-- esize of an A2A, in bytes. -/
def tEsize (d : List Byte) : Nat := bytesAt d 60 2
/-- The remote target: REDUCE and KNOT name none; other operations name it in bits [63:62] as local_addr does (log entry 47). -/
def tTarget (d : List Byte) : Nat := if tOp d = 5 ∨ tOp d = 4 then 3 else bitsOf (bytesAt d 32 8) 63 62
/-- The remote address. -/
def tRemote (d : List Byte) : Nat := if tOp d = 5 then bytesAt d 32 8 else bitsOf (bytesAt d 32 8) 61 0
/-- The bytes an operation reads or writes at local_addr. -/
def tBytes (d : List Byte) : Nat :=
  match tOp d with
  | 1 => tLen d
  | 2 => tLen d
  | 5 => tLen d * typeBytes (tElem d)
  | 6 => tLen d
  | 0x11 => 16 * tContrib d
  | _ => 0
/-- The elements a BQE send quantizes. -/
def tElems (d : List Byte) : Nat := if tOp d = 5 then tLen d else tLen d / typeBytes (tElem d)

/-- The triggered operations. -/
def trigOps : List Nat := [1, 2, 4, 5, 6, 0x10, 0x11]

/-- Check 2 of R271 (log entry 46). -/
def trigFormatOk (d : List Byte) : Bool :=
  let bqe := isBqe (tWire d)
  decide (bytesAt d 1 1 < 32) && decide (bytesAt d 3 1 < 64) && decide (bytesAt d 12 2 < 4096) && decide (bytesAt d 46 1 < 64)
    && wireOk (tWire d) (tElem d) && decide (tRound d < 3) && !(tFlag d 2 && decide (2 < tCplOp d))
    && (tOp d != 0x10 || decide (tOut d ≤ 3)) && (tOp d != 0x11 || (bytesAt d 62 2 == 0 && !bqe))
    && !((tOp d == 1 || tOp d == 2 || tOp d == 6) && (tWire d == 0 || bqe) && tLen d % typeBytes (tElem d) != 0)
    && !((tOp d == 1 || tOp d == 2 || tOp d == 6) && decide (65535 * 4096 < tLen d))

/-- Whether the local range of an operation lies in its stand's regions, leaves or channel area. -/
def State.localIn (s : State) (st : Nat) (d : List Byte) (n : Nat) : Bool :=
  n == 0 || (if tKind d = 3 then s.chanOf (tChan d) st && s.chanIn (tChan d) (tLocal d) n else s.remoteIn st (tKind d) (tLocal d) n)

/-- Entry `x` of an A2A's source table as bytes: address, count, drop. -/
def a2aEntry (tbl : List Byte) (x : Nat) : Nat × Nat := (bytesAt tbl (16 * x) 8, bytesAt tbl (16 * x + 8) 4)

/-- Whether the buckets of an A2A's source table lie in the stand's regions, and whether its counts are permitted (R299). -/
def State.a2aOk (s : State) (st : Nat) (d tbl : List Byte) : Bool × Bool :=
  let es := (List.range (tContrib d)).map (a2aEntry tbl)
  (es.all fun e => decide (e.2 ≤ 2 ^ 24), es.all fun e => let n := min e.2 (tCap d) * tEsize d; n == 0 || s.inBounds st e.1 n)

/-- Checks 1 to 5 of R271: the status of the first failure, 0 when all pass. `tbl` is an A2A's source table. -/
def State.trigCheck (s : State) (st : Nat) (d tbl : List Byte) : Nat :=
  let k := tTrigKnot d
  let c := tChan d
  let a2a := tOp d == 0x11
  if !trigOps.contains (tOp d) then 5
  else if !trigFormatOk d || (a2a && !(s.a2aOk st d tbl).1) then 3
  else if tFlag d 1 && !(s.knotOwner k == some st && (s.knot k).niMask.getLsbD (tIo d)) then 0x15
  else if tFlag d 2 && s.knotOwner (tCplKnot d) != some st then 0x15
  else if (tOp d == 5 || tOp d == 0x10 || (decide (0 < tBytes d) && tKind d == 3)) && !s.chanOf c st then 0x15
  else if tOp d == 0x10 && s.chanEngine c != tIo d then 0x15
  else if !s.localIn st d (tBytes d) || (a2a && !(s.a2aOk st d tbl).2) then 1
  else if isBqe (tWire d) && (tOp d == 1 || tOp d == 5 || tOp d == 6) && !s.inBounds st (tAux d) (4 * tElems d) then 1
  else 0

/-! ### The queue (R269, R271, R276) -/

/-- The trigger queue's key among the queues of a stand. -/
def trigKey (st : Nat) : Nat := queueKey st 4

/-- A tenant's write to CQ_TRIG_DOORBELL (R269, R137, R160). -/
def State.ringTrigDoorbell (s : State) (st : Nat) (v : Word) (last : Bool) : State :=
  if s.standState st ≠ 2 then s
  else
    let tail := bitsOf v.toNat 15 0
    let t := s
    let s := if v.getLsbD 63 then s.setFlag (CQ_TRIG_STATE_halted st) false else s
    if 2 ^ s.fld (CQ_TRIG_CFG_log2_size st) ≤ tail then t.setFlag (CQ_TRIG_STATE_doorbell_err st) true
    else if tail = s.fld (CQ_TRIG_STATE_tail_seen st) then s
    else (s.setFld (CQ_TRIG_STATE_tail_seen st) tail).addBell (trigKey st) tail last

/-- CQ_TRIG_DOORBELL_TAIL (R269). -/
def execCqTrigDoorbellTail (st : Nat) (v : Word) (last : Bool) (s : State) : Res :=
  s.when (decide (st < 16)) (s.ringTrigDoorbell st v last)

/-- CQ_TRIG_RESUME (R276). -/
def execCqTrigResume (st : Nat) (v : Word) (last : Bool) (s : State) : Res :=
  s.when (decide (st < 16) && v.getLsbD 63) (s.ringTrigDoorbell st v last)

/-- The stand-relative address of a trigger entry. -/
def State.trigAddr (s : State) (st i : Nat) : Nat := s.fld (CQ_TRIG_CFG_base st) * 4096 + 64 * i
/-- The stand-relative address of a trigger completion entry. -/
def State.trigCplAt (s : State) (st i : Nat) : Nat := s.fld (CQ_TRIG_CPL_BASE_cpl_base st) * 4096 + 64 * i

/-- COLL_STAND_QUOTA shows the triggers a stand has posted. -/
def State.showPosted (s : State) (st : Nat) : State :=
  let n := fun (io : Nat) => s.ni.trigs.countP fun t => t.stand == st && t.io == io
  (s.setFld (COLL_STAND_QUOTA_used0 st) (n 0)).setFld (COLL_STAND_QUOTA_used1 st) (n 1)

/-- Whether a stand's share of an NI's posted triggers is full (R272). -/
def State.shareFull (s : State) (st io : Nat) : Bool :=
  decide (s.liveFld (if io = 0 then COLL_STAND_QUOTA_quota0 st else COLL_STAND_QUOTA_quota1 st)
    ≤ s.ni.trigs.countP fun t => t.stand == st && t.io == io)

/-- The 64 bytes of a completion record (R277). -/
def trigRecord (d : List Byte) (tag ids status cause flags opId units time : Nat) (detail : List Byte) : List Byte :=
  leBytes 4 tag ++ leBytes 2 status ++ leBytes 1 cause ++ leBytes 1 (tOp d) ++ leBytes 2 flags ++ leBytes 2 0 ++ leBytes 4 ids
    ++ leBytes 4 opId ++ leBytes 4 units ++ leBytes 8 time ++ padTo 32 detail

/-- Write a completion record where its entry lies in the stand's regions. -/
def State.writeTrigCpl (s : State) (st i : Nat) (rec : List Byte) : State :=
  match s.standWrite st (s.trigCplAt st i) rec with
  | some r => r.2
  | none => s

/-- The trigger queue halts (R276). -/
def State.haltTrig (s : State) (st status : Nat) : State :=
  (s.setFlag (CQ_TRIG_STATE_halted st) true).setFld (CQ_TRIG_STATE_halt_code st) (status % 256)

/-- Vector 4, where a descriptor and the queue ask for it (R276). -/
def State.trigIrq (s : State) (st : Nat) (d : List Byte) : State :=
  if tFlag d 3 && s.flag (CQ_TRIG_CFG_irq_en st) then s.msix (st + 1) 4 else s

/-- The head moves past a trigger entry; a doorbell that covers nothing more is used up. -/
def State.passTrig (s : State) (st : Nat) : State :=
  let head := (s.fld (CQ_TRIG_STATE_head st) + 1) % 2 ^ s.fld (CQ_TRIG_CFG_log2_size st)
  let key := trigKey st
  let s := { s with fetched := s.fetched.modify 0 key (· + 1), bells := s.bells.filter fun b => !(b.1 == key && b.2.1 == head) }
  s.setFld (CQ_TRIG_STATE_head st) head

/-- A descriptor fails at fetch (R271): its record, and the queue halts. -/
def State.failTrigFetch (s : State) (st i : Nat) (d : List Byte) (tag ids status : Nat) : State :=
  let s := if status = 1 then s.standFault st 1 else s
  let s := s.writeTrigCpl st i (trigRecord d tag ids status 0 0 0 0 (s.timeAt s.clk.now).1 [])
  (((s.haltTrig st status).trigIrq st d).standCtr st 6 1).progress (trigKey st)

/-- Whether the fire count of a knot at an NI has reached a fire_seq (R273). -/
def State.fireReached (s : State) (io k seq : Nat) : Bool := serialGe 16 (s.ni.fires.get 0 (io * 4096 + k)) seq

/-- A descriptor becomes posted, and ready where its fire has been (R271, R273). -/
def State.postTrig (s : State) (st i : Nat) (d : List Byte) : State :=
  let ready := !tFlag d 1 || s.fireReached (tIo d) (tTrigKnot d) (tFireSeq d)
  let t : Trig := { stand := st, index := i, io := tIo d, desc := d, state := if ready then .ready else .posted }
  ((s.onNi fun n => { n with trigs := n.trigs ++ [t] }).showPosted st).progress (trigKey st)

/-- Fetch one trigger descriptor (R271, R272): a full share pauses fetch. -/
def State.fetchTrig (s : State) (st : Nat) : State :=
  let i := s.fld (CQ_TRIG_STATE_head st)
  let cpl := s.inBounds st (s.trigCplAt st i) 64
  if !(s.inBounds st (s.trigAddr st i) 64 && cpl) then
    let b := s.freeBytes 8
    let s := (s.drawnBytes 8).passTrig st
    if cpl then s.failTrigFetch st i [] (bytesAt b 0 4) (bytesAt b 4 4) 1 else ((s.standFault st 1).haltTrig st 1)
  else
    let (d, t) := s.dispatchRead st (s.trigAddr st i) 64
    if s.shareFull st (tIo d) then s.setFlag (CQ_TRIG_STATE_quota_wait st) true
    else
      let (tbl, t) := if tOp d = 0x11 ∧ t.localIn st d (tBytes d) ∧ tKind d = 0 then t.dispatchRead st (tLocal d) (tBytes d)
        else (if tOp d = 0x11 ∧ t.localIn st d (tBytes d) then (t.readKind st (tKind d) (tChan d) (tLocal d) (tBytes d)).1 else [], t)
      let s := (t.setFlag (CQ_TRIG_STATE_quota_wait st) false).passTrig st
      match s.trigCheck st d tbl with
      | 0 => s.postTrig st i d
      | status => s.failTrigFetch st i d (tTag d) (tIds d) status

/-- Whether a trigger queue may fetch now (R137, R160, R269, R271). -/
def State.mayFetchTrig (s : State) (st : Nat) : Bool :=
  decide (st < 16) && s.standState st == 2 && s.clk.ringOn && decide (s.clk.slot < 62) && s.serving && s.flag (CQ_TRIG_CFG_enable st)
    && !s.flag (CQ_TRIG_STATE_halted st) && s.fld (CQ_TRIG_STATE_head st) != s.fld (CQ_TRIG_STATE_tail_seen st)
    && decide (s.fetched.get 0 (trigKey st) < 8) && decide (s.entrySlot (trigKey st) ≤ s.slotNo)

/-- TRIGGER_FETCH (R271). -/
def execTriggerFetch (st : Nat) (s : State) : Res := s.when (s.mayFetchTrig st) (s.fetchTrig st)

/-! ### Fires (R273) -/

/-- A fire reaches an NI: its count, and the triggers it makes ready. -/
def State.noteFire (s : State) (io k : Nat) : State :=
  let s := s.onNi fun n => { n with fires := n.fires.modify 0 (io * 4096 + k) fun x => (x + 1) % 65536 }
  s.onNi fun n => { n with trigs := n.trigs.map fun t =>
    if t.state == .posted && t.io == io && tFlag t.desc 1 && tTrigKnot t.desc == k && s.fireReached io k (tFireSeq t.desc) then
      { t with state := .ready } else t }

/-- FIRE_MESSAGE_RECEIVE (R171, R273). -/
def execFireMessageReceive (io k t : Nat) (s : State) : Res :=
  match s.fires.find? fun m => m.io == io && m.knot == k && decide (m.due ≤ t) with
  | none => .next s
  | some m => .next (({ s with fires := s.fires.erase m }.atLclk t).noteFire io k)

/-! ### Starting an operation (R274) -/

/-- The trace record of an NI (2) or engine (3) at the begin or end of an operation (R474, R475). -/
def State.traceTrig (s : State) (kind engine : Nat) (t : Trig) : State :=
  let x := s.timeAt s.clk.now
  s.trace (4 + t.io)
    { kind, engine, unit := t.io, stand := t.stand, opcode := tOp t.desc, status := if kind = 1 then 4 else t.status,
      time := BitVec.ofNat 64 x.1, ids := tIds t.desc, tag := tTag t.desc, detail := t.opId }

/-- Whether every knot of a stand is clocked (R418). -/
def State.knotsOn (s : State) (st : Nat) : Bool :=
  (List.range 4).all fun b => s.coreOn b || (List.range 1024).all fun i => s.knotOwner (1024 * b + i) != some st

/-- Whether a stand's triggers may start: no knot of it is gated, its queue is not halted, and it is neither held nor in reset (R259, R276, R314). -/
def State.mayRun (s : State) (st : Nat) : Bool :=
  s.standState st == 2 && !s.flag (CQ_TRIG_STATE_halted st) && !s.standHeld st && s.serving && s.knotsOn st

/-- Whether an earlier ready operation of the stand has still to start (R274; log entry 48). -/
def State.behind (s : State) (t : Trig) : Bool :=
  (s.ni.trigs.takeWhile fun u => !(u.stand == t.stand && u.index == t.index)).any fun u => u.stand == t.stand && u.state == .ready

/-- An operation starts: its number, its end-to-end mode (every sending operation that names the channel, R296, R297), its trace
record. -/
def State.beginTrig (s : State) (t : Trig) : Trig × State :=
  let id := s.ni.nextOp.get 0 t.stand
  let c := tChan t.desc
  let on := tOp t.desc != 0x10 && s.chanOf c t.stand && s.liveFlag (COLL_CHAN_CFG_crc_e2e c)
  let t := { t with state := .running, opId := id, crcOn := on, flags := 128 * bit on }
  let s := (s.onTrig t.stand t.index fun _ => t).onNi fun n => { n with nextOp := n.nextOp.set 0 t.stand ((id + 1) % 2 ^ 32) }
  (t, s.traceTrig 1 2 t)

/-- An operation ends with a status before it sends anything. -/
def State.endTrig (s : State) (t : Trig) (status : Nat) : State :=
  s.onTrig t.stand t.index fun t => { t.fail status 0 with state := .finished }

/-- RANK (R253, R254). -/
def State.rankFail (s : State) (t : Trig) : State := (s.endTrig t 0x10).setFlag NI_EVENT_rank_invalid true

/-- The header common to an operation's packets. -/
def State.trigHead (s : State) (t : Trig) : Packet :=
  let d := t.desc
  { type := tOp d, flags := 4 * bit t.crcOn, dstStand := 0, srcStand := t.stand, srcLimb := 0, target := tTarget d, dstNode := 0,
    dstEpoch := 0, srcNode := s.node, srcEpoch := s.nodeEpoch, srcRank := bytesAt d 52 2, group := 0, length := 0,
    knot := bytesAt d 44 2 % 4096, knotOp := bytesAt d 44 2 / 4096, knotValue := bytesAt d 48 4, remote := 0, opId := t.opId,
    channel := tChan d, reserved := 0, inject := 0, pktIndex := 0, pktCount := 1, deliverBy := 0, coll := 0, payload := [] }

/-- The path to a rank and the header fields its entry gives (R254); none when it fails as R253. -/
def State.rankPath (s : State) (t : Trig) (r : Nat) (h : Packet) : Option (Path × Packet) :=
  match s.rankEntry t.stand r with
  | none => none
  | some i =>
    let route := s.liveFld (NI_RANK_ENTRY_route i)
    let h := { h with
      dstNode := s.liveFld (NI_RANK_ENTRY_node i), dstEpoch := s.liveFld (NI_RANK_ENTRY_epoch i),
      dstStand := s.liveFld (NI_RANK_ENTRY_dst_stand i) }
    let sched := tFlag t.desc 0 && s.liveFlag (NI_RANK_ENTRY_sched_ok i)
    let x : Path :=
      { io := t.io, stand := t.stand, index := t.index, sched, route, budget := s.liveFld (NI_RANK_ENTRY_budget i),
        off := tFlag t.desc 0 && !sched }
    if h.dstNode = s.node ∨ !(s.routeLimbs route).isEmpty then some (x, h) else none

/-- Whether an operation's packets go best-effort: by its descriptor, or because its rank's entry or limbs leave no other way (R254). -/
def State.goesBe (s : State) (t : Trig) : Bool :=
  !tFlag t.desc 0 || (decide (tOp t.desc < 6) && (match s.rankPath t (tRank t.desc) (s.trigHead t) with
    | some (x, h) => !x.sched || (h.dstNode != s.node && (s.schedLimbs x.route).isEmpty)
    | none => false))

/-- Whether an operation waits in its trigger queue for its stand's quota of best-effort packets (R251). -/
def State.overQuota (s : State) (t : Trig) : Bool := tOp t.desc != 0x10 && s.goesBe t && s.quotaFull t.io t.stand

/-- The start of a row's operation: `f` builds what it sends. -/
def State.startTrig (s : State) (st i op : Nat) (f : Trig → State → State) : Res :=
  match s.trigAt st i with
  | none => .next s
  | some t =>
    s.when (t.state == .ready && tOp t.desc == op && s.mayRun st && s.niOn t.io && s.liveFlag NI_NODE_valid && !s.behind t && !s.overQuota t)
      (let r := s.beginTrig t
       f r.1 r.2)

/-! ### Packets of an operation (R289-R295) -/

/-- The coll field of a data packet (R282). -/
def collField (d : List Byte) (mode : Nat) (crc : Bool) (bs : List Byte) : Nat :=
  (if tOp d = 5 then tContrib d + tChunk d * 2 ^ 16 else 0) + mode * 2 ^ 24 + tElem d * 2 ^ 28 + if crc then crc32c bs * 2 ^ 32 else 0

/-- The packets of coded data from a header; `bad` tells the ones whose bytes of the source were uncorrectable, which are poisoned (R256). -/
def packetsOf (h : Packet) (d : List Byte) (mode base : Nat) (crc : Bool) (c : Coded) (bad : Nat → Bool) : List (Packet × Nat) :=
  let n := c.parts.length
  (List.range n).map fun i =>
    let x := c.parts.getD i (0, [])
    ({ h with
       flags := h.flags + bit (bad i), length := x.2.length, remote := base + x.1, pktIndex := i, pktCount := n,
       coll := collField d mode crc x.2, payload := x.2 },
     if i + 1 = n then c.pad else 0)

/-- Queue an operation's packets; more than 65,535 fail it with FORMAT (log entry 46). -/
def State.queueOp (s : State) (t : Trig) (x : Path) (ps : List (Packet × Nat)) : State :=
  if 65535 < ps.length then s.endTrig t 3
  else (s.onTrig t.stand t.index fun t => { t with unsent := t.unsent + ps.length }).queue x ps

/-- Bytes brought to a KiB counter: whole KiB are counted, the rest is kept for the next send (R290; log entry 88). -/
def State.countKib (s : State) (f : Fld) (k n : Nat) : State :=
  let m := s.coll.spare.get 0 k + n
  (s.count f (m / 1024)).onColl fun x => { x with spare := x.spare.set 0 k (m % 1024) }

/-- COLL_CHAN_CODE of a LOSSLESS send (R290). -/
def State.countCoded (s : State) (t : Trig) (raw coded : Nat) : State :=
  let c := tChan t.desc
  if s.chanOf c t.stand then (s.countKib (COLL_CHAN_CODE_raw_kib c) (2 * c) raw).countKib (COLL_CHAN_CODE_coded_kib c) (2 * c + 1) coded else s

/-- COLL_CHAN_CODE and the record's detail of a LOSSLESS send (R290). -/
def State.noteCoded (s : State) (t : Trig) (raw coded : Nat) : State :=
  (s.onTrig t.stand t.index fun t => { t with detail := leBytes 8 raw ++ leBytes 8 coded }).countCoded t raw coded

/-- Read the residuals of a BQE send (R292): their bytes, whether a line was uncorrectable, the state. -/
def State.residuals (s : State) (t : Trig) : List Byte × Bool × State :=
  let n := 4 * tElems t.desc
  if isBqe (tWire t.desc) then (s.standRead t.stand (tAux t.desc) n).getD (List.replicate n 0#8, false, s) else ([], false, s)

/-- Read and code an operation's source. An uncorrectable line of the source or of its residuals marks the record (R256, R279). -/
def State.codeSource (s : State) (t : Trig) (n top : Nat) : Coded × State :=
  let d := t.desc
  let (bs, bad, s) := s.readKind t.stand (tKind d) (tChan d) (tLocal d) n
  let (resid, badResid, s) := s.residuals t
  let c := codeData (tWire d) (tElem d) top (tOp d == 5) bs resid
  let s := if isBqe (tWire d) then (match s.standWrite t.stand (tAux d) c.resid with | some r => r.2 | none => s) else s
  let s := if tWire d = 1 then s.noteCoded t n c.coded else s
  (c, s.onTrig t.stand t.index fun t => { t with flags := t.flags ||| (2 * bit (bad || badResid) + 8 * bit c.spill) })

/-- Whether the source bytes of payload `i` of an operation touch an uncorrectable line. -/
def State.partBad (s : State) (t : Trig) (a n : Nat) (c : Coded) (i : Nat) : Bool :=
  let w := c.span (tWire t.desc) (tElem t.desc) n (tOp t.desc == 5) i
  s.rangeBad t.stand (tKind t.desc) (a + w.1) w.2

/-- Send coded data along a path. -/
def State.sendData (s : State) (t : Trig) (x : Path) (h : Packet) : State :=
  let n := tBytes t.desc
  if !s.localIn t.stand t.desc n then s.endTrig t 1
  else
    let (c, u) := s.codeSource t n (s.maxPayload x.route)
    u.queueOp t x (packetsOf h t.desc (tWire t.desc) (tRemote t.desc) t.crcOn c (s.partBad t (tLocal t.desc) n c))

/-- Send data to the descriptor's rank. -/
def State.sendToRank (s : State) (t : Trig) : State :=
  match s.rankPath t (tRank t.desc) (s.trigHead t) with
  | none => s.rankFail t
  | some (x, h) => s.sendData t x h

/-- TRIG_PUT (R270). -/
def execTrigPut (st i : Nat) (s : State) : Res := s.startTrig st i 1 fun t s => s.sendToRank t

/-- TRIG_REDUCE (R282). -/
def execTrigReduce (st i : Nat) (s : State) : Res := s.startTrig st i 5 fun t s => s.sendToRank t

/-- The GET_REQ of a GET: the return address in the form of local_addr, and the length (R238); its coll field names the wire mode and element type
the answer is to be coded in (R282; log entry 85). -/
def getReq (d : List Byte) (crc : Bool) (h : Packet) : Packet :=
  let bs := leBytes 8 (bytesAt d 24 8) ++ leBytes 4 (tLen d) ++ leBytes 4 0
  { h with type := 2, length := 16, remote := tRemote d, payload := bs, coll := collField d (tWire d) crc bs }

/-- TRIG_GET (R270). -/
def execTrigGet (st i : Nat) (s : State) : Res :=
  s.startTrig st i 2 fun t s =>
    match s.rankPath t (tRank t.desc) (s.trigHead t) with
    | none => s.rankFail t
    | some (x, h) => s.queueOp t x [(getReq t.desc t.crcOn h, 0)]

/-- TRIG_KNOT (R270). -/
def execTrigKnot (st i : Nat) (s : State) : Res :=
  s.startTrig st i 4 fun t s =>
    match s.rankPath t (tRank t.desc) (s.trigHead t) with
    | none => s.rankFail t
    | some (x, h) => s.queueOp t x [({ h with remote := tRemote t.desc }, 0)]

/-- The path of an MCAST_PUT (R261): the group's route. What names the destination before the switch replicates, and the path
budget, are not stated (log entry 50). -/
def State.groupPath (s : State) (t : Trig) (h : Packet) : Option (Path × Packet) :=
  let g := tRank t.desc
  let w := s.freeWord.toNat
  let route := s.liveFld (NI_MCAST_GROUP_route g)
  if g < 4096 ∧ s.liveFlag (NI_MCAST_GROUP_valid g) ∧ s.liveFlag (NI_MCAST_GROUP_sender g) ∧ s.liveFld (NI_MCAST_GROUP_stand g) = t.stand
      ∧ !(s.routeLimbs route).isEmpty then
    some ({ io := t.io, stand := t.stand, index := t.index, sched := tFlag t.desc 0, route, budget := bitsOf w 43 32 },
      { h with group := g, dstNode := bitsOf w 11 0, dstEpoch := bitsOf w 27 12, dstStand := bitsOf w 31 28 })
  else none

/-- TRIG_MCAST_PUT (R261). -/
def execTrigMcastPut (st i : Nat) (s : State) : Res :=
  s.startTrig st i 6 fun t s =>
    match s.groupPath t (s.trigHead t) with
    | none => s.rankFail t
    | some (x, h) => s.drawn.sendData t x h

/-! ### A2A (R298, R299) -/

/-- One destination of an A2A: its bucket's packets and the count, or none where its rank fails. A LOSSLESS bucket is counted as any send (R290). -/
def State.a2aDest (s : State) (t : Trig) (tbl : List Byte) (x : Nat) : Option (State → State) :=
  let d := t.desc
  match s.rankPath t x { s.trigHead t with type := 1 } with
  | none => none
  | some (p, h) => some fun s =>
    let e := a2aEntry tbl x
    let n := min e.2 (tCap d) * tEsize d
    let (bs, bad, u) := (s.standRead t.stand e.1 n).getD (List.replicate n 0#8, false, s)
    let top := s.maxPayload p.route
    let per := if tWire d = 0 ∧ 0 < tEsize d ∧ tEsize d ≤ top then top / tEsize d * tEsize d else top
    let c := if n = 0 then { parts := [] } else codeData (tWire d) (tElem d) per false bs []
    let base := tRemote d + ceilDiv (4 * tContrib d) 64 * 64 + bytesAt d 52 2 * tCap d * tEsize d
    let part := fun (i : Nat) => let w := c.span (tWire d) (tElem d) n false i; s.rangeBad t.stand 0 (e.1 + w.1) w.2
    let ps := packetsOf h d (tWire d) base t.crcOn c part
    let num := leBytes 4 (min e.2 (tCap d))
    let last := { h with
      length := 4, remote := tRemote d + 4 * bytesAt d 52 2, pktIndex := ps.length, payload := num,
      coll := if t.crcOn then crc32c num * 2 ^ 32 else 0 }
    let ps := (ps ++ [(last, 0)]).map fun (q : Packet × Nat) => ({ q.1 with pktCount := ps.length + 1 }, q.2)
    let u := u.onTrig t.stand t.index fun t => { t with flags := t.flags ||| (2 * bit bad) }
    (if tWire d = 1 then u.countCoded t n c.coded else u).queueOp t p ps

/-- The drops of an A2A: what entry `x` leaves out (R299). -/
def a2aDrop (d tbl : List Byte) (x : Nat) : Nat := (a2aEntry tbl x).2 - tCap d

/-- The overflow entries of the record (*Overflow entries*). -/
def overflowEntries (d tbl : List Byte) : List Byte :=
  let spill := ((List.range (tContrib d)).filter fun x => decide (0 < a2aDrop d tbl x)).take 4
  (List.range 4).flatMap fun i => match spill[i]? with
    | some x => leBytes 2 x ++ leBytes 2 0 ++ leBytes 4 (a2aDrop d tbl x)
    | none => leBytes 2 0xFFFF ++ leBytes 2 0 ++ leBytes 4 0

/-- Write one byte string where local_addr points, from an offset. -/
def State.writeLocal (s : State) (t : Trig) (off : Nat) (bs : List Byte) : State :=
  if tKind t.desc = 3 then s.store (s.chanAt (tChan t.desc) (tLocal t.desc + off)) bs
  else (s.remoteWrite t.stand (tKind t.desc) (tLocal t.desc + off) bs).2

/-- Drop fields, counters and the overflow of an A2A (R299). -/
def State.a2aDrops (s : State) (t : Trig) (tbl : List Byte) : State :=
  let d := t.desc
  let xs := List.range (tContrib d)
  let s := s.forEach xs fun x s => s.writeLocal t (16 * x + 12) (leBytes 4 (a2aDrop d tbl x))
  let total := (xs.map (a2aDrop d tbl)).sum
  let s := if s.chanOf (tChan d) t.stand then s.count (COLL_CHAN_STATUS_dropped (tChan d)) total else s
  s.onTrig t.stand t.index fun t => { t with
    detail := overflowEntries d tbl, flags := t.flags ||| (512 * bit (decide (0 < total))) }

/-- The A2A: every rank is tried first; an invalid one sends nothing. -/
def State.runA2a (s : State) (t : Trig) : State :=
  let d := t.desc
  if !s.localIn t.stand d (tBytes d) then s.endTrig t 1
  else
    let (tbl, bad, s) := s.readKind t.stand (tKind d) (tChan d) (tLocal d) (tBytes d)
    let dests := (List.range (tContrib d)).map (s.a2aDest t tbl)
    if dests.any Option.isNone then s.rankFail t
    else
      let s := s.onTrig t.stand t.index fun t => { t with flags := t.flags ||| (2 * bit bad) }
      (s.forEach dests fun f s => match f with | some g => g s | none => s).a2aDrops t tbl

/-- TRIG_A2A (R298). -/
def execTrigA2a (st i : Nat) (s : State) : Res := s.startTrig st i 0x11 fun t s => s.runA2a t

/-! ### Completion (R276, R277) -/

/-- Whether an operation has completed (*Triggered operations*): finished, or a sending one whose packets are all acknowledged. -/
def Trig.done (t : Trig) : Bool :=
  t.state == .finished || (t.state == .running && t.unsent == 0 && t.unacked == 0
    && (tOp t.desc == 1 || tOp t.desc == 4 || tOp t.desc == 5 || tOp t.desc == 0x11 || (tOp t.desc == 2 && t.status != 0)))

/-- The completion record of a trigger. -/
def Trig.record (t : Trig) (time : Nat) : List Byte :=
  trigRecord t.desc (tTag t.desc) (tIds t.desc) t.status (if t.status = 0x13 then t.cause else 0) t.flags t.opId t.units time t.detail

/-- OP_FAILED is noticed for LINK, KEY and REMOTE (R393). -/
def State.noticeFailed (s : State) (t : Trig) : State :=
  if t.status = 0x11 ∨ t.status = 0x12 ∨ t.status = 0x13 then
    let i := s.rankIndex t.stand (tRank t.desc)
    s.notice t.io 0x04 (s.liveFld (NI_RANK_ENTRY_node i)) (s.liveFld (NI_RANK_ENTRY_epoch i))
  else s

/-- A trigger leaves its NI. -/
def State.removeTrig (s : State) (t : Trig) : State :=
  (s.onNi fun n => { n with
    trigs := n.trigs.filter fun u => !(u.stand == t.stand && u.index == t.index) }).showPosted t.stand

/-- The knot operation of a completion with status OK. -/
def State.cplKnot (s : State) (t : Trig) : State :=
  let d := t.desc
  if t.status = 0 ∧ tFlag d 2 then
    s.sendKnot (tCplKnot d) (arriveKind (tCplOp d)) (if tCplOp d = 0 then 1 else bytesAt d 20 4) (some t.stand) (niSource t.io) s.clk.now
      (ioPath t.io (tCplKnot d))
  else s

/-- Complete a trigger. -/
def State.completeTrig (s : State) (t : Trig) : State :=
  let s := (s.writeTrigCpl t.stand t.index (t.record (s.timeAt s.clk.now).1)).removeTrig t
  let s := (s.standCtr t.stand 6 1).progress (trigKey t.stand)
  let s := if tOp t.desc = 0x10 then (s.standCtr t.stand 13 1).traceTrig 2 3 t else s
  let s := if t.status = 0x14 then s.count (COLL_CHAN_CRC_crc_fails (tChan t.desc)) 1 else s
  let s := (((s.traceTrig 2 2 t).noticeFailed t).cplKnot t)
  let s := if t.status = 0 then s else s.haltTrig t.stand t.status
  s.trigIrq t.stand t.desc

/-- TRIGGER_COMPLETE (R276). -/
def execTriggerComplete (st i : Nat) (s : State) : Res :=
  match s.trigAt st i with
  | none => .next s
  | some t => s.when t.done (s.completeTrig t)

/-- Discard the triggers posted on knots of granules that changed owner in this guard band (R275). -/
def State.dropGranuleTrigs (s : State) : State :=
  let s := s.onNi fun n => { n with
    trigs := n.trigs.filter fun t => !((t.state == .posted || t.state == .ready) && tFlag t.desc 1 && s.granules.contains (tTrigKnot t.desc / 16)) }
  if s.granules.isEmpty then s else s.forEach (List.range 16) fun st s => s.showPosted st

end Sys2Proof.Machine
end

