-- ==== Sys2Proof/Machine/Fold.lean ====
section
/-! DEFINITION. Folding (10_collectives.md, R283-R287): the layout of a FOLD, its slices, the fold of one group in fixed order. -/

namespace Sys2Proof.Machine

/-- Staged bytes of one contribution. -/
def foldContrib (d : List Byte) : Nat := stagedBytes (tWire d) (tElem d) (tLen d)

/-- stage_off and out_off. -/
def stageOff (d : List Byte) : Nat := bytesAt d 32 4
/-- out_off. -/
def outOff (d : List Byte) : Nat := bytesAt d 36 4

/-- Whether R283 permits a FOLD's layout. -/
def State.foldLayoutOk (s : State) (d : List Byte) : Bool :=
  let n := tRank d * foldContrib d
  let m := tLen d * typeBytes (tOut d)
  tLen d % 256 == 0 && s.chanIn (tChan d) (stageOff d) n && s.chanIn (tChan d) (outOff d) m
    && (n == 0 || m == 0 || !meets (stageOff d) n (outOff d) m)

/-- Staged bytes of one contribution's group of 256 elements (*b* of R284). -/
def groupStaged (d : List Byte) : Nat := stagedBytes (tWire d) (tElem d) 256

/-- *g* of R284: I/O fabric cycles of a group. -/
def groupCycles (d : List Byte) : Nat := 2 + ceilDiv (tRank d * groupStaged d) 1024

/-- Groups of a FOLD. -/
def foldGroups (d : List Byte) : Nat := tLen d / 256

/-- Element `i` of a contribution's staged group, other than XP. -/
def stagedElem (d bs : List Byte) (i : Nat) : Val × Bool :=
  let k := bqeBytes (tWire d)
  if isBqe (tWire d) then bqeElem (tWire d) ((bs.drop (i / 32 * k)).take k) (i % 32) else (typeElem (tElem d) bs i, false)

/-- One lane (R285, R286): contributions 0 to *N* - 1 in order. -/
def foldLane (d : List Byte) (stage : Nat → List Byte) (i : Nat) : Acc :=
  (List.range (tRank d)).foldl (fun a j =>
    if tElem d = 3 then a.addXp (Acc.ofRecord false ((stage j).drop (32 * i) |>.take 32)) else a.add false (stagedElem d (stage j) i).1) {}

/-- The output of a lane: its bytes, overflow, and NaN. -/
def foldOut (d : List Byte) (seed pos : Nat) (a : Acc) : List Byte × Bool × Bool :=
  if tOut d = 3 then (Acc.toRecord false a, false, false)
  else
    let v := a.value false
    let r := packIeee (typeFmt (tOut d)) (roundMode (tRound d) seed (tIds d % 2 ^ 20) (tAux d + pos)) v
    (leBytes (typeBytes (tOut d)) r.1, r.2, v == .nan)

/-- Fold one group: its output bytes and record flags. -/
def State.foldGroup (s : State) (t : Trig) (g : Nat) : State :=
  let d := t.desc
  let c := tChan d
  let b := groupStaged d
  let staged := (List.range (tRank d)).map fun j => s.bytes (s.chanAt c (stageOff d + j * foldContrib d + g * b)) b
  let stage := fun (j : Nat) => staged.getD j []
  let seed := (s.liveRd (STAND_SEED (s.chanStand c))).toNat
  let accs := (List.range 256).map (foldLane d stage)
  let outs := (List.range 256).map fun i => foldOut d seed (256 * g + i) (accs.getD i {})
  let codes := isBqe (tWire d) && (List.range (tRank d)).any fun j => (List.range 256).any fun i => (stagedElem d (stage j) i).2
  let fl := 4 * bit (accs.any (·.sticky)) + 8 * bit ((outs.any (·.2.1)) || accs.any (·.sat)) + 16 * bit ((outs.any (·.2.2)) || codes)
  let s := s.store (s.chanAt c (outOff d + 256 * g * typeBytes (tOut d))) (outs.flatMap (·.1))
  s.onTrig t.stand t.index fun t => { t with nextGroup := g + 1, units := t.units + 1, flags := t.flags ||| fl }

/-- Whether the current slot is a slice of a channel that it has not used (R281, R284). -/
def State.sliceFree (s : State) (c : Nat) : Bool :=
  s.clk.ringOn && s.chanValid c && s.schedChannel (s.chanEngine c) s.clk.slot == some c && s.coll.sliced.get 0 c != s.slotNo + 1

/-- Run the groups of a FOLD that end within the slice (R284). -/
def State.runSlice (s : State) (t : Trig) : State :=
  let d := t.desc
  let n := min (s.slotCycles / groupCycles d) (foldGroups d - t.nextGroup)
  let s := s.onColl fun x => { x with sliced := x.sliced.set 0 (tChan d) (s.slotNo + 1) }
  let s := s.forEach ((List.range n).map (· + t.nextGroup)) fun g s => s.foldGroup t g
  if foldGroups d ≤ t.nextGroup + n then s.onTrig t.stand t.index fun t => { t with state := .finished } else s

/-- The FOLD of a channel that has groups left. -/
def State.runningFold (s : State) (c : Nat) : Option Trig :=
  s.ni.trigs.find? fun t => tOp t.desc == 0x10 && tChan t.desc == c && t.state == .running

/-- Whether a chunk's count had reached *N* before the current slice began (R283). -/
def State.chunkReady (s : State) (d : List Byte) : Bool :=
  match s.chunkOf (tChan d) (tChunk d) with
  | some k => decide (tRank d ≤ k.count) && decide (k.slot < s.slotNo)
  | none => tRank d == 0

/-- Start a FOLD: a layout error or a group longer than a slice ends it at once; else its first slice (R283, R284). -/
def State.startFold (s : State) (t : Trig) : State :=
  let c := tChan t.desc
  let k := s.chunkOf c (tChunk t.desc)
  let (t, s) := s.beginTrig t
  let s := s.traceTrig 1 3 t
  if !s.chanOf c t.stand ∨ !s.foldLayoutOk t.desc then s.endTrig t 3
  else if s.slotCycles < groupCycles t.desc then s.endTrig t 2
  else
    let poison := match k with | some k => k.poison | none => false
    let s := s.onTrig t.stand t.index fun t => { t with flags := t.flags ||| (2 * bit poison) }
    ((s.takeChunk c (tChunk t.desc)).runSlice t).rxRetry

/-- TRIG_FOLD (R283). -/
def execTrigFold (st i : Nat) (s : State) : Res :=
  match s.trigAt st i with
  | none => .next s
  | some t =>
    let d := t.desc
    let bad := !s.chanOf (tChan d) st || !s.foldLayoutOk d || decide (s.slotCycles < groupCycles d)
    s.when (t.state == .ready && tOp d == 0x10 && s.mayRun st && s.niOn t.io && !s.behind t
        && (bad || (s.sliceFree (tChan d) && s.chunkReady d && (s.runningFold (tChan d)).isNone)))
      (s.startFold t)

/-- FOLD_SLICE (R284). -/
def execFoldSlice (c : Nat) (s : State) : Res :=
  match s.runningFold c with
  | none => .next s
  | some t => s.when (s.sliceFree c && s.niOn (s.chanEngine c)) (s.runSlice t)

end Sys2Proof.Machine
end

