-- ==== Sys2Proof/Machine/Mailbox.lean ====
section
/-! DEFINITION. The Swiol Mailbox Protocol (12_heartwood_mailbox.md): posting and retiring, fetch into intake with the request checks,
service order, responses, sessions, shedding, the hardware responder, and the session opcodes of 13. -/

namespace Sys2Proof.Machine

/-! ### Opcodes (13_mailbox_opcodes.md) -/

/-- Opcodes of both roles (R359). -/
def opcodesOT : List Nat :=
  [0x0101, 0x0102, 0x0103, 0x0204, 0x0205, 0x0503, 0x0605, 0x0606, 0x0701, 0x0702, 0x0703, 0x0901, 0x0904]

/-- Opcodes of the owner alone. -/
def opcodesO : List Nat :=
  [0x0201, 0x0202, 0x0203, 0x0301, 0x0302, 0x0303, 0x0401, 0x0402, 0x0403, 0x0501, 0x0502, 0x0504, 0x0505, 0x0506, 0x0507, 0x0508,
   0x0601, 0x0602, 0x0603, 0x0604, 0x0704] ++
  [0x0801, 0x0802, 0x0803, 0x0804, 0x0805, 0x0806, 0x0807, 0x0902, 0x0903, 0x0905, 0x0906, 0x0A01, 0x0A02, 0x0A03, 0x0A04,
   0x0B01, 0x0B02, 0x0B03, 0x0B04]

/-- PRECISION_CONSENT, the one opcode of the tenant alone. -/
def opcodesT : List Nat := [0x0206]

/-- An opcode's family. -/
def family (op : Nat) : Nat := op / 256

/-- Whether a role (owner or tenant) may send an opcode. -/
def roleMay (owner : Bool) (op : Nat) : Bool :=
  opcodesOT.contains op || (if owner then opcodesO.contains op else opcodesT.contains op)

/-- Whether a request came from the owner: on PF0 or I3C. -/
def Req.owner (r : Req) : Bool := decide (16 ≤ r.mbx)

/-! ### Arguments -/

/-- `n` bytes of the payload from offset `o`; bytes a short payload lacks read 0 (log entry 51). -/
def Req.arg (r : Req) (o n : Nat) : Nat := bytesAt r.payload o n

/-- Whether the bytes of a layout's reserved places, and every byte past the layout, are 0 (R361). -/
def Req.clean (r : Req) (size : Nat) (reserved : List (Nat × Nat)) : Bool :=
  (r.payload.drop size).all (· == 0#8) && reserved.all fun x => r.arg x.1 x.2 == 0

/-- The largest response payload (R333): 32 bytes for an inline request (log entry 51), else that of the mailbox and session. -/
def State.rspLimit (s : State) (r : Req) : Nat :=
  if !bitOf r.flags 0 || r.mbx == 17 then 32 else if s.smp2 r.mbx then 2048 else 4096

/-! ### Intake (R329, R344, R346) -/

/-- Every request fetched and not answered. -/
def State.fetched' (s : State) : List Req := s.hw.reserve ++ s.hw.intake ++ s.hw.admin.map (·.req)

/-- The greatest age in rings of the requests of a class fetched and not answered (R347). -/
def State.oldestAge (s : State) (cls : Nat) : Nat :=
  (s.fetched'.filter fun r => r.cls == cls).foldl (fun a r => max a (s.rings - r.ring)) 0

/-- MBX_REQ_STATE.in_intake and MBX_LOAD_STATUS follow the requests held. -/
def State.showIntake (s : State) : State :=
  let all := s.fetched'
  let s := s.forEach (List.range 18) fun m s => s.setFld (MBX_REQ_STATE_in_intake m) (all.countP fun r => r.mbx == m)
  let s := (s.setFld MBX_LOAD_STATUS_intake_used all.length).setFld MBX_LOAD_STATUS_p0_in_reserve s.hw.reserve.length
  (s.setFld MBX_LOAD_STATUS_oldest_p1_age (min 65535 (s.oldestAge 1))).setFld MBX_LOAD_STATUS_oldest_p2_age (min 65535 (s.oldestAge 2))

/-- The class applied (R344). -/
def appliedClass (owner : Bool) (op asked : Nat) : Nat :=
  if !owner then 2 else max asked (if family op = 0x03 ∨ family op = 0x0A then 0 else 1)

/-- Whether a class is shed (R347). -/
def State.sheds (s : State) (cls : Nat) : Bool :=
  let l := s.fld MBX_LOAD_STATUS_level
  (cls == 2 && decide (2 ≤ l)) || (cls == 1 && l == 3)

/-- The next request to serve (R346): P0 in arrival order, P1 in arrival order, then P2 round-robin over stands, the two owner mailboxes
taking their turn after stand 15's (log entry 59). -/
def State.nextToServe (s : State) : Option Req :=
  match s.hw.reserve with
  | r :: _ => some r
  | [] =>
    match s.hw.intake.find? fun r => decide (r.cls ≤ 1) with
    | some r => some r
    | none =>
      let turn := (List.range 18).map fun i => (s.hw.lastStand + 1 + i) % 18
      turn.findSome? fun st => s.hw.intake.find? fun r => r.mbx == st

/-- A request leaves intake. -/
def State.takeReq (s : State) (r : Req) : State :=
  s.onHw fun h => { h with
    reserve := h.reserve.erase r, intake := h.intake.erase r, lastStand := if r.cls = 2 then r.mbx else h.lastStand }

/-! ### Responses (R330-R333, R336) -/

/-- What a handler answers with. -/
structure Reply where
  status : Nat := 0
  body   : List Byte := []
  retry  : Nat := 0
  stale  : Bool := false
deriving DecidableEq, Repr

/-- A bare status. -/
def Reply.of (status : Nat) : Reply := { status }

/-- The version a response is written in: the session's, without one the request's (R342); a HELLO that fails is answered in the client's highest
(R341). -/
def State.rspVersion (s : State) (r : Req) : Nat × Nat :=
  if r.opcode = 0x0101 then (bytesAt r.payload 0 1, bytesAt r.payload 1 1)
  else if s.fld (MBX_FN_STATUS_session_major r.mbx) = 0 then (r.major, r.minor)
  else (s.fld (MBX_FN_STATUS_session_major r.mbx), s.fld (MBX_FN_STATUS_session_minor r.mbx))

/-- The 64 bytes of a response slot, responder and ring_time still 0 (R331, R342). -/
def Reply.slot (x : Reply) (r : Req) (ver : Nat × Nat) : List Byte :=
  let old := ver.1 == 2
  let indirect := bitOf r.flags 0
  leBytes 1 ver.1 ++ leBytes 1 ver.2 ++ leBytes 2 r.opcode ++ leBytes 4 r.seq ++ leBytes 1 r.stand ++ leBytes 1 r.cls
    ++ leBytes 2 (r.flags % 16 + 16 * bit (bitOf r.count 5) + 32 * bit x.stale) ++ leBytes 4 x.body.length
    ++ leBytes 2 0 ++ leBytes 2 x.status ++ leBytes 2 (if old then 0 else x.retry) ++ leBytes 2 0 ++ leBytes 8 0
    ++ (if indirect then List.replicate 32 0#8 else padTo 32 x.body)

/-- The reply as its session sends it (R333, R342): a result that an inline request cannot carry is TOO_LONG (log entry 51). -/
def Reply.fit (x : Reply) (limit : Nat) (ver : Nat × Nat) : Reply :=
  let x := if limit < x.body.length then { x with status := 6, body := [] } else x
  if ver.1 = 2 ∧ x.status = 5 then { x with status := 4 } else x

/-- The address of the indirect buffer a request names (R331). -/
def Req.buffer (r : Req) : Nat := mbxAt r.mbx + 0x8000 + 4096 * bitsOf r.flags 3 1

/-- Tell the host that the first response of a pair is written: the mailbox's vector, or the I3C pair and its in-band interrupt. -/
def State.rspSignal (s : State) (m : Nat) (slot : List Byte) : State :=
  if m = 17 then (s.onI3c fun i => { i with rsp := i.rsp ++ [slot], busy := false }).ibi 0
  else if s.flag (MBX_IRQ_CFG_rsp_irq_en m) then (if m = 16 then s.msix 0 0 else s.msix (m + 1) 5) else s

/-- Write a response in a version: the token holder's slot at once, the other Heartwood's when it receives done (R336). A command is one act, so a
record is never seen before its done (DESIGN CHOICE, log entry 97). -/
def State.answerIn (s : State) (r : Req) (x : Reply) (ver : Nat × Nat) : State :=
  let x := x.fit (s.rspLimit r) ver
  let indirect := bitOf r.flags 0
  let s := if x.stale then s.setFlag MBX_EVENT_stale true else s
  let s := if indirect then s.store r.buffer x.body else s
  let rec_ : Record :=
    { mbx := r.mbx, count := r.count, slot := x.slot r ver, body := x.body,
      indirect := if indirect then some (bitsOf r.flags 3 1) else none, done := true }
  let s := s.writeSlot s.token rec_
  let s := if s.healthy (otherNo s.token) then s.onHw fun h => { h with records := h.records ++ [rec_] } else s
  (s.rspSignal r.mbx (s.stampSlot s.token rec_.slot)).showIntake

/-- Answer a request. -/
def State.answer (s : State) (r : Req) (x : Reply) : State := s.answerIn r x (s.rspVersion r)

/-- Answer a request of a shed class (R347). -/
def State.answerShed (s : State) (r : Req) : State :=
  let s := if r.cls = 2 then s.count MBX_SHED_COUNT_p2_busy 1 else s.count MBX_SHED_COUNT_p1_busy 1
  s.answer r { status := 1, retry := s.fld (if r.cls = 2 then MBX_LOAD_CFG_shed_t2 else MBX_LOAD_CFG_shed_t3) }

/-! ### Posting and retiring (R328) -/

/-- Whether a mailbox's window is there: that of a stand that is FREE is not (R304). -/
def State.mbxServed (s : State) (m : Nat) : Bool := decide (m < 18) && (decide (16 ≤ m) || decide (s.standState m ≠ 0))

/-- A write to MBX_REQ_DOORBELL. -/
def State.postRequests (s : State) (m tail : Nat) : State :=
  if reqSlots m < sub16 tail (s.fld (MBX_REQ_STATE_retire_seen m)) then s.setFlag (MBX_REQ_STATE_doorbell_err m) true
  else s.setFld (MBX_REQ_STATE_tail_seen m) tail

/-- Whether a host write reaches a mailbox's registers: PF0 in D3hot answers none (R486). -/
def State.mbxReached (s : State) (m : Nat) : Bool := s.mbxServed m && !(m == 16 && s.pcie.d3)

/-- MBX_REQ_DOORBELL (R328). -/
def execMbxReqDoorbell (m : Nat) (v : Word) (s : State) : Res := s.when (s.mbxReached m) (s.postRequests m (bitsOf v.toNat 15 0))

/-- A write to MBX_REQ_RETIRE: a value beyond head is ignored. -/
def State.retireRequests (s : State) (m retire : Nat) : State :=
  let old := s.fld (MBX_REQ_STATE_retire_seen m)
  if sub16 (s.fld (MBX_REQ_STATE_head m)) old < sub16 retire old then s
  else (s.setFld (MBX_REQ_RETIRE_retire m) retire).setFld (MBX_REQ_STATE_retire_seen m) retire

/-- MBX_REQ_RETIRE (R328). -/
def execMbxReqRetire (m : Nat) (v : Word) (s : State) : Res := s.when (s.mbxReached m) (s.retireRequests m (bitsOf v.toNat 15 0))

/-! ### Fetch and checks 1 to 8 (R329, R332, R334, R335) -/

/-- The 64 bytes of the request slot at a mailbox's head. -/
def State.headSlot (s : State) (m : Nat) : List Byte :=
  s.bytes (mbxAt m + 0x1000 + 64 * (s.fld (MBX_REQ_STATE_head m) % reqSlots m)) 64

/-- The request at a mailbox's head, its stand overwritten on a VF, its class applied. -/
def State.headRequest (s : State) (m : Nat) : Req :=
  let b := s.headSlot m
  let flags := bytesAt b 10 2
  let n := bytesAt b 12 4
  let op := bytesAt b 2 2
  { mbx := m, count := s.fld (MBX_REQ_STATE_head m), major := bytesAt b 0 1, minor := bytesAt b 1 1, opcode := op, seq := bytesAt b 4 4,
    stand := if m < 16 then m else bytesAt b 8 1, flags, cls := appliedClass (decide (16 ≤ m)) op (bytesAt b 9 1), ring := s.rings,
    payload := if bitOf flags 0 then s.bytes (mbxAt m + 0x8000 + 4096 * bitsOf flags 3 1) (min 4096 n) else (b.drop 32).take (min 32 n) }

/-- Check 1: reserved bytes and flags, responder, status, and the fields a request leaves 0, are 0; priority 0-2. -/
def headerOk (b : List Byte) : Bool :=
  decide (bytesAt b 10 2 < 16) && bytesAt b 16 2 == 0 && bytesAt b 18 2 == 0 && bytesAt b 20 4 == 0 && bytesAt b 24 8 == 0
    && decide (bytesAt b 9 1 ≤ 2)

/-- The largest request payload (R333). -/
def State.reqLimit (s : State) (m : Nat) : Nat := if m = 17 then 32 else if s.smp2 m then 2048 else 4096

/-- Check 3: a session is open and the header's version equals it. -/
def State.sessionOk (s : State) (r : Req) : Bool :=
  decide (s.fld (MBX_FN_STATUS_session_major r.mbx) ≠ 0) && s.fld (MBX_FN_STATUS_session_major r.mbx) == r.major
    && s.fld (MBX_FN_STATUS_session_minor r.mbx) == r.minor

/-- Checks 1 to 4 (R334): the failure's check and status. -/
def State.checkHeader (s : State) (b : List Byte) (r : Req) : Option (Nat × Nat) :=
  let n := bytesAt b 12 4
  if !headerOk b then some (1, 4)
  else if s.reqLimit r.mbx < n ∨ (32 < n ∧ !bitOf r.flags 0) then some (2, 6)
  else if r.opcode = 0x0101 then none
  else if !s.sessionOk r then some (3, 3)
  else if r.seq ≠ s.fld (MBX_FN_STATUS_exp_seq r.mbx) then some (4, 4)
  else none

/-- Checks 5 to 7 (R334): the status of the failure. -/
def State.checkOpcode (s : State) (r : Req) : Option Nat :=
  if !(opcodesOT ++ opcodesO ++ opcodesT).contains r.opcode then some 9
  else if s.smp2 r.mbx ∧ (family r.opcode = 0x0A ∨ family r.opcode = 0x0B) then some 3
  else if !roleMay r.owner r.opcode then some 2
  else none

/-- A request enters the P0 reserve or intake, unless checks 1 to 8 answer it (log entry 52). -/
def State.enterIntake (s : State) (m : Nat) : State :=
  let b := s.headSlot m
  let r := s.headRequest m
  let s := s.setFld (MBX_REQ_STATE_head m) (s.fld (MBX_REQ_STATE_head m) + 1)
  match s.checkHeader b r with
  | some (c, st) => (if c = 4 then s.setFlag MBX_EVENT_seq_error true else s).answer r (.of st)
  | none =>
    let s := if r.opcode = 0x0101 then s else s.countWrap (MBX_FN_STATUS_exp_seq m) 1
    match s.checkOpcode r with
    | some st => s.answer r (.of st)
    | none =>
      if s.sheds r.cls then s.answerShed r
      else if r.cls = 0 then (s.onHw fun h => { h with reserve := h.reserve ++ [r] }).showIntake
      else (s.onHw fun h => { h with intake := h.intake ++ [r] }).showIntake

/-- Whether the request at a mailbox's head may be fetched (R329, R380): within the credit, or a place of the P0 reserve; behind a HELLO or
CLOSE of its mailbox in intake it waits (log entry 52). -/
def State.mayFetchReq (s : State) (m : Nat) : Bool :=
  let r := s.headRequest m
  let mine := s.fetched'.filter fun x => x.mbx == m
  s.hwActs && s.hw.planned.isNone && s.mbxServed m && decide (s.fld (MBX_REQ_STATE_head m) ≠ s.fld (MBX_REQ_STATE_tail_seen m))
    && !(mine.any fun x => x.opcode == 0x0101 || x.opcode == 0x0103)
    && (if r.cls = 0 then decide (s.hw.reserve.length < 8)
        else decide (mine.countP (fun x => x.cls != 0) < s.fld (MBX_FN_STATUS_credit m)) && decide (s.fetched'.length < 128))

/-- MBX_REQUEST_FETCH (R329-R335). -/
def execMbxRequestFetch (m : Nat) (s : State) : Res := s.when (decide (m < 18) && s.mayFetchReq m) (s.enterIntake m)

/-! ### Service -/

/-- Whether a stand takes part in an administration request that is not answered, or in a teardown (R313, R362). -/
def State.adminBusy (s : State) (st : Nat) : Bool :=
  decide ((s.stand st).teardown ≠ 0) || s.ni.held.contains st || s.hw.admin.any fun a => a.stand == st || a.left.any fun x => x.1 == st

/-- The families Heartwood serializes per stand (R362). -/
def serialFamily (op : Nat) : Bool := family op == 2 || family op == 5 || family op == 6

/-- What every opcode checks first (R359, R361, R362): the reserved bytes, the stand, and the request its stand has in hand. -/
def State.commonCheck (s : State) (r : Req) (size : Nat) (reserved : List (Nat × Nat)) (needStand serial : Bool) : Option Reply :=
  if !r.clean size reserved then some (.of 4)
  else if needStand && !decide (r.stand < 16) then some (.of 4)
  else if serial && serialFamily r.opcode && decide (r.stand < 16) && s.adminBusy r.stand then some { status := 1, retry := 1 }
  else none

/-- A handler: a reply, or none where the response follows later, and the state with the request's effect. -/
abbrev Handler := Req → State → Option Reply × State

/-- The request next to be served, if it is of an opcode and a Heartwood serves (R346). -/
def State.serving? (s : State) (op : Nat) : Option Req :=
  match s.nextToServe with
  | some r => if r.opcode = op ∧ s.hwActs ∧ s.hw.planned = none then some r else none
  | none => none

/-- Serve the next request, if it is of this opcode: check 9 and the effect. -/
def State.serve (s : State) (op size : Nat) (reserved : List (Nat × Nat)) (needStand serial : Bool) (f : Handler) : State :=
  match s.serving? op with
  | none => s
  | some r =>
    let t := s.takeReq r
    match t.commonCheck r size reserved needStand serial with
    | some x => t.answer r x
    | none =>
      match f r t with
      | (some x, t) => t.answer r x
      | (none, t) => t.showIntake

/-! ### Telemetry (R349) -/

/-- The telemetry a response returns and whether it is stale; without a sample its values are free (log entry 12). -/
def State.telem (s : State) : Telemetry × Bool :=
  let t : Telemetry := s.hw.telemetry.getD
    { ring := 0, count := 0, power := Config.reading 0 s.free, temps := (List.range 6).map fun i => Config.reading (10 + i) s.free }
  (t, decide (max 1 (s.fld MBX_LOAD_CFG_stale_limit) < s.rings - t.count))

/-- Heartwood's sample of a ring (R349). -/
def State.sampleTelemetry (s : State) : State :=
  if s.hwActs && s.fld MBX_LOAD_STATUS_level == 0 then
    let x : Telemetry := { ring := s.ring, count := s.rings, power := s.fld PWR_POWER_power_w, temps := (List.range 6).map s.dieTemp }
    s.onHw fun h => { h with telemetry := some x }
  else s

/-! ### Session opcodes, 0x01xx -/

/-- The versions the Crown serves, the highest first (R341). -/
def smpVersions : List (Nat × Nat) := [(3, 2), (3, 1), (3, 0), (2, 4), (2, 3), (2, 2), (2, 1), (2, 0)]

/-- The version HELLO chooses in an offered range, if any. -/
def helloVersion (r : Req) : Option (Nat × Nat) :=
  let hi := r.arg 0 1 * 256 + r.arg 1 1
  let lo := r.arg 2 1 * 256 + r.arg 3 1
  smpVersions.find? fun v => decide (lo ≤ v.1 * 256 + v.2) && decide (v.1 * 256 + v.2 ≤ hi)

/-- The HELLO response (R340). -/
def State.helloBody (s : State) (m : Nat) (v : Nat × Nat) : List Byte :=
  leBytes 1 v.1 ++ leBytes 1 v.2 ++ leBytes 2 0 ++ leBytes 4 (s.fld (MBX_FN_STATUS_exp_seq m))
    ++ leBytes 1 (if m = 16 then 0 else if m = 17 then 1 else 2) ++ leBytes 1 (if m < 16 then m else 0xFF)
    ++ leBytes 1 (s.fld (MBX_FN_STATUS_credit m)) ++ leBytes 5 0

/-- Open a session (R340, R353). -/
def State.openSession (s : State) (m : Nat) (v : Nat × Nat) (seq : Nat) : State :=
  let s := ((s.setFld (MBX_FN_STATUS_session_major m) v.1).setFld (MBX_FN_STATUS_session_minor m) v.2).setFld
    (MBX_FN_STATUS_exp_seq m) (seq + 1)
  if 16 ≤ m then s.logOther 2 0xFF else s

/-- A mailbox has no session (R340). -/
def State.closeSession (s : State) (m : Nat) : State :=
  (s.setFld (MBX_FN_STATUS_session_major m) 0).setFld (MBX_FN_STATUS_session_minor m) 0

/-- HELLO of the request next to be served (R340, R341). -/
def State.serveHello (s : State) (r : Req) : State :=
  let s := s.takeReq r
  if !r.clean 16 [(4, 12)] then s.answer r (.of 4)
  else if s.fetched'.any fun x => x.mbx == r.mbx then s.answer r (.of 7)
  else
    match helloVersion r with
    | none => s.answer r (.of 3)
    | some v =>
      let s := s.openSession r.mbx v r.seq
      s.answerIn r { body := s.helloBody r.mbx v } v

/-- HELLO, 0x0101. -/
def execHello (s : State) : Res :=
  match s.serving? 0x0101 with
  | some r => .next (s.serveHello r)
  | none => .next s

/-- Byte 3 of the *Status response*. -/
def State.statusFlags (s : State) : Nat :=
  bit (decide (s.fld PWR_STATUS_narrow ≠ 0)) + 2 * s.fld PWR_STATUS_ramp + 4 * s.fld PWR_STATUS_brake
    + 8 * s.fld RING_STATUS_epoch_valid + 16 * s.fld MBX_CAL_STATUS_valid

/-- The *Status response*. -/
def State.statusBody (s : State) (m : Nat) : List Byte :=
  let t := s.telem.1
  leBytes 1 s.pwrState ++ leBytes 1 s.token ++ leBytes 1 s.tier ++ leBytes 1 s.statusFlags ++ leBytes 1 (s.fld MBX_LOAD_STATUS_level)
    ++ leBytes 1 (if m < 16 then s.standState m else 0xFF) ++ leBytes 2 0 ++ leBytes 8 (s.rd RING_TIME).toNat
    ++ leBytes 2 t.power ++ leBytes 2 (ofSigned 16 (t.temps.foldl max (t.temps.headD 0))) ++ leBytes 4 t.ring ++ leBytes 8 0

/-- STATUS, 0x0102. -/
def execStatus (s : State) : Res :=
  .next (s.serve 0x0102 0 [] false false fun r s => (some { body := s.statusBody r.mbx, stale := s.telem.2 }, s.drawn))

/-- CLOSE, 0x0103: its response is the session's last. -/
def execClose (s : State) : Res :=
  match s.serving? 0x0103 with
  | none => .next s
  | some r =>
    let t := s.takeReq r
    .next (if r.clean 0 [] then (t.closeSession r.mbx).answerIn r {} (t.rspVersion r) else t.answer r (.of 4))

/-! ### The identity summary -/

/-- *Identity summary*: the part, the serial number, the substrate lot, and SMP 3.2. -/
def State.identityBody (s : State) : List Byte :=
  leBytes 2 0x4608 ++ [0x42#8, 0xB1#8] ++ leBytes 8 (s.rd (ID_SERIAL 0)).toNat ++ leBytes 8 (s.rd (ID_SERIAL 1)).toNat
    ++ leBytes 8 (s.rd (ID_SERIAL 2)).toNat ++ [3#8, 2#8] ++ leBytes 2 0

/-! ### The hardware responder (R350, R364) -/

/-- Whether the hardware responder answers on a mailbox: every one in Safe Hold, I3C in VAUX-only. -/
def State.responds (s : State) (m : Nat) : Bool :=
  (s.powered && s.safeHold && s.mbxServed m) || (m == 17 && !s.boot.vin && s.boot.vaux)

/-- What the hardware responder answers. -/
def State.responderReply (s : State) (r : Req) : Reply :=
  if r.opcode = 0x0101 then
    match helloVersion r with
    | none => .of 3
    | some v => { body := s.helloBody r.mbx v }
  else if r.opcode = 0x0102 then
    { body := leBytes 1 (if s.boot.vin then 5 else 4) ++ leBytes 7 0 ++ leBytes 8 (s.rd RING_TIME).toNat ++ List.replicate 16 0#8 }
  else if r.opcode = 0x0901 then { body := s.identityBody }
  else .of 7

/-- The hardware responder's version of a reply: HELLO's choice or the client's highest; otherwise the request's (R341; log entry 53). -/
def responderVersion (r : Req) : Nat × Nat :=
  if r.opcode = 0x0101 then (helloVersion r).getD (r.arg 0 1, r.arg 1 1) else (r.major, r.minor)

/-- The hardware responder answers a request in slot 2 * (i mod n) + 1 of its pair. -/
def State.respond (s : State) (r : Req) : State :=
  let ver := responderVersion r
  let x := (s.responderReply r).fit (s.rspLimit r) ver
  let slot := s.stampSlot 3 (x.slot r ver)
  let s := if bitOf r.flags 0 then s.store r.buffer x.body else s
  ((s.store (rspSlotAt r.mbx r.count 1) slot).setFlag MBX_EVENT_hw_responder true).rspSignal r.mbx slot

/-- HW_RESPONDER_ANSWER (R350): first the requests Heartwood had fetched and not answered (log entry 53), then those posted. -/
def execHwResponderAnswer (m : Nat) (s : State) : Res :=
  s.when (decide (m < 18) && s.responds m)
    (match s.fetched'.find? fun r => r.mbx == m with
     | some r => ((s.takeReq r).respond r).showIntake
     | none =>
       if s.fld (MBX_REQ_STATE_head m) = s.fld (MBX_REQ_STATE_tail_seen m) then s
       else
         let r := s.headRequest m
         (s.setFld (MBX_REQ_STATE_head m) (s.fld (MBX_REQ_STATE_head m) + 1)).respond r)

/-! ### Load (R347) -/

/-- The load level at a ring boundary. -/
def State.loadBoundary (s : State) : State :=
  let a := max (s.oldestAge 1) (s.oldestAge 2)
  let t := fun (l : Nat) => s.fld (if l = 1 then MBX_LOAD_CFG_shed_t1 else if l = 2 then MBX_LOAD_CFG_shed_t2 else MBX_LOAD_CFG_shed_t3)
  let old := s.fld MBX_LOAD_STATUS_level
  let top := if t 3 ≤ a then 3 else if t 2 ≤ a then 2 else if t 1 ≤ a then 1 else 0
  let new := if old < top then top else if old ≠ 0 ∧ 2 * a < t old then old - 1 else old
  if !s.hwActs then s.showIntake
  else if new = old then s.showIntake
  else
    let s := (s.setFld MBX_LOAD_STATUS_level new).forEach (List.range 18) fun m s => s.setFld (MBX_FN_STATUS_load_level m) new
    let s := if old < 2 ∧ 2 ≤ new then s.setFlag MBX_EVENT_shed_p2 true else s
    let s := if old < 3 ∧ new = 3 then s.setFlag MBX_EVENT_shed_p1 true else s
    let s := s.logOther 3 0xFF
    let shed := s.hw.intake.filter fun r => s.sheds r.cls
    (s.forEach shed fun r s => (s.onHw fun h => { h with intake := h.intake.erase r }).answerShed r).showIntake

/-! ### What ends with a stand or its function (R340, R343) -/

/-- The mailbox window's registers, slots and buffers return to 0. -/
def State.clearWindow (s : State) (m : Nat) : State :=
  let regs := (s.regs.clear (MBX_FN_STATUS m) (MBX_FN_STATUS (m + 1)))
  let serving := fun (t : State) => ((t.setFld (MBX_FN_STATUS_a_serving m) (s.fld (MBX_FN_STATUS_a_serving m))).setFld
    (MBX_FN_STATUS_b_serving m) (s.fld (MBX_FN_STATUS_b_serving m))).setFld (MBX_FN_STATUS_hw_responder m)
      (s.fld (MBX_FN_STATUS_hw_responder m))
  let s' := serving { s with regs }
  let s' := (s'.setFld (MBX_FN_STATUS_credit m) (s.fld (MBX_FN_STATUS_credit m))).setFld (MBX_FN_STATUS_load_level m)
    (s.fld (MBX_FN_STATUS_load_level m))
  ((s'.zeroize (mbxAt m) 65536).onHw fun h => { h with
    evtSeq := h.evtSeq.set 0 m 0, evtLost := h.evtLost.set false m false, records := h.records.filter fun r => r.mbx != m }).showIntake

/-- The stand becomes FREE: requests in intake are answered REFUSED_STATE, then the window reads 0. -/
def State.endMailbox (s : State) (st : Nat) : State :=
  let mine := s.fetched'.filter fun r => r.mbx == st
  let s := s.forEach mine fun r s => (s.takeReq r).answer r (.of 7)
  s.clearWindow st

end Sys2Proof.Machine
end

