-- ==== Sys2Proof/Machine/Stands.lean ====
section
/-! DEFINITION. Stands (11_stands.md): the writes that assign twigs, memory slots, flags and keys, stand reset, and the steps of creation
and teardown that the guard band and slot 0 take. -/

namespace Sys2Proof.Machine

/-! ### States (R310) -/

/-- Put a stand in a state: STAND_CFG.state, STAND_STATUS, and the new choice R406 asks for. -/
def State.setStandState (s : State) (st x : Nat) : State :=
  ((s.setFld (STAND_CFG_state st) x).wr STAND_STATUS (putBits (s.rd STAND_STATUS) (4 * st + 3) (4 * st) x)).askRechoose

/-- The bit of a stand in a field of STAND_EVENT. -/
def State.standEvent (s : State) (f : Fld) (st : Nat) : State := s.setFld f (s.fld f ||| (1 <<< st))

/-- Whether a stand holds a valid region: one in force (R207). -/
def State.holdsRegion (s : State) (st : Nat) : Bool := (List.range 4).any fun r => s.liveFlag (HBM_REGION_valid st r)

/-- The knot granules a stand holds in force, rising. -/
def State.granulesOf (s : State) (st : Nat) : List Nat :=
  (List.range 256).filter fun g => s.liveFlag (KNOT_GRANULE_OWNER_valid g) && s.liveFld (KNOT_GRANULE_OWNER_stand g) == st

/-- The channels bound to a stand, as written. -/
def State.channelsOf (s : State) (st : Nat) : List Nat :=
  (List.range 64).filter fun c => s.flag (COLL_CHAN_CFG_valid c) && s.fld (COLL_CHAN_CFG_stand c) == st

/-! ### Assignment writes (R306-R312) -/

/-- A write to STAND_TWIG_OWNER (R308): ignored with valid over another stand's committed entry, or of a degraded twig. -/
def State.writeTwigOwner (s : State) (t : Nat) (v : Word) : State :=
  let other := s.liveFlag (STAND_TWIG_OWNER_valid t) && s.liveFld (STAND_TWIG_OWNER_stand t) != bitsOf v.toNat 3 0
  if v.getLsbD 63 && (other || s.flag (TWIG_STATUS_degraded t)) then s.setFlag STAND_EVENT_assign_rejected true
  else s.wr (STAND_TWIG_OWNER t) (v &&& 0x800000000000000F#64)

/-- STAND_TWIG_OWNER_WRITE (R308). -/
def execStandTwigOwnerWrite (t : Nat) (v : Word) (s : State) : Res := s.when (decide (t < 144)) (s.writeTwigOwner t v)

/-- A write to STAND_MEM_SLOTS: ignored when it overlaps another stand's mask. -/
def State.writeMemSlots (s : State) (st : Nat) (v : Word) : State :=
  let m := bitsOf v.toNat 61 0
  if (List.range 16).any fun x => x != st && s.fld (STAND_MEM_SLOTS_slots x) &&& m != 0 then s.setFlag STAND_EVENT_assign_rejected true
  else s.setFld (STAND_MEM_SLOTS_slots st) m

/-- STAND_MEM_SLOTS_WRITE. -/
def execStandMemSlotsWrite (st : Nat) (v : Word) (s : State) : Res := s.when (decide (st < 16)) (s.writeMemSlots st v)

/-- A write to STAND_CFG: *c_own* and the permission flags. -/
def State.writeStandCfg (s : State) (st : Nat) (v : Word) : State :=
  s.wr (STAND_CFG st) ((s.rd (STAND_CFG st) &&& ~~~0xFFFF0000000F#64) ||| (v &&& 0xFFFF0000000F#64))

/-- A write to STAND_KEY with generate (R312): a handle is taken; the key loads in step 5 of the next guard band. -/
def State.generateKey (s : State) (st : Nat) : State :=
  if s.standState st ≤ 1 ∧ !s.holdsRegion st then
    s.onKeys fun k => { k with
      pending := k.pending.filter (fun e => e.1 != st) ++ [(st, k.handles)], handles := (k.handles + 1) % 2 ^ 32 }
  else s.setFlag STAND_EVENT_key_rejected true

/-- STAND_KEY_GENERATE (R312). -/
def execStandKeyGenerate (st : Nat) (v : Word) (s : State) : Res := s.when (decide (st < 16) && v.getLsbD 63) (s.generateKey st)

/-- Key loads of step 5 of a guard band (R199, R312), while a security block is clocked. -/
def State.loadKeys (s : State) : State :=
  if !s.secblkOn then s
  else (s.forEach s.keys.pending fun e s =>
    ((s.newKey e.1).setFlag (STAND_KEY_loaded e.1) true).setFld (STAND_KEY_handle e.1) e.2).onKeys fun k => { k with pending := [] }

/-- Key slot *s* is cleared (R316). -/
def State.clearKey (s : State) (st : Nat) : State :=
  ((s.onKeys fun k => { k with slots := k.slots.set 0 st 0, pending := k.pending.filter fun e => e.1 != st }).setFld HBM_KEY_STATUS_loaded
    (s.fld HBM_KEY_STATUS_loaded &&& (2 ^ 17 - 1 - (1 <<< st)))).wr (STAND_KEY st) 0#64

/-! ### Stand reset (R314, R315) -/

/-- The slot a reset asked for now takes effect in: the next, or slot 0 of the next ring if that is 63. -/
def State.resetDue (s : State) : Nat := if s.clk.slot ≤ 61 then s.rings * 64 + s.clk.slot + 1 else (s.rings + 1) * 64

/-- Ask for a stand reset with a cause: of an ACTIVE stand; a request during a reset joins it. -/
def State.askReset (s : State) (st cause : Nat) : State :=
  if (s.stand st).resetCause.isSome ∨ s.standState st ≠ 2 then s
  else s.onStand st fun x => { x with resetCause := some cause, resetSlot := s.resetDue }

/-- STAND_CTRL_RESET (R314): a write of 1 to STAND_CTRL.reset. -/
def execStandCtrlReset (st : Nat) (v : Word) (s : State) : Res := s.when (decide (st < 16) && v.getLsbD 0) (s.askReset st 3)

/-- The leaves of a stand take a leaf reset (R84). -/
def State.resetStandLeaves (s : State) (st : Nat) : State :=
  s.forEach (s.twigsOf st) fun t s => s.forEach (List.range 32) fun i s =>
    match s.physOf t i with
    | some p => s.resetLeaf t p
    | none => s

/-- The NIs at the entry of a stand reset: posted triggers are discarded, packets not yet begun of running operations are not sent, and open
receive operations close (R241, R279). -/
def State.resetStandNi (s : State) (st : Nat) : State :=
  (s.onNi fun n => { n with
    trigs := n.trigs.filter fun t => !(t.stand == st && (t.state == .posted || t.state == .ready)),
    txq := n.txq.filter fun p => !(p.stand == st && !p.mgmt && (!p.sent || p.lost) && p.index != noTrigger),
    rxOps := n.rxOps.filter fun o => o.dstStand != st }).showPosted st

/-- The entry of a stand reset: fetch and admission stop; commands not yet admitted are discarded, admitted ones will end ABORTED. -/
def State.enterReset (s : State) (st : Nat) : State :=
  let s := (if (s.stand st).teardown = 0 then s.setStandState st 3 else s).onStand st fun x => { x with resetEntered := true }
  let s := (s.resetStandLeaves st).resetStandNi st
  { s with
    cmds := (s.cmds.filter fun c => !(c.stand == st && c.started.isNone)).map fun c => if c.stand = st then { c with status := 6, ended := max c.ended (s.rd RING_TIME).toNat } else c,
    bells := s.bells.filter fun b => b.1 / 5 != st }

/-- STAND_RESET_ENTRY (R314): at the slot the request takes effect in. -/
def execStandResetEntry (st : Nat) (s : State) : Res :=
  let x := s.stand st
  s.when (decide (st < 16) && x.resetCause.isSome && !x.resetEntered && decide (x.resetSlot ≤ s.rings * 64 + s.clk.slot)) (s.enterReset st)

/-- The entries of resets due by slot `k` (R314), made before the slot or the guard band acts. -/
def State.dueResets (s : State) (k : Nat) : State :=
  s.forEach (List.range 16) fun st s =>
    let x := s.stand st
    if x.resetCause.isSome && !x.resetEntered && decide (x.resetSlot ≤ s.rings * 64 + k) then s.enterReset st else s

/-- The registers of a queue page return to their reset values, but for the shares (R161). -/
def State.clearPage (s : State) (st : Nat) : State :=
  let a := 0x1000000 + st * 0x1000
  let gone := fun (m : SMap Nat) => m.clear (5 * st) (5 * st + 5)
  { s with
    regs := (s.regs.clear a (a + 0x100)).clear (a + 0x200) (a + 0x1000), fetched := gone s.fetched, fence := gone s.fence,
    obs := { s.obs with hang := gone s.obs.hang, moved := s.obs.moved.clear (5 * st) (5 * st + 5) } }

/-- The ABORTED records of a stand reset: admitted commands and running operations, where their rings still lie in the stand's regions
(R161, R279). -/
def State.abortAll (s : State) (st : Nat) : State :=
  let s := s.forEach (s.cmds.filter fun c => c.stand == st) fun c s => s.completeCmd { c with status := 6 }
  s.forEach (s.ni.trigs.filter fun t => t.stand == st) fun t s => s.completeTrig { t with status := 6 }

/-- What the first guard band at or after a reset's entry does (*Stand reset timeline*). -/
def State.bandReset (s : State) (st : Nat) : State :=
  let s := (s.abortAll st).clearPage st
  let s := s.forEach (s.twigsOf st) fun t s => s.zeroizeTwig t
  let s := s.forEach (s.granulesOf st) fun g s => s.resetGranule g
  let s := s.forEach (s.channelsOf st) fun c s => s.dropChunks c
  s.onStand st fun x => { x with bandRing := some s.rings }

/-- The resets whose guard band this is. -/
def State.bandResets (s : State) : State :=
  s.forEach (List.range 16) fun st s =>
    if (s.stand st).resetEntered && (s.stand st).bandRing.isNone then s.bandReset st else s

/-- A reset has ended: the stand is ACTIVE again, or its teardown goes on to the drain. -/
def State.endReset (s : State) (st : Nat) : State :=
  let cause := (s.stand st).resetCause.getD 4
  let td := decide ((s.stand st).teardown ≠ 0)
  let s := s.onStand st fun x => { x with
    resetCause := none, resetEntered := false, bandRing := none, teardown := if td then 2 else 0 }
  let s := if td then s else s.setStandState st 2
  if cause = 4 then s
  else (s.standEvent STAND_EVENT_reset_done st).eventBoth 0x0002 1 st (evData [(8, 1, st), (9, 1, cause)]) (evData [(8, 1, st), (9, 1, cause)])

/-- Whether a guard band noted in a stand's record lies in an earlier ring, and this is slot 0. -/
def State.ringAfterBand (s : State) (band : Option Nat) : Bool :=
  match band with
  | some r => decide (r < s.rings) && s.clk.slot == 0
  | none => false

/-- STAND_RESET_DONE (*Stand reset timeline*): at slot 0 of the ring after that guard band. -/
def execStandResetDone (st : Nat) (s : State) : Res :=
  s.when (decide (st < 16) && (s.stand st).resetEntered && s.ringAfterBand (s.stand st).bandRing) (s.endReset st)

/-! ### Creation (R307, R311) -/

/-- Every region and channel written for a stand is in force. -/
def State.standReady (s : State) (st : Nat) : Bool :=
  ((List.range 4).all fun r => !s.flag (HBM_REGION_valid st r) || (s.liveFlag (HBM_REGION_valid st r) && !s.flag (HBM_REGION_pending st r)))
    && ((s.channelsOf st).all fun c => s.chanValid c)
    && !(s.twigsOf st).isEmpty && !(s.granulesOf st).isEmpty && ((List.range 4).any fun r => s.liveFlag (HBM_REGION_valid st r))

/-- A stand becomes ACTIVE (R311). -/
def State.activate (s : State) (st : Nat) : State :=
  let s := ((s.setStandState st 2).onStand st fun x => { x with commitRing := none }).standEvent STAND_EVENT_active st
  s.eventBoth 0x0001 0 st (evData [(8, 1, st)]) (evData [(8, 1, st)])

/-- STAND_ACTIVATE (R311): at slot 0 of the ring after the guard band in which the last region and channel became valid. -/
def execStandActivate (st : Nat) (s : State) : Res :=
  s.when (decide (st < 16) && s.standState st == 1 && s.ringAfterBand (s.stand st).commitRing && s.standReady st) (s.activate st)

/-! ### Teardown (R316, R317) -/

/-- Return a stand's limb key indices to unused (R316 step 4). -/
def State.clearLimbKeys (s : State) (st : Nat) : State :=
  s.forEach (List.range 18) fun l s =>
    s.forEach (List.range 16) fun i s =>
      if bitOf (s.fld (LIMB_KEY_VALID_valid l)) i && bitsOf (s.rd (LIMB_KEY_MAP l)).toNat (4 * i + 3) (4 * i) == st then
        let s := (s.wr (LIMB_KEY_MAP l) (putBits (s.rd (LIMB_KEY_MAP l)) (4 * i + 3) (4 * i) 0)).setFld (LIMB_KEY_VALID_valid l)
          (s.fld (LIMB_KEY_VALID_valid l) &&& (2 ^ 16 - 1 - (1 <<< i)))
        s.onLimb l fun x => { x with keys := x.keys.set {} i {}, pendKeys := x.pendKeys.filter fun e => e.1 != i }
      else s

/-- Return a stand's rank grant, with its entries, and its fabric slots to their reset values. -/
def State.clearFabric (s : State) (st : Nat) : State :=
  let base := s.fld (NI_RANK_GRANT_base st) * 1024
  let n := if s.flag (NI_RANK_GRANT_valid st) then s.fld (NI_RANK_GRANT_count st) * 1024 else 0
  let s := { s with regs := s.regs.clear (NI_RANK_ENTRY base) (NI_RANK_ENTRY (base + n)) }
  ((s.wr (NI_RANK_GRANT st) 0#64).setFld (NI_FSLOT_MASK_slots st) 0).clearLimbKeys st

/-- Return a stand's channels, their fold slots and its trigger share to their reset values. -/
def State.clearChannels (s : State) (st : Nat) : State :=
  let cs := s.channelsOf st
  let s := s.forEach [0, 1] fun e s => s.forEach (List.range 62) fun k s =>
    let a := COLL_SCHED e (k / 8)
    let b := byteOf (s.rd a) (k % 8)
    if 128 ≤ b ∧ cs.contains (b % 64) then s.wr a (putByte (s.rd a) (k % 8) 0) else s
  (s.forEach cs fun c s => s.writeChanCfg c (regReset (COLL_CHAN_CFG c))).wr (COLL_STAND_QUOTA st) (regReset (COLL_STAND_QUOTA st))

/-- Return a stand's twigs, regions and knots to unassigned. -/
def State.clearHoldings (s : State) (st : Nat) : State :=
  let s := s.forEach (List.range 144) fun t s =>
    if s.flag (STAND_TWIG_OWNER_valid t) && s.fld (STAND_TWIG_OWNER_stand t) == st then s.wr (STAND_TWIG_OWNER t) 0#64 else s
  let s := s.forEach (List.range 256) fun g s =>
    if s.flag (KNOT_GRANULE_OWNER_valid g) && s.fld (KNOT_GRANULE_OWNER_stand g) == st then s.wr (KNOT_GRANULE_OWNER g) 0#64 else s
  let s := s.forEach (List.range 4) fun r s => s.writeRegion st r 0#64
  s.forEach (List.range 4) fun b s => s.wr (TWIG_BBUF_REGION b st) 0#64

/-- Step 4 of a teardown: every assignment, the flags, consent, the seed and *c_own*. -/
def State.clearAssignment (s : State) (st : Nat) : State :=
  let s := (((s.clearHoldings st).clearFabric st).clearChannels st).wr (STAND_MEM_SLOTS st) 0#64
  let s := (s.wr (STAND_SEED st) 0#64).writeStandCfg st 0xFFFF00000000#64
  let s := s.setFld TRC_STAND_EN_stand (s.fld TRC_STAND_EN_stand &&& (65535 - (1 <<< st)))
  (s.setFlag (STAND_CFG_consent st) false).onStand st fun x => { x with teardown := 4, consentReq := none }

/-- STAND_FREED (R316 step 7, R343): at slot 0 of the ring after the commit. -/
def execStandFreed (st : Nat) (s : State) : Res :=
  s.when (decide (st < 16) && (s.stand st).teardown == 5 && s.ringAfterBand (s.stand st).commitRing)
    (let s := ((s.setStandState st 0).onStand st fun _ => {}).standEvent STAND_EVENT_freed st
     (s.eventOwner 0x0003 0 st (evData [(8, 1, st)])).endMailbox st)

/-! ### What a guard band commits (R24, R308, R311, R316) -/

/-- Commit a twig's owner (R308): a twig that joins or leaves a stand is zeroized, with its counters (R95, R462), and is parked or unparked under
the masks and park_free (R404). -/
def State.commitTwig (s : State) (t : Nat) : State :=
  let a := STAND_TWIG_OWNER t
  if s.rd a = s.liveRd a then s
  else
    let changed := decide (s.twigStand t ≠ (if s.flag (STAND_TWIG_OWNER_valid t) then some (s.fld (STAND_TWIG_OWNER_stand t)) else none))
    let s := s.commitReg a
    let s := (s.setFlag (TWIG_STATUS_assigned t) (s.liveFlag (STAND_TWIG_OWNER_valid t))).setFld (TWIG_STATUS_stand t)
      (s.liveFld (STAND_TWIG_OWNER_stand t))
    if changed then ((s.zeroizeTwig t).clearTwigCounters t).pwrDirty else s

/-- Commit a stand's flags, *c_own* and consent (R309): a changed flag or consent asks for a new choice (R406). -/
def State.commitCfg (s : State) (st : Nat) : State :=
  let s := match (s.stand st).consentReq with
    | some b => ((s.setFlag (STAND_CFG_consent st) b).onStand st fun x => { x with consentReq := none }).askRechoose
    | none => s
  let a := STAND_CFG st
  (if (s.rd a &&& 0x8F#64) = (s.liveRd a &&& 0x8F#64) then s else s.askRechoose).commitReg a

/-- The step of a stand's creation or teardown that commits now. -/
def State.commitStand (s : State) (st : Nat) : State :=
  let x := s.stand st
  if x.creating then (s.setStandState st 1).onStand st fun x => { x with creating := false, commitRing := some s.rings }
  else if x.teardown = 4 then (s.clearKey st).onStand st fun x => { x with teardown := 5, commitRing := some s.rings }
  else s

/-! ### Rates (R189) -/

/-- The stand's exposed leaves: on the package, most on one bough, most on one twig, and whether its traffic leaves one bough and group,
by the regions as assigned: filled or not (R189). -/
def State.standShape (s : State) (st : Nat) : Nat × Nat × Nat × Bool :=
  let ts := s.twigsOf st
  let perBough := (List.range 4).map fun b => 32 * ts.countP fun t => t / 36 == b
  let boughs := (List.range 4).filter fun b => ts.any fun t => t / 36 == b
  let outside := (List.range 4).any fun r => s.flag (HBM_REGION_valid st r) && boughs.any fun b =>
    s.fld (HBM_REGION_base st r) / 144 != b || s.fld (HBM_REGION_limit st r) / 144 != b
  (32 * ts.length, perBough.foldl max 0, if ts = [] then 0 else 32, decide (1 < boughs.length) || outside)

/-- The rates of a stand (*Rate derivation*): h_hbm, h_bbuf, h_leaf. A stand without leaves has none. -/
def State.rates (s : State) (st : Nat) : Nat × Nat × Nat :=
  let (n, nb, w, multi) := s.standShape st
  if n = 0 then (0, 0, 0)
  else
    let p := Config.slotRef s.period
    let m := Config.leafMult s.tier
    let own := max 1 (s.liveFld (STAND_CFG_c_own st))
    let cap := min 65535 (min own (if multi then 2 * m * p / n else 65535))
    let link := 2 * m * p / w
    (min cap (min (384 * p / n) link), min cap (min (32 * m * p / nb) link), min cap link)

/-- CQ_SHARE_MASK and CQ_SHARE_RATE show the mask and the rates in force. -/
def State.showShares (s : State) : State :=
  s.forEach (List.range 16) fun st s =>
    let (h, b, l) := s.rates st
    (((s.setFld (CQ_SHARE_MASK_mem_slots st) (s.liveFld (STAND_MEM_SLOTS_slots st))).setFld (CQ_SHARE_RATE_h_hbm st) h).setFld
      (CQ_SHARE_RATE_h_bbuf st) b).setFld (CQ_SHARE_RATE_h_leaf st) l

/-! ### Functions of the host that reset a stand (R314, R343) -/

/-- A function-level reset of a stand's VF: a stand reset, and the function's mailbox window and session are cleared. -/
def State.functionReset (s : State) (st : Nat) : State := (s.askReset st 2).clearWindow st

end Sys2Proof.Machine
end

