-- ==== Sys2Proof/Machine/Regs.lean ====
section
/-! DEFINITION. Register reads and writes by address (R11 to R15): the windows of the owner and of a VF, the checks each register makes
on a write, and the BAR0 windows of PF0 and the VFs (R184, R190). -/

namespace Sys2Proof.Machine

/-! ### Addresses -/

/-- The sample ring of stand `r`, 16 the owner's (R468): 64 records of 32 bytes. -/
def sampleAt (r : Nat) : Nat := 2 ^ 50 + 2 ^ 21 + r * 2048

/-- The mailbox window and offset an address names: PF0's in the MBX block, and those of the VFs above the queue pages (R303, R326). -/
def mbxWindow (a : Nat) : Option (Nat × Nat) :=
  if 0xA80000 ≤ a ∧ a < 0xA90000 then some (16, a - 0xA80000)
  else if 0x4000000 ≤ a ∧ a < 0x4100000 then some ((a - 0x4000000) / 0x10000, (a - 0x4000000) % 0x10000)
  else none

/-- Whether an offset of a mailbox window holds slots or buffers (R326). -/
def isSlot (off : Nat) : Bool :=
  (decide (0x1000 ≤ off) && decide (off < 0x1800)) || (decide (0x2000 ≤ off) && decide (off < 0x3000))
    || (decide (0x3000 ≤ off) && decide (off < 0x3800)) || decide (0x8000 ≤ off)

/-- Whether the host may write an offset: request slots and indirect buffers (R327). -/
def isHostSlot (off : Nat) : Bool := (decide (0x1000 ≤ off) && decide (off < 0x1800)) || decide (0x8000 ≤ off)

/-- Whether an address lies in FLASH_REC_BUF. -/
def inRecBuf (a : Nat) : Bool := decide (0xF20000 ≤ a) && decide (a < 0xF30010)

/-- Whether an address lies in the owner's read-only windows of the queue pages (R305). -/
def inPageWindow (a : Nat) : Bool := decide (0x880000 ≤ a) && decide (a < 0x890000)

/-! ### Reads -/

/-- The register at an address that is a multiple of 8. -/
def State.regAt (s : State) (a : Nat) : Word :=
  match regRow a with
  | none => 0#64
  | some r =>
    if r.base = PERF_STAND_LIMB 0 0 0 ∧ (a - r.base) % 0x40 = 0x20 then
      BitVec.ofNat 64 (s.ni.txq.countP fun p => !p.mgmt && !p.sched && !p.sent && p.limb == (a - r.base) % 0x480 / 0x40)
    else if r.base = NI_CONG 0 then s.congWord ((a - r.base) / 8)
    else s.rd a

/-- Eight bytes of the machine's memory as a word. -/
def State.wordAt (s : State) (a : Nat) : Word := BitVec.ofNat 64 (ofLe (s.bytes a 8))

/-- The 64 bits the owner, or a VF in its own windows, reads at an address that is a multiple of 8 (R11, R304, R305, R459). -/
def State.readReg (s : State) (a : Nat) : Word :=
  match mbxWindow a with
  | some (m, off) =>
    if !s.mbxServed m then 0#64
    else if off < 0x38 then s.regAt (MBX_FN_STATUS m + off)
    else if isSlot off then s.wordAt (mbxAt m + off)
    else 0#64
  | none =>
    if inPageWindow a then s.regAt (0x1000000 + (a - 0x880000))
    else if inRecBuf a then (if s.flag FLASH_STATUS_recovery then s.wordAt (recBufAt + (a - 0xF20000)) else 0#64)
    else if 0xC01000 ≤ a ∧ a < 0xC01800 then s.wordAt (sampleAt 16 + (a - 0xC01000))
    else s.regAt a

/-- A read of `n` bytes: an aligned 64-bit or 32-bit access; any other returns 0 (R11). -/
def State.readAccess (s : State) (a n : Nat) : List Byte :=
  if (n = 8 ∧ a % 8 = 0) ∨ (n = 4 ∧ a % 4 = 0) then
    (((leBytes 8 (s.readReg (a - a % 8)).toNat).drop (a % 8)).take n)
  else List.replicate n 0#8

/-! ### What a VF reads (R303, R304, R459) -/

/-- The register or sample byte at an offset of a stand's PERF window (*PERF window*): an address of the owner's map where there is one. -/
def State.perfWord (s : State) (st off : Nat) : Word :=
  if off < 0x80 then s.regAt (PERF_STAND_CTR st 0 + off)
  else if off = 0x80 then s.regAt (PERFW_SAMPLE_CTRL st)
  else if 0x100 ≤ off ∧ off < 0x340 then BitVec.ofNat 64 (s.obs.standWin.get 0 (72 * st + (off - 0x100) / 8))
  else if 0x1000 ≤ off ∧ off < 0x1480 then s.regAt (PERF_STAND_LIMB st 0 0 + (off - 0x1000))
  else if 0x2000 ≤ off ∧ off < 0x2800 then s.wordAt (sampleAt st + (off - 0x2000))
  else 0#64

/-- The 64 bits a stand's VF reads at an offset, a multiple of 8, of its queue page in BAR2: 0 while the stand is not ACTIVE. -/
def State.vfBar2 (s : State) (st off : Nat) : Word :=
  if s.standState st = 2 ∧ off < 0x1000 then s.readReg (0x1000000 + st * 0x1000 + off) else 0#64

/-- The 64 bits a stand's VF reads at an offset of BAR4 from 0x4_0000 on: its mailbox window in every state but FREE, its PERF window while
read_perf is 1, and 0 beyond. The knot window below is read by knot, with its own effects (`State.knotRead`). -/
def State.vfBar4 (s : State) (st off : Nat) : Word :=
  if 0x40000 ≤ off ∧ off < 0x50000 then s.readReg (0x4000000 + st * 0x10000 + (off - 0x40000))
  else if 0x50000 ≤ off ∧ off < 0x60000 ∧ s.liveFlag (STAND_CFG_read_perf st) then s.perfWord st (off - 0x50000)
  else 0#64

/-! ### Writes of registers with checks of their own -/

/-- A write under the access codes of R12: RW and RWL bits take the value, W1C bits written 1 clear. -/
def RegRow.apply (r : RegRow) (old v : Word) : Word :=
  let set := BitVec.ofNat 64 (r.rw ||| r.rwl)
  ((old &&& ~~~set) ||| (v &&& set)) &&& ~~~(v &&& BitVec.ofNat 64 r.w1c)

/-- A write with no check of its own. -/
def State.plainWrite (s : State) (a : Nat) (v : Word) : State :=
  match regRow a with
  | some r => s.wr a (r.apply (s.rd a) v)
  | none => s

/-- A write to CLK_MON_CFG or CLK_IOSC_TRIM, whose fields clk_lock governs (R15). -/
def State.writeLocked (s : State) (a : Nat) (v : Word) : State :=
  if s.flag CLK_MON_CFG_clk_lock then s
  else if a = CLK_MON_CFG then (s.plainWrite a v).setFlag CLK_STATUS_mon_running (v.getLsbD 0)
  else s.plainWrite a v

/-- A write to CLK_SSC_CFG: a depth of 11-15 leaves the depth. -/
def State.writeSsc (s : State) (v : Word) : State :=
  s.plainWrite CLK_SSC_CFG (if 10 < bitsOf v.toNat 3 0 then putBits v 3 0 (s.fld CLK_SSC_CFG_ssc_depth) else v)

/-- A write to RING_CFG: the reserved period code 0b11 leaves the period (R42, R43). -/
def State.writeRingCfg (s : State) (v : Word) : State :=
  s.plainWrite RING_CFG (if bitsOf v.toNat 1 0 = 3 then putBits v 1 0 (s.fld RING_CFG_period_pending) else v)

/-- A write to a queue's CFG register at `a`, its STATE register's cfg_err at `err`: base holds while enable is 1, and enabling with *n*
outside 4-16 leaves enable 0. -/
def State.writeQueueCfg (s : State) (a : Nat) (err : Fld) (v : Word) : State :=
  let old := s.rd a
  let v := if old.getLsbD 63 then putBits v 47 12 (bitsOf old.toNat 47 12) else v
  let n := bitsOf v.toNat 4 0
  if v.getLsbD 63 ∧ (n < 4 ∨ 16 < n) then (s.plainWrite a (putBits v 63 63 0)).setFlag err true
  else s.plainWrite a v

/-- A write to a queue's completion base: ignored while the queue is enabled. -/
def State.writeCplBase (s : State) (a cfg : Nat) (v : Word) : State := if (s.rd cfg).getLsbD 63 then s else s.plainWrite a v

/-- The credits of a MBX_CREDIT word (R329). -/
def creditOf (v : Word) (st : Nat) : Nat := bitsOf v.toNat (4 * st + 2) (4 * st) + 1

/-- A write to MBX_CREDIT: a sum above 87 is ignored. -/
def State.writeCredit (s : State) (v : Word) : State :=
  if 87 < ((List.range 16).map (creditOf v)).sum then s.setFlag MBX_EVENT_cfg_rejected true
  else (s.plainWrite MBX_CREDIT v).forEach (List.range 16) fun st s => s.setFld (MBX_FN_STATUS_credit st) (creditOf v st)

/-- A write to MBX_LOAD_CFG: thresholds without 0 < t1 < t2 < t3 are ignored. -/
def State.writeLoadCfg (s : State) (v : Word) : State :=
  if 0 < bitsOf v.toNat 7 0 ∧ bitsOf v.toNat 7 0 < bitsOf v.toNat 15 8 ∧ bitsOf v.toNat 15 8 < bitsOf v.toNat 23 16 then
    s.plainWrite MBX_LOAD_CFG v
  else s.setFlag MBX_EVENT_cfg_rejected true

/-- A write to PWR_TRIP_REC: clearing valid clears the record. -/
def State.writeTripRec (s : State) (v : Word) : State := if v.getLsbD 63 then s.wr PWR_TRIP_REC 0#64 else s

/-- A write to PWR_WAKE: clearing the last reason clears pending, collided and pme_sent. -/
def State.writeWake (s : State) (v : Word) : State :=
  let had := s.fld PWR_WAKE_reason
  let s := s.plainWrite PWR_WAKE v
  if had ≠ 0 ∧ s.fld PWR_WAKE_reason = 0 then
    ((s.setFlag PWR_WAKE_pending false).setFlag PWR_WAKE_collided false).setFlag PWR_WAKE_pme_sent false
  else s

/-- A write to TRC_FROST_CTRL (R469, R471). -/
def State.writeFrostCtrl (s : State) (v : Word) : State :=
  let s := if v.getLsbD 0 then s.frostTrigger 2 else s
  if v.getLsbD 1 then s.frostRelease else s

/-- A write to FLASH_REC_CTRL through the register path; the outcomes of the cryptographic and flash checks are free (log entry 30). -/
def State.writeRecCtrl (s : State) (v : Word) : State :=
  let w := s.freeWord
  s.drawn.submitRecovery v ⟨w.getLsbD 0, w.getLsbD 1, w.getLsbD 2⟩ (w.getLsbD 3)

/-- A register's own writer: the origin, the index in the row's first and second dimension, the value. -/
abbrev Writer := Origin → Nat → Nat → Word → State → State

/-- Registers of the CLK, RING, TWIG, HBM, LIMB and NI blocks that check their writes. -/
def writers0 : List (Nat × Writer) :=
  [ (CLK_IOSC_TRIM, fun _ _ _ v s => s.writeLocked CLK_IOSC_TRIM v),
    (CLK_MON_CFG, fun _ _ _ v s => s.writeLocked CLK_MON_CFG v),
    (CLK_SSC_CFG, fun _ _ _ v s => s.writeSsc v),
    (CLK_GATE_RUN, fun _ _ _ v s => s.writeGate .run v),
    (CLK_GATE_SLEEP, fun _ _ _ v s => s.writeGate .sleep v),
    (CLK_GATE_DEEP, fun _ _ _ v s => s.writeGate .deep v),
    (RING_CFG, fun _ _ _ v s => s.writeRingCfg v),
    (TWIG_REMAP, fun _ _ _ v s => s.writeTwigRemap v),
    (TWIG_BBUF_REGION 0 0, fun _ b st v s => s.writeBbufRegion b st v),
    (HBM_RESERVE, fun _ _ _ v s => s.writeReserve v),
    (HBM_REGION 0 0, fun _ st r v s => s.writeRegion st r v),
    (LIMB_CFG 0, fun _ l _ v s => s.writeLimbCfg l v),
    (LIMB_KEY_MAP 0, fun _ l _ v s => s.writeKeyMap l v),
    (NI_NODE, fun _ _ _ v s => s.writeNode v),
    (NI_CFG, fun _ _ _ v s => s.writeNiCfg v),
    (NI_DRAIN, fun _ _ _ v s => s.writeDrain v),
    (NI_FSLOT_MASK 0, fun _ st _ v s => s.writeFslotMask st v),
    (NI_RANK_GRANT 0, fun _ st _ v s => s.writeRankGrant st v),
    (NI_RANK_ENTRY 0, fun _ i _ v s => s.writeRankEntry i v),
    (NI_MCAST_GROUP 0, fun _ g _ v s => s.writeMcastGroup g v) ]

/-- Registers of the queue pages and of the COLL, STAND and MBX blocks that check their writes. -/
def writers1 : List (Nat × Writer) :=
  [ (CQ_CFG 0 0, fun _ st q v s => s.writeQueueCfg (CQ_CFG st q) (CQ_STATE_cfg_err st q) v),
    (CQ_CPL_BASE 0 0, fun _ st q v s => s.writeCplBase (CQ_CPL_BASE st q) (CQ_CFG st q) v),
    (CQ_DOORBELL 0 0, fun _ st q v s => s.ringDoorbell st q v false),
    (CQ_TRIG_CFG 0, fun _ st _ v s => s.writeQueueCfg (CQ_TRIG_CFG st) (CQ_TRIG_STATE_cfg_err st) v),
    (CQ_TRIG_CPL_BASE 0, fun _ st _ v s => s.writeCplBase (CQ_TRIG_CPL_BASE st) (CQ_TRIG_CFG st) v),
    (CQ_TRIG_DOORBELL 0, fun _ st _ v s => s.ringTrigDoorbell st v false),
    (COLL_SCHED 0 0, fun _ e q v s => s.writeSched e q v),
    (COLL_STAND_QUOTA 0, fun _ st _ v s => s.writeQuota st v),
    (COLL_CHAN_CFG 0, fun _ c _ v s => s.writeChanCfg c v),
    (STAND_CFG 0, fun _ st _ v s => s.writeStandCfg st v),
    (STAND_MEM_SLOTS 0, fun _ st _ v s => s.writeMemSlots st v),
    (STAND_KEY 0, fun _ st _ v s => if v.getLsbD 63 then s.generateKey st else s),
    (STAND_CTRL 0, fun _ st _ v s => if v.getLsbD 0 then s.askReset st 3 else s),
    (STAND_TWIG_OWNER 0, fun _ t _ v s => s.writeTwigOwner t v),
    (MBX_REQ_DOORBELL 0, fun _ m _ v s => s.postRequests m (bitsOf v.toNat 15 0)),
    (MBX_REQ_RETIRE 0, fun _ m _ v s => s.retireRequests m (bitsOf v.toNat 15 0)),
    (MBX_CREDIT, fun _ _ _ v s => s.writeCredit v),
    (MBX_LOAD_CFG, fun _ _ _ v s => s.writeLoadCfg v) ]

/-- Registers of the PWR, ID, FLASH and TRC blocks that check their writes. -/
def writers2 : List (Nat × Writer) :=
  [ (PWR_ENVELOPE, fun _ _ _ v s => s.writeEnvelope v),
    (PWR_SEQ, fun _ _ _ v s => s.writeSeq v),
    (PWR_CFG, fun _ _ _ v s => (s.plainWrite PWR_CFG v).pwrDirty),
    (PWR_PARK 0, fun _ q _ v s => s.writePark q v),
    (PWR_TRIP_REC, fun _ _ _ v s => s.writeTripRec v),
    (PWR_WAKE, fun _ _ _ v s => s.writeWake v),
    (ID_RESET, fun o _ _ v s => s.writeIdReset o v),
    (ID_LEAF_RESET, fun _ _ _ v s => s.writeLeafReset v),
    (FLASH_REC_CTRL, fun _ _ _ v s => s.writeRecCtrl v),
    (TRC_FROST, fun _ _ _ v s => (s.plainWrite TRC_FROST v).frostPending),
    (TRC_FROST_CTRL, fun _ _ _ v s => s.writeFrostCtrl v) ]

/-- The writer of a row of the register map, if it checks its writes. -/
def writerOf (base : Nat) : Option Writer := ((writers0 ++ writers1 ++ writers2).find? fun w => w.1 == base).map (·.2)

/-- A 64-bit write to the register at `a`. -/
def State.writeReg (s : State) (o : Origin) (a : Nat) (v : Word) : State :=
  match regRow a with
  | none => s
  | some r =>
    let d := a - r.base
    match writerOf r.base with
    | some f => f o (if r.n1 ≤ 1 then 0 else d / r.s1) (if r.n2 ≤ 1 then 0 else (if r.n1 ≤ 1 then d else d % r.s1) / r.s2) v s
    | none => s.plainWrite a v

/-! ### Accesses -/

/-- What a 32-bit write puts in the other half: the RW fields as they are, nothing elsewhere; a doorbell keeps its tail (R11, R137). -/
def State.otherHalf (s : State) (a : Nat) (r : RegRow) : Word :=
  if r.base = CQ_DOORBELL 0 0 then BitVec.ofNat 64 (bitsOf (s.rd (a + 8)).toNat 15 0)
  else if r.base = CQ_TRIG_DOORBELL 0 then BitVec.ofNat 64 (bitsOf (s.rd (a + 8)).toNat 15 0)
  else s.rd a &&& BitVec.ofNat 64 (r.rw ||| r.rwl)

/-- A register write of 8 bytes, or of 4 bytes to a half that has something to write (R11). -/
def State.regWrite (s : State) (o : Origin) (a size : Nat) (v : Word) : State :=
  if size = 8 then s.writeReg o a v
  else
    match regRow (a - a % 8) with
    | none => s
    | some r =>
      let half := a % 8 / 4
      if bitsOf (r.rw ||| r.w1c ||| r.wo ||| r.rwl) (32 * half + 31) (32 * half) = 0 then s
      else s.writeReg o (a - a % 8) (putBits (s.otherHalf (a - a % 8) r) (32 * half + 31) (32 * half) v.toNat)

/-- A write in a register window: an aligned 64-bit or 32-bit access; any other is discarded (R11, R305, R327, R459). -/
def State.writeAccess (s : State) (o : Origin) (a size : Nat) (v : Word) : State :=
  if !((size == 8 && a % 8 == 0) || (size == 4 && a % 4 == 0)) then s
  else
    match mbxWindow a with
    | some (m, off) =>
      if !s.mbxServed m then s
      else if off < 0x38 then s.regWrite o (MBX_FN_STATUS m + off) size v
      else if isHostSlot off then s.store (mbxAt m + off) (leBytes size v.toNat)
      else s
    | none =>
      if inPageWindow a then s
      else if inRecBuf a then (if s.flag FLASH_STATUS_recovery then s.store (recBufAt + (a - 0xF20000)) (leBytes size v.toNat) else s)
      else s.regWrite o a size v

/-- Whether a VF reaches an address: its own queue page while its stand is ACTIVE, its mailbox window, and its sample control while
read_perf is 1 (R303, R304). -/
def State.vfReaches (s : State) (st a : Nat) : Bool :=
  (s.standState st == 2 && decide (0x1000000 + st * 0x1000 ≤ a) && decide (a < 0x1000800 + st * 0x1000))
    || (decide (0x4000000 + st * 0x10000 ≤ a) && decide (a < 0x4010000 + st * 0x10000))
    || (s.liveFlag (STAND_CFG_read_perf st) && decide (PERFW_SAMPLE_CTRL st ≤ a) && decide (a < PERFW_SAMPLE_CTRL st + 8))

/-- A register write from an origin. The CSR blocks lie below 0x1000000; without VIN only the always-on registers are there (R418). -/
def State.writeFrom (s : State) (o : Origin) (a size : Nat) (v : Word) : State :=
  match o with
  | .vf st => if s.powered && decide (st < 16) && s.vfReaches st a then s.writeAccess o a size v else s
  | _ =>
    if decide (a < 0x1000000) && (s.powered || alwaysOn (a - a % 8)) then s.csrFrom o fun s => s.writeAccess o a size v else s

/-- REGISTER_WRITE (R11, R12). -/
def execRegisterWrite (o : Origin) (a size : Nat) (v : Word) (s : State) : Res := .next (s.writeFrom o a size v)

/-! ### BAR0 of PF0 (R184) -/

/-- An access to HBM that R184 refuses. -/
def State.hbmRefused (s : State) (g : Nat) : State :=
  ((s.count HBM_WINDOW_REFUSED_count 1).setFld HBM_WINDOW_REFUSED_last_granule g).setFlag HBM_EVENT_window_refused true

/-- The first granule of an access that PF0 may not reach. -/
def State.refusedGranule (s : State) (a n : Nat) : Option Nat :=
  ((List.range ((a + n - 1) / 2 ^ 30 + 1 - a / 2 ^ 30)).map (a / 2 ^ 30 + ·)).find? fun g => s.granuleTaken g || s.isDumpGranule g

/-- The bytes an access moves. -/
def barSize : BarOp → Nat
  | .read n => n
  | .write bs => bs.length

/-- Answer a read with zeros; a write is discarded. -/
def State.zeroAnswer (s : State) (op : BarOp) : State :=
  match op with
  | .read n => s.emit (.data (List.replicate n 0#8) false)
  | .write _ => s

/-- PF0's access to HBM: the poisoned bit reports an uncorrectable line (R202). -/
def State.pf0Hbm (s : State) (a : Nat) (op : BarOp) : State :=
  match s.refusedGranule a (barSize op) with
  | some g => (s.hbmRefused g).zeroAnswer op
  | none =>
    match op with
    | .read n => let r := s.hbmRead (s.keyAt a) a n; r.2.2.emit (.data r.1 r.2.1)
    | .write bs => (s.hbmWrite (s.keyAt a) a bs).2

/-- The first leaf of an access whose twig a stand holds (R99). An access that also touches an unassigned leaf is refused whole, counted once, and
this leaf is the one recorded (DESIGN CHOICE, log entry 96). -/
def State.refusedLeaf (s : State) (off n : Nat) : Option Nat :=
  ((List.range ((off + n - 1) / 2 ^ 18 + 1 - off / 2 ^ 18)).map (off / 2 ^ 18 + ·)).find? fun l => (s.twigStand (l / 32)).isSome

/-- PF0's access to leaf SRAM (R97, R99). -/
def State.pf0Leaf (s : State) (off : Nat) (op : BarOp) : State :=
  match s.refusedLeaf off (barSize op) with
  | some l => ((s.count TWIG_WINDOW_REFUSED_count 1).setFld TWIG_WINDOW_REFUSED_last_leaf l).zeroAnswer op
  | none =>
    match op with
    | .read n => s.emit (.data (s.windowRead off n) false)
    | .write bs => s.windowWrite off bs

/-- A write to a word of a knot's record: THRESH, CONFIG, ADD, SET, SIGNAL, ARRIVE (*Knot record*). A write to the other words does nothing, but
counts where the knot is not the accessor's (R163). -/
def State.knotWord (s : State) (o : Origin) (k w : Nat) (v : Nat) : State :=
  match w with
  | 1 => s.knotWrite o k .thresh v s.clk.now
  | 2 => s.knotWrite o k .config (v % 16) s.clk.now
  | 4 => s.knotWrite o k .add (v % 2 ^ 32) s.clk.now
  | 5 => s.knotWrite o k .set (v % 2 ^ 32) s.clk.now
  | 6 => s.knotWrite o k .signal (v % 2 ^ 32) s.clk.now
  | 7 => s.knotWrite o k .arrive 1 s.clk.now
  | _ => if s.knotAccess o k = some false then s.knotForeign else s

/-- An access to knots that is no 64-bit word (R11): reads 0, writes nothing, and counts where one of the knots is not the accessor's (R163). -/
def State.knotOdd (s : State) (o : Origin) (off n : Nat) : State :=
  if (List.range ((off + n - 1) / 0x40 + 1 - off / 0x40)).any fun i => s.knotAccess o (off / 0x40 + i) == some false then s.knotForeign else s

/-- PF0's access to a knot record, one 64-bit word at a time (R163). -/
def State.pf0Knot (s : State) (off : Nat) (op : BarOp) : State :=
  let k := off / 0x40
  let w := off % 0x40 / 8
  match op with
  | .read n =>
    if n = 8 ∧ off % 8 = 0 then let r := s.knotRead .pf0 k w s.clk.now; r.2.emit (.data (leBytes 8 r.1.toNat) false)
    else (s.knotOdd .pf0 off n).zeroAnswer op
  | .write bs => if bs.length = 8 ∧ off % 8 = 0 then s.knotWord .pf0 k w (ofLe bs) else s.knotOdd .pf0 off bs.length

/-- PF0's access to a CSR. -/
def State.pf0Csr (s : State) (a : Nat) (op : BarOp) : State :=
  match op with
  | .read n => s.emit (.data (s.readAccess a n) false)
  | .write bs => s.writeFrom .pf0 a bs.length (BitVec.ofNat 64 (ofLe bs))

/-- PF0's access to the package physical map (R183). -/
def State.pf0Access (s : State) (a : Nat) (op : BarOp) : State :=
  if (barSize op) = 0 then s.zeroAnswer op
  else if a + (barSize op) ≤ hbmTop then s.pf0Hbm a op
  else if 0xA000000000 ≤ a ∧ a + (barSize op) ≤ 0xA048000000 then s.pf0Leaf (a - 0xA000000000) op
  else if 0xB000000000 ≤ a ∧ a + (barSize op) ≤ 0xB000040000 then s.pf0Knot (a - 0xB000000000) op
  else if 0xC000000000 ≤ a ∧ a + (barSize op) ≤ 0xC001000000 then s.pf0Csr (a - 0xC000000000) op
  else s.zeroAnswer op

/-- The payload bytes of a PCIe access in the port windows (R465): 36 what the package transmits, 37 what it receives. -/
def State.pcieBytes (s : State) (op : BarOp) : State :=
  match op with
  | .read n => s.portBytes 36 n
  | .write bs => s.portBytes 37 bs.length

/-- PF0_BAR0_ACCESS (R184): `upsets` are errors the access meets in lines of HBM (R201). PF0 in D3hot does not answer it (R486). -/
def execPf0Bar0Access (a : Nat) (op : BarOp) (upsets : List (Nat × LineErr)) (s : State) : Res :=
  s.when (s.powered && !s.pcie.d3 && decide (a < 2 ^ 40)) (((s.upset upsets).pcieBytes op).pf0Access a op)

/-! ### BAR0 of a VF (R185, R190, R193) -/

/-- A VF's access to its stand's HBM. -/
def State.vfAccess (s : State) (st a : Nat) (op : BarOp) : State :=
  if s.standState st ≠ 2 ∨ (barSize op) = 0 then s.zeroAnswer op
  else
    match op with
    | .read n =>
      match s.standRead st a n with
      | some r => r.2.2.emit (.data r.1 r.2.1)
      | none => (s.standFault st 1).zeroAnswer op
    | .write bs =>
      match s.standWrite st a bs with
      | some r => r.2
      | none => s.standFault st 1

/-- VF_BAR0_ACCESS. -/
def execVfBar0Access (st a : Nat) (op : BarOp) (upsets : List (Nat × LineErr)) (s : State) : Res :=
  s.when (s.powered && decide (st < 16) && decide (a < 2 ^ 42)) (((s.upset upsets).pcieBytes op).vfAccess st a op)

end Sys2Proof.Machine
end

