-- ==== Sys2Proof/Machine/Admin.lean ====
section
/-! DEFINITION. Stand administration (R311-R317, R362, R365, R366): the sequences Heartwood runs around assignment writes and drains, and
the opcodes of family 0x02. -/

namespace Sys2Proof.Machine

/-! ### Sequences -/

/-- The origin of the token holder's writes. -/
def State.holder (s : State) : Origin := .heartwood (if s.token = 2 then .b else .a)

/-- Writes Heartwood makes. -/
def State.hwWrites (s : State) (ws : List (Nat × Word)) : State := s.forEach ws fun w s => s.writeReg s.holder w.1 w.2

/-- The lowest-numbered knot a stand holds. -/
def State.firstKnot (s : State) (st : Nat) : Nat := (s.granulesOf st).headD 0 * 16

/-- Step 1 of a drain (R259). -/
def State.startDrain (s : State) (st k : Nat) : State :=
  s.writeDrain (BitVec.ofNat 64 (2 ^ 32 + st * 65536 + k))

/-- Step 7 of a drain. -/
def State.releaseDrain (s : State) : State := s.writeDrain ((s.rd NI_DRAIN &&& 0xF0FFF#64) ||| 0x200000000#64)

/-- Change a request in progress. -/
def State.onAdmin (s : State) (a : Admin) (f : Admin → Admin) : State :=
  s.onHw fun h => { h with admin := h.admin.map fun b => if b = a then f b else b }

/-- Answer a request in progress. -/
def State.finishAdmin (s : State) (a : Admin) (body : List Byte) : State :=
  (s.onHw fun h => { h with admin := h.admin.erase a }).answer a.req { body }

/-- Start the next drain Heartwood wants: that of a teardown, or of a request in progress. NODE_SET passes stands that are FREE by now, and
with none left writes at once. -/
def State.adminStart (s : State) : State :=
  if s.fld NI_DRAIN_state ≠ 0 then s
  else
    match (List.range 16).find? fun st => (s.stand st).teardown == 2 with
    | some st => (s.startDrain st (s.firstKnot st)).onStand st fun x => { x with teardown := 3 }
    | none =>
      match s.hw.admin.find? fun a => a.kind != 0 && a.phase == 0 with
      | none => s
      | some a =>
        if a.kind = 3 then
          match a.left.filter fun x => s.standState x.1 != 0 with
          | [] => (s.hwWrites a.writes).onAdmin a fun b => { b with phase := 2, left := [] }
          | (st, k) :: rest => (s.startDrain st k).onAdmin a fun b => { b with phase := 1, stand := st, left := (st, k) :: rest }
        else (s.startDrain a.stand a.knot).onAdmin a fun b => { b with phase := 1 }

/-- Load a limb key on each limb of a mask at step 5 of the next guard band (R224), with its index valid. -/
def State.queueLimbKeys (s : State) (limbs index : Nat) (key : LimbKey) : State :=
  s.forEach (bitList 18 limbs) fun l s =>
    let s := s.onLimb l fun x => { x with pendKeys := x.pendKeys.filter (fun e => e.1 != index) ++ [(index, key)] }
    if index < 16 then s.setFld (LIMB_KEY_VALID_valid l) (s.fld (LIMB_KEY_VALID_valid l) ||| (1 <<< index)) else s

/-- What Heartwood writes once a stand is drained (R259 step 5, R316 step 4). -/
def State.adminDrained (s : State) : State :=
  let st := s.ni.drainStand
  if s.fld NI_DRAIN_state ≠ 2 then s
  else if (s.stand st).teardown = 3 then s.clearAssignment st
  else
    match s.hw.admin.find? fun a => a.phase == 1 && a.stand == st with
    | none => s
    | some a =>
      if a.kind = 3 ∧ 1 < a.left.length then s
      else
        let s := (s.hwWrites a.writes).onAdmin a fun b => { b with phase := 2 }
        if a.kind = 2 then s.queueLimbKeys a.limbs a.index a.key else s

/-- Heartwood goes on with what it has in hand. -/
def State.adminStep (s : State) : State := if s.hwActs then s.adminDrained.adminStart else s

/-- The response of a request in progress at its end: a creation's state and key handle (R311), RANK_WRITE's commit ring, or the one decided. -/
def State.adminBody (s : State) (a : Admin) : List Byte :=
  if a.kind = 0 then leBytes 4 (s.standState a.stand) ++ leBytes 4 (s.fld (STAND_KEY_handle a.stand))
  else if a.kind = 4 then leBytes 4 s.ring
  else a.body

/-- The drain in hand has committed: it is released, and its request answered (R366). -/
def State.adminRelease (s : State) : State :=
  let st := s.ni.drainStand
  if s.fld NI_DRAIN_state ≠ 3 then s
  else if (s.stand st).teardown ≠ 0 then s.setFld NI_DRAIN_state 0
  else
    match s.hw.admin.find? fun a => decide (1 ≤ a.phase) && a.stand == st && a.kind != 0 with
    | none => s
    | some a =>
      if a.phase = 1 then
        if a.kind = 3 then
          ((s.setFld NI_DRAIN_state 0).onNi fun n => { n with held := n.held ++ [st] }).onAdmin a fun b =>
            { b with phase := 0, left := b.left.drop 1, stand := 16 }
        else s.releaseDrain.onAdmin a fun b => { b with phase := 0 }
      else
        let s := if a.kind = 3 then s.onNi fun n => { n with resume := n.resume ++ n.held, held := [] } else s
        s.releaseDrain.finishAdmin a (s.adminBody a)

/-- The STAND_CFG word of a record: its *c_own*, with these permission flags. -/
def Req.standCfg (r : Req) (flags : Nat) : Word := BitVec.ofNat 64 (r.arg 86 2 * 2 ^ 32 + flags)

/-- The permission flags of a record. -/
def Req.permissions (r : Req) : Nat := r.arg 112 1 % 16

/-- What Heartwood does at the end of a guard band: it answers creations (R311 step 4), writing the record's flags
(they were 0 at creation, R309; log entry 89), and NODE_SET without a drain, and releases drains. -/
def State.adminBand (s : State) : State :=
  if !s.hwActs then s
  else
    let done := s.hw.admin.filter fun a =>
      (a.kind == 0 && s.standState a.stand == 1) || (a.kind == 3 && a.phase == 2 && a.left.isEmpty)
    ((s.forEach done fun a s =>
      (if a.kind = 3 then s.onNi fun n => { n with resume := n.resume ++ n.held, held := [] }
       else s.writeReg s.holder (STAND_CFG a.stand) (a.req.standCfg a.req.permissions)).finishAdmin a (s.adminBody a)).adminRelease).adminStep

/-- DRAIN_COMPLETE (R259): Heartwood then makes the writes the drain was for. -/
def execDrainComplete (s : State) : Res :=
  s.when (s.fld NI_DRAIN_state == 1 && !s.inFlight s.ni.drainStand) s.drainEnd.adminStep

/-! ### The stand record -/

/-- The HBM_REGION word a record names for region `i`. -/
def Req.region (r : Req) (i : Nat) : Word :=
  let x := r.arg (20 + 4 * i) 4
  if bitOf x 31 then BitVec.ofNat 64 (2 ^ 63 + bitsOf x 25 16 * 65536 + bitsOf x 9 0) else 0#64

/-- The TWIG_BBUF_REGION word a record names for bough `b`. -/
def Req.bbuf (r : Req) (b : Nat) : Word :=
  let x := r.arg (36 + 4 * b) 4
  if bitOf x 31 then BitVec.ofNat 64 (2 ^ 63 + bitsOf x 13 8 * 256 + bitsOf x 5 0) else 0#64

/-- The twigs of a record. -/
def Req.twigs (r : Req) : List Nat := bitList 144 (r.arg 0 18)

/-- The knot granules of a record. -/
def Req.granules (r : Req) : List Nat := bitList 256 (r.arg 52 32)

/-- The NI_RANK_GRANT word of a record. -/
def Req.grant (r : Req) : Word :=
  let x := r.arg 84 2
  if bitOf x 15 then BitVec.ofNat 64 (2 ^ 63 + bitsOf x 5 0 * 65536 + bitsOf x 14 8) else 0#64

/-- The memory-slot mask of a record. -/
def Req.memMask (r : Req) : Nat := r.arg 88 8 % 2 ^ 62
/-- The fabric slot mask of a record. -/
def Req.fabricMask (r : Req) : Nat := r.arg 96 8 % 2 ^ 62

/-- Reserved places of the record in a request. -/
def recordReserved : List (Nat × Nat) := [(18, 2), (113, 15)]

/-- A valid word that names a stand. -/
def ownerWord (st : Nat) : Word := BitVec.ofNat 64 (2 ^ 63 + st)

/-- Whether a twig may be the stand's (R89, R308). -/
def State.twigFree (s : State) (st t : Nat) : Bool :=
  !s.flag (TWIG_STATUS_degraded t) && (!s.liveFlag (STAND_TWIG_OWNER_valid t) || s.liveFld (STAND_TWIG_OWNER_stand t) == st)
    && (!s.flag (STAND_TWIG_OWNER_valid t) || s.fld (STAND_TWIG_OWNER_stand t) == st)

/-- Whether a knot granule may be the stand's (R164). -/
def State.granuleFree (s : State) (st g : Nat) : Bool :=
  (!s.liveFlag (KNOT_GRANULE_OWNER_valid g) || s.liveFld (KNOT_GRANULE_OWNER_stand g) == st)
    && (!s.flag (KNOT_GRANULE_OWNER_valid g) || s.fld (KNOT_GRANULE_OWNER_stand g) == st)

/-- Whether the regions of a record pass R191 one after another, the stand's own set aside. -/
def State.regionsOk (s : State) (st : Nat) (r : Req) : Bool :=
  let s0 : State := { s with regs := s.regs.clear (HBM_REGION st 0) (HBM_REGION (st + 1) 0) }
  ((List.range 4).foldl (fun (x : Bool × State) i =>
    let w := r.region i
    if w = 0#64 then x else (x.1 && !x.2.regionRejected st i w, x.2.wr (HBM_REGION st i) w)) (true, s0)).1

/-- Whether the bough-buffer regions of a record pass R94. -/
def State.bbufsOk (s : State) (st : Nat) (r : Req) : Bool :=
  (List.range 4).all fun b =>
    let w := r.bbuf b
    w == 0#64 || (decide (bitsOf w.toNat 5 0 ≤ bitsOf w.toNat 13 8) &&
      !((List.range 16).any fun x => x != st && (List.range 64).any fun g => bbufCovers w g && bbufCovers (s.rd (TWIG_BBUF_REGION b x)) g))

/-- Every resource of a record passes *Stand resources* and R307, with these granules. -/
def State.recordOk (s : State) (st : Nat) (r : Req) (granules : List Nat) : Bool :=
  !r.twigs.isEmpty && r.twigs.all (s.twigFree st) && !granules.isEmpty && granules.all (s.granuleFree st)
    && ((List.range 4).any fun i => r.region i != 0#64) && s.regionsOk st r && s.bbufsOk st r
    && (r.grant == 0#64 || !s.grantClash st (bitsOf r.grant.toNat 21 16) (bitsOf r.grant.toNat 6 0))
    && ((List.range 16).all fun x => x == st ||
        (s.fld (STAND_MEM_SLOTS_slots x) &&& r.memMask == 0 && s.fld (NI_FSLOT_MASK_slots x) &&& r.fabricMask == 0))

/-- The free granules homed on a bough, rising. -/
def State.freeGranules (s : State) (b : Nat) : List Nat := ((List.range 64).map (64 * b + ·)).filter (s.granuleFree 16)

/-- The 16 granules of R307. -/
def State.defaultGranules (s : State) (twigs : List Nat) : List Nat :=
  let on := fun (b : Nat) => twigs.countP fun t => t / 36 == b
  let home := (List.range 4).foldl (fun m b => if on m < on b then b else m) 0
  (s.freeGranules home ++ ((List.range 4).filter fun b => b != home).flatMap s.freeGranules).take 16

/-! ### Writes of a record -/

/-- The twigs assigned to a stand as written. -/
def State.writtenTwigs (s : State) (st : Nat) : List Nat :=
  (List.range 144).filter fun t => s.flag (STAND_TWIG_OWNER_valid t) && s.fld (STAND_TWIG_OWNER_stand t) == st

/-- The granules assigned to a stand as written. -/
def State.writtenGranules (s : State) (st : Nat) : List Nat :=
  (List.range 256).filter fun g => s.flag (KNOT_GRANULE_OWNER_valid g) && s.fld (KNOT_GRANULE_OWNER_stand g) == st

/-- The writes that release what a record no longer holds, or holds otherwise. -/
def State.releases (s : State) (st : Nat) (r : Req) (granules : List Nat) : List (Nat × Word) :=
  (((s.writtenTwigs st).filter fun t => !r.twigs.contains t).map fun t => (STAND_TWIG_OWNER t, 0#64))
    ++ (((s.writtenGranules st).filter fun g => !granules.contains g).map fun g => (KNOT_GRANULE_OWNER g, 0#64))
    ++ (((List.range 4).filter fun i => s.flag (HBM_REGION_valid st i) && regionWord (s.rd (HBM_REGION st i)) != r.region i).map fun i =>
        (HBM_REGION st i, 0#64))
    ++ (((List.range 4).filter fun b => s.flag (TWIG_BBUF_REGION_valid b st) && s.rd (TWIG_BBUF_REGION b st) != r.bbuf b).map fun b =>
        (TWIG_BBUF_REGION b st, 0#64))

/-- The writes that give a stand what a record names. -/
def State.grants (s : State) (st : Nat) (r : Req) (granules : List Nat) : List (Nat × Word) :=
  ((r.twigs.filter fun t => !(s.writtenTwigs st).contains t).map fun t => (STAND_TWIG_OWNER t, ownerWord st))
    ++ ((granules.filter fun g => !(s.writtenGranules st).contains g).map fun g => (KNOT_GRANULE_OWNER g, ownerWord st))
    ++ (((List.range 4).filter fun i => r.region i != 0#64 && regionWord (s.rd (HBM_REGION st i)) != r.region i).map fun i =>
        (HBM_REGION st i, r.region i))
    ++ (((List.range 4).filter fun b => r.bbuf b != 0#64 && s.rd (TWIG_BBUF_REGION b st) != r.bbuf b).map fun b =>
        (TWIG_BBUF_REGION b st, r.bbuf b))

/-- The writes of a record's rates, masks, grant and seed, with permission flags; those of the NIs only where they change. -/
def State.settings (s : State) (st : Nat) (r : Req) (flags : Nat) : List (Nat × Word) :=
  [(STAND_CFG st, r.standCfg flags), (STAND_MEM_SLOTS st, BitVec.ofNat 64 r.memMask),
   (STAND_SEED st, BitVec.ofNat 64 (r.arg 104 8))]
    ++ (if s.rd (NI_RANK_GRANT st) = r.grant then [] else [(NI_RANK_GRANT st, r.grant)])
    ++ (if s.fld (NI_FSLOT_MASK_slots st) = r.fabricMask then [] else [(NI_FSLOT_MASK st, BitVec.ofNat 64 r.fabricMask)])

/-- All writes of a record, with permission flags. -/
def State.recordWrites (s : State) (st : Nat) (r : Req) (granules : List Nat) (flags : Nat) : List (Nat × Word) :=
  s.releases st r granules ++ s.grants st r granules ++ s.settings st r flags

/-! ### STAND_CREATE, 0x0201 -/

/-- Steps 2 and 3 of R311; the answer follows at step 4. -/
def State.createStand (s : State) (r : Req) (granules : List Nat) : State :=
  let st := r.stand
  let s := ((s.wr (STAND_FAULT st) 0#64).clearStandCounters st).generateKey st
  let s := (s.hwWrites (s.recordWrites st r granules 0)).onStand st fun _ => { creating := true }
  s.onHw fun h => { h with admin := h.admin ++ [{ req := r, kind := 0, stand := st }] }

/-- STAND_CREATE; refused before bring-up completes (R436). -/
def State.standCreate (s : State) (r : Req) : Option Reply × State :=
  let granules := if r.granules = [] then s.defaultGranules r.twigs else r.granules
  if s.standState r.stand ≠ 0 ∨ !s.flag ID_BOOT_done then (some (.of 7), s)
  else if (r.granules = [] ∧ granules.length < 16) ∨ !s.recordOk r.stand r granules then (some (.of 4), s)
  else (none, s.createStand r granules)

/-- STAND_CREATE, 0x0201. -/
def execStandCreate (s : State) : Res := .next (s.serve 0x0201 128 recordReserved true true fun r s => s.standCreate r)

/-! ### STAND_MODIFY, 0x0202 -/

/-- Whether a new region word still covers what the old one did, at the same addresses. -/
def regionKept (old new : Word) : Bool :=
  !old.getLsbD 63 || (new.getLsbD 63 && bitsOf old.toNat 9 0 == bitsOf new.toNat 9 0 && decide (bitsOf old.toNat 25 16 ≤ bitsOf new.toNat 25 16))

/-- The same for a bough-buffer region. -/
def bbufStays (old new : Word) : Bool :=
  !old.getLsbD 63 || (new.getLsbD 63 && bitsOf old.toNat 5 0 == bitsOf new.toNat 5 0 && decide (bitsOf old.toNat 13 8 ≤ bitsOf new.toNat 13 8))

/-- The same for a rank grant. -/
def grantKept (old new : Word) : Bool :=
  !old.getLsbD 63 || (new.getLsbD 63 && bitsOf old.toNat 21 16 == bitsOf new.toNat 21 16 && decide (bitsOf old.toNat 6 0 ≤ bitsOf new.toNat 6 0))

/-- Whether a change removes or shrinks a resource or changes the memory-slot mask (R313). -/
def State.removes (s : State) (st : Nat) (r : Req) : Bool :=
  (s.writtenTwigs st).any (fun t => !r.twigs.contains t) || (s.writtenGranules st).any (fun g => !r.granules.contains g)
    || !((List.range 4).all fun i => regionKept (s.rd (HBM_REGION st i)) (r.region i))
    || !((List.range 4).all fun b => bbufStays (s.rd (TWIG_BBUF_REGION b st)) (r.bbuf b))
    || !grantKept (s.rd (NI_RANK_GRANT st)) r.grant || s.fld (STAND_MEM_SLOTS_slots st) != r.memMask
    || (s.fld (NI_FSLOT_MASK_slots st) &&& r.fabricMask) != s.fld (NI_FSLOT_MASK_slots st)

/-- Whether a change needs the drain of R259. -/
def State.needsDrain (s : State) (st : Nat) (r : Req) : Bool :=
  s.rd (NI_RANK_GRANT st) != r.grant || s.fld (NI_FSLOT_MASK_slots st) != r.fabricMask

/-- The drain knot of R365. -/
def State.modifyKnot (s : State) (st : Nat) (r : Req) : Nat :=
  (((s.writtenGranules st).find? fun g => r.granules.contains g).getD ((s.writtenGranules st).headD 0)) * 16

/-- STAND_MODIFY: a change that needs a drain is answered with its release, any other at once. -/
def State.standModify (s : State) (r : Req) : Option Reply × State :=
  let st := r.stand
  if s.standState st ≠ 2 then (some (.of 7), s)
  else if r.granules = [] ∨ !s.recordOk st r r.granules then (some (.of 4), s)
  else if s.removes st r ∧ !s.quiescent st then (some (.of 7), s)
  else
    let ws := s.recordWrites st r r.granules r.permissions
    if s.needsDrain st r then
      let a : Admin := { req := r, kind := 1, stand := st, knot := s.modifyKnot st r, writes := ws, body := leBytes 1 2 }
      (none, (s.onHw fun h => { h with admin := h.admin ++ [a] }).adminStep)
    else (some { body := leBytes 1 2 }, s.hwWrites ws)

/-- STAND_MODIFY, 0x0202. -/
def execStandModify (s : State) : Res := .next (s.serve 0x0202 128 recordReserved true true fun r s => s.standModify r)

/-! ### STAND_TEARDOWN, 0x0203 -/

/-- Step 1 of R316: a reset under way serves as step 2; otherwise one is asked for. -/
def State.beginTeardown (s : State) (st : Nat) : State :=
  let s := (s.setStandState st 4).onStand st fun x => { x with teardown := 1, commitRing := none }
  if (s.stand st).resetCause.isSome then s
  else s.onStand st fun x => { x with resetCause := some 4, resetSlot := s.resetDue }

/-- STAND_TEARDOWN. -/
def State.standTeardown (s : State) (r : Req) : Option Reply × State :=
  if s.standState r.stand = 0 then (some (.of 7), s)
  else (some { body := leBytes 1 4 }, s.beginTeardown r.stand)

/-- STAND_TEARDOWN, 0x0203. -/
def execStandTeardown (s : State) : Res := .next (s.serve 0x0203 0 [] true true fun r s => s.standTeardown r)

/-! ### STAND_RESET, STAND_QUERY and PRECISION_CONSENT -/

/-- STAND_RESET (R314, R315): a request during a reset joins it. -/
def State.standReset (s : State) (r : Req) : Option Reply × State :=
  let x := s.standState r.stand
  if x = 3 then (some {}, s)
  else if x ≠ 2 then (some (.of 7), s)
  else if s.adminBusy r.stand then (some { status := 1, retry := 1 }, s)
  else (some {}, s.askReset r.stand (if r.owner then 0 else 1))

/-- STAND_RESET, 0x0204. -/
def execStandReset (s : State) : Res := .next (s.serve 0x0204 0 [] true false fun r s => s.standReset r)

/-- A region word as the record packs it. -/
def packRegion (w : Word) : Nat := bitsOf w.toNat 9 0 + bitsOf w.toNat 25 16 * 65536 + bitsOf w.toNat 63 63 * 2 ^ 31
/-- A bough-buffer region as the record packs it. -/
def packBbuf (w : Word) : Nat := bitsOf w.toNat 5 0 + bitsOf w.toNat 13 8 * 256 + bitsOf w.toNat 63 63 * 2 ^ 31
/-- A rank grant as the record packs it. -/
def packGrant (w : Word) : Nat := bitsOf w.toNat 21 16 + bitsOf w.toNat 6 0 * 256 + bitsOf w.toNat 63 63 * 32768

/-- A stand's record (STAND_QUERY). -/
def State.standRecord (s : State) (st : Nat) : List Byte :=
  leBytes 18 (maskOfList (s.writtenTwigs st)) ++ leBytes 2 0
    ++ ((List.range 4).flatMap fun i => leBytes 4 (packRegion (s.rd (HBM_REGION st i))))
    ++ ((List.range 4).flatMap fun b => leBytes 4 (packBbuf (s.rd (TWIG_BBUF_REGION b st))))
    ++ leBytes 32 (maskOfList (s.writtenGranules st)) ++ leBytes 2 (packGrant (s.rd (NI_RANK_GRANT st)))
    ++ leBytes 2 (s.fld (STAND_CFG_c_own st)) ++ leBytes 8 (s.fld (STAND_MEM_SLOTS_slots st))
    ++ leBytes 8 (s.fld (NI_FSLOT_MASK_slots st)) ++ leBytes 8 (s.rd (STAND_SEED st)).toNat
    ++ leBytes 1 (bitsOf (s.rd (STAND_CFG st)).toNat 3 0) ++ leBytes 1 (s.standState st) ++ leBytes 2 0
    ++ leBytes 4 (s.fld (STAND_KEY_handle st)) ++ leBytes 1 (s.fld (STAND_CFG_consent st)) ++ leBytes 7 0

/-- STAND_QUERY, 0x0205. -/
def execStandQuery (s : State) : Res :=
  .next (s.serve 0x0205 0 [] true true fun r s => (some { body := s.standRecord r.stand }, s))

/-- PRECISION_CONSENT (R131, R309): recorded now, in effect at the next guard band. -/
def State.precisionConsent (s : State) (r : Req) : Option Reply × State :=
  let b := r.arg 0 1
  if 1 < b then (some (.of 4), s)
  else if b = 1 ∧ !s.liveFlag (STAND_CFG_precision_consent_allowed r.stand) then (some (.of 2), s)
  else (some { body := leBytes 1 b }, s.onStand r.stand fun x => { x with consentReq := some (b == 1) })

/-- PRECISION_CONSENT, 0x0206. -/
def execPrecisionConsent (s : State) : Res := .next (s.serve 0x0206 1 [] true true fun r s => s.precisionConsent r)

end Sys2Proof.Machine
end

