-- ==== Sys2Proof/Machine/PowerOps.lean ====
section
/-! DEFINITION. The opcodes of power and of the clocks (13_mailbox_opcodes.md, families 0x03 and 0x04). -/

namespace Sys2Proof.Machine

/-- A power in tenths of a watt as whole watts; the spec does not say how it rounds (log entry 54). -/
def wholeWatts (p : Int) (up : Bool) : Nat := (p / 10).toNat + bit (up && decide (p % 10 ≠ 0))

/-- PWR_ENVELOPE (R404). -/
def State.pwrEnvelope (s : State) (r : Req) : Option Reply × State :=
  let target := r.arg 0 4
  if target < 700 ∨ 2400 < target then (some (.of 4), s)
  else
    let park := bitOf (r.arg 4 1) 0
    let prec := bitOf (r.arg 4 1) 1
    let c := s.choose target park prec
    let parked := (c.stands.map fun st => (s.twigsOf st).length).sum
    let body := leBytes 1 c.tier ++ leBytes 1 (bit c.narrow) ++ leBytes 2 parked ++ leBytes 2 (s.ringsToReach c) ++ leBytes 2 0
      ++ leBytes 4 (wholeWatts c.power (s.freeWord.getLsbD 0))
    (some { body }, ((s.drawn.writeReg s.holder PWR_ENVELOPE (BitVec.ofNat 64 (target + bit park * 2 ^ 32 + bit prec * 2 ^ 33))).onPwr
      fun p => { p with rechoose := none }).applyChoice c)

/-- PWR_ENVELOPE, 0x0301. -/
def execPwrEnvelope (s : State) : Res := .next (s.serve 0x0301 5 [] false true fun r s => s.pwrEnvelope r)

/-- PWR_STATE (R416): the state asked for commits at the next guard band. -/
def State.pwrStateOp (s : State) (r : Req) : Option Reply × State :=
  let x := r.arg 0 1
  if 3 < x then (some (.of 4), s)
  else if x = 3 ∧ !((List.range 16).all fun st => s.standState st == 0 || s.quiescent st) then (some (.of 7), s)
  else (some { body := leBytes 1 s.pwrState }, s.onPwr fun p => { p with stateReq := some x })

/-- PWR_STATE, 0x0302. -/
def execPwrState (s : State) : Res := .next (s.serve 0x0302 1 [] false true fun r s => s.pwrStateOp r)

/-- The PWR_QUERY response. -/
def State.pwrQueryBody (s : State) : List Byte :=
  let t := s.telem.1
  leBytes 4 (s.fld PWR_ENVELOPE_target) ++ leBytes 4 t.power ++ leBytes 1 s.tier ++ leBytes 1 s.statusFlags ++ leBytes 2 0
    ++ ((List.range 6).flatMap fun d => leBytes 2 (ofSigned 16 (t.temps.getD d 0))) ++ leBytes 4 t.ring ++ leBytes 4 0

/-- PWR_QUERY, 0x0303. -/
def execPwrQuery (s : State) : Res :=
  .next (s.serve 0x0303 0 [] false true fun _ s => (some { body := s.pwrQueryBody, stale := s.telem.2 }, s.drawn))

/-- RING_CONFIG (R36, R43). -/
def State.ringConfig (s : State) (r : Req) : Option Reply × State :=
  let period := r.arg 0 1
  let limb := r.arg 1 1
  if 2 < period ∨ (17 < limb ∧ limb ≠ 0x1F) then (some (.of 4), s)
  else (some {}, s.writeReg s.holder RING_CFG
    (BitVec.ofNat 64 (r.arg 2 2 * 2 ^ 32 + r.arg 4 1 % 2 * 2 ^ 16 + limb * 16 + period)))

/-- RING_CONFIG, 0x0401. -/
def execRingConfig (s : State) : Res := .next (s.serve 0x0401 5 [] false true fun r s => s.ringConfig r)

/-- SSC_CONFIG (R46). -/
def State.sscConfig (s : State) (r : Req) : Option Reply × State :=
  if 10 < r.arg 0 1 ∨ 3 < r.arg 1 1 then (some (.of 4), s)
  else (some {}, s.writeReg s.holder CLK_SSC_CFG (BitVec.ofNat 64 (r.arg 1 1 * 16 + r.arg 0 1)))

/-- SSC_CONFIG, 0x0402. -/
def execSscConfig (s : State) : Res := .next (s.serve 0x0402 2 [] false true fun r s => s.sscConfig r)

/-- The CLOCK_QUERY response. -/
def State.clockBody (s : State) : List Byte :=
  [CLK_STATUS, RING_STATUS, RING_TIME, RING_SLIP_COUNT].flatMap fun a => leBytes 8 (s.rd a).toNat

/-- CLOCK_QUERY, 0x0403. -/
def execClockQuery (s : State) : Res := .next (s.serve 0x0403 0 [] false true fun _ s => (some { body := s.clockBody }, s))

end Sys2Proof.Machine
end

