-- ==== Sys2Proof/Machine/Fabric.lean ====
section
/-! DEFINITION. The opcodes of the fabric tables and of the collective channels (13_mailbox_opcodes.md, families 0x05 and 0x06). -/

namespace Sys2Proof.Machine

/-- A table read (R363): the entries after a head, or TOO_LONG with the largest count that fits. -/
def tableReply (limit width count : Nat) (head entries : List Byte) : Reply :=
  if limit < head.length + width * count then { status := 6, body := leBytes 4 ((limit - head.length) / width) }
  else { body := head ++ entries }

/-- Put a request among those in progress and go on (R366). -/
def State.beginAdmin (s : State) (a : Admin) : Option Reply × State :=
  (none, (s.onHw fun h => { h with admin := h.admin ++ [a] }).adminStep)

/-! ### NODE_SET, RANK_WRITE, RANK_READ, FSLOT_SET, MCAST_SET, CONG_READ -/

/-- NODE_SET: every stand that is not FREE is drained in turn on its lowest knot. -/
def State.nodeSet (s : State) (r : Req) : Option Reply × State :=
  if 4095 < r.arg 0 2 then (some (.of 4), s)
  else if (List.range 16).any s.adminBusy || s.hw.admin.any (fun a => a.kind == 3) then (some { status := 1, retry := 1 }, s)
  else
    let left := ((List.range 16).filter fun st => s.standState st != 0).map fun st => (st, s.firstKnot st)
    let node := BitVec.ofNat 64 (2 ^ 63 + r.arg 2 2 * 65536 + r.arg 0 2)
    s.beginAdmin { req := r, kind := 3, stand := 16, left, writes := [(NI_NODE, node), (LIMB_GLOBAL_CFG, BitVec.ofNat 64 (r.arg 4 2))] }

/-- NODE_SET, 0x0501. -/
def execNodeSet (s : State) : Res := .next (s.serve 0x0501 6 [] false false fun r s => s.nodeSet r)

/-- The number of entries a stand's grant in force holds. -/
def State.grantSize (s : State) (st : Nat) : Nat :=
  if s.liveFlag (NI_RANK_GRANT_valid st) then s.liveFld (NI_RANK_GRANT_count st) * 1024 else 0

/-- RANK_WRITE. -/
def State.rankWrite (s : State) (r : Req) : Option Reply × State :=
  let st := r.stand
  let n := r.arg 4 2
  if n = 0 ∨ 510 < n ∨ !r.clean (8 + 8 * n) [(6, 2)] then (some (.of 4), s)
  else if 4095 < r.arg 0 2 ∨ s.knotOwner (r.arg 0 2) ≠ some st ∨ s.grantSize st < r.arg 2 2 + n then (some (.of 8), s)
  else
    let writes := (List.range n).map fun i =>
      (NI_RANK_ENTRY (s.rankIndex st (r.arg 2 2 + i)), BitVec.ofNat 64 (r.arg (8 + 8 * i) 8))
    s.beginAdmin { req := r, kind := 4, stand := st, knot := r.arg 0 2, writes }

/-- RANK_WRITE, 0x0502. -/
def execRankWrite (s : State) : Res := .next (s.serve 0x0502 4088 [] true true fun r s => s.rankWrite r)

/-- RANK_READ: of a stand's grant; of the whole table where the owner names no stand. -/
def State.rankRead (s : State) (r : Req) : Option Reply × State :=
  let st := r.stand
  let first := r.arg 0 2
  let n := r.arg 2 2
  let size := if st = 0xFF then 65536 else s.grantSize st
  let base := if st = 0xFF then 0 else s.rankIndex st 0
  if 16 ≤ st ∧ st ≠ 0xFF then (some (.of 4), s)
  else if size < first + n then (some (.of 8), s)
  else (some (tableReply (s.rspLimit r) 8 n [] ((List.range n).flatMap fun i => leBytes 8 (s.rd (NI_RANK_ENTRY (base + first + i))).toNat)), s)

/-- RANK_READ, 0x0503. -/
def execRankRead (s : State) : Res := .next (s.serve 0x0503 4 [] false true fun r s => s.rankRead r)

/-- Whether a request that takes something away from a stand must be turned away (R313): the stand is ACTIVE and not quiescent. -/
def State.notQuiet (s : State) (st : Nat) : Bool := s.standState st == 2 && !s.quiescent st

/-- FSLOT_SET (R243): taking slots away needs the stand quiescent (R313). -/
def State.fslotSet (s : State) (r : Req) : Option Reply × State :=
  let st := r.stand
  let m := r.arg 8 8 % 2 ^ 62
  if (List.range 16).any fun x => x != st && s.fld (NI_FSLOT_MASK_slots x) &&& m != 0 then (some (.of 4), s)
  else if 4095 < r.arg 0 2 ∨ s.knotOwner (r.arg 0 2) ≠ some st then (some (.of 8), s)
  else if s.fld (NI_FSLOT_MASK_slots st) &&& m ≠ s.fld (NI_FSLOT_MASK_slots st) ∧ s.notQuiet st then (some (.of 7), s)
  else s.beginAdmin { req := r, kind := 1, stand := st, knot := r.arg 0 2, writes := [(NI_FSLOT_MASK st, BitVec.ofNat 64 m)] }

/-- FSLOT_SET, 0x0504. -/
def execFslotSet (s : State) : Res := .next (s.serve 0x0504 16 [] true true fun r s => s.fslotSet r)

/-- MCAST_SET. -/
def State.mcastSet (s : State) (r : Req) : Option Reply × State :=
  if 4095 < r.arg 0 2 then (some (.of 4), s)
  else (some {}, s.writeReg s.holder (NI_MCAST_GROUP (r.arg 0 2)) (BitVec.ofNat 64 (r.arg 8 8)))

/-- MCAST_SET, 0x0505. -/
def execMcastSet (s : State) : Res := .next (s.serve 0x0505 16 [] false false fun r s => s.mcastSet r)

/-- CONG_READ. -/
def State.congRead (s : State) (r : Req) : Option Reply × State :=
  let n := r.arg 2 2
  if 4096 < r.arg 0 2 + n then (some (.of 4), s)
  else (some (tableReply (s.rspLimit r) 8 n [] ((List.range n).flatMap fun i => leBytes 8 (s.congWord (r.arg 0 2 + i)).toNat)), s)

/-- CONG_READ, 0x0508. -/
def execCongRead (s : State) : Res := .next (s.serve 0x0508 4 [] false false fun r s => s.congRead r)

/-! ### Limb keys -/

/-- Whether a load of an index on a limb took effect less than 2 rings before, or waits (R224). -/
def State.keyRecent (s : State) (l k : Nat) : Bool :=
  let e := (s.limb l).keys.get {} k
  (e.handle != 0 && decide (s.rings < e.loadRing + 2)) || (s.limb l).pendKeys.any fun p => p.1 == k

/-- The LIMB_KEY_MAP words a load of a stand's index changes. -/
def State.mapWrites (s : State) (limbs k st : Nat) : List (Nat × Word) :=
  if k = 16 then []
  else ((bitList 18 limbs).filter fun l => bitsOf (s.rd (LIMB_KEY_MAP l)).toNat (4 * k + 3) (4 * k) != st).map fun l =>
    (LIMB_KEY_MAP l, putBits (s.rd (LIMB_KEY_MAP l)) (4 * k + 3) (4 * k) st)

/-- LIMB_KEY_LOAD (R223, R224): `unwraps` is the outcome of the key unwrap (log entry 30). -/
def State.limbKeyLoad (s : State) (r : Req) (unwraps : Bool) : Option Reply × State :=
  let limbs := r.arg 0 3
  let k := r.arg 3 1
  let st := r.arg 4 1
  let h := s.keys.handles
  let key : LimbKey := { handle := h, salt := r.arg 8 6 }
  if 2 ^ 18 ≤ limbs ∨ 16 < k ∨ (k < 16 ∧ 16 ≤ st) then (some (.of 4), s)
  else if !s.keys.transport then (some (.of 2), s)
  else if !unwraps then (some (.of 4), s)
  else if (bitList 18 limbs).any fun l => s.keyRecent l k then (some { status := 1, retry := 2 }, s)
  else if k < 16 ∧ s.adminBusy st then (some { status := 1, retry := 1 }, s)
  else
    let ws := s.mapWrites limbs k st
    let s := s.onKeys fun x => { x with handles := (x.handles + 1) % 2 ^ 32 }
    if ws ≠ [] ∧ !s.drainedOk st then
      s.beginAdmin { req := r, kind := 2, stand := st, knot := s.firstKnot st, writes := ws, limbs, index := k, key, body := leBytes 4 h }
    else (some { body := leBytes 4 h }, (s.hwWrites ws).queueLimbKeys limbs k key)

/-- LIMB_KEY_LOAD, 0x0506. -/
def execLimbKeyLoad (unwraps : Bool) (s : State) : Res :=
  .next (s.serve 0x0506 56 [(5, 3), (14, 2)] false false fun r s => s.limbKeyLoad r unwraps)

/-- TRANSPORT_KEY: the encapsulation key of step 0 is free (log entry 10). -/
def State.transportKey (s : State) (r : Req) : Option Reply × State :=
  let step := r.arg 0 1
  if 1 < step ∨ (step = 0 ∧ !r.clean 1 []) then (some (.of 4), s)
  else if step = 0 then
    if s.rspLimit r < 1576 then (some (.of 6), s)
    else (some { body := leBytes 8 0 ++ s.freeBytes 1568 }, (s.drawnBytes 1568).onKeys fun k => { k with transportPending := true })
  else if !s.keys.transportPending then (some (.of 7), s)
  else (some {}, s.onKeys fun k => { k with transportPending := false, transport := true })

/-- TRANSPORT_KEY, 0x0507. -/
def execTransportKey (s : State) : Res := .next (s.serve 0x0507 1576 [] false false fun r s => s.transportKey r)

/-! ### Channels -/

/-- Whether a channel is bound to a stand as written. -/
def State.chanBound (s : State) (c st : Nat) : Bool :=
  decide (c < 64) && s.flag (COLL_CHAN_CFG_valid c) && s.fld (COLL_CHAN_CFG_stand c) == st

/-- CHAN_BIND (R280): a channel of the stand keeps its crc_e2e; a changed area needs the stand quiescent (R313). -/
def State.chanBind (s : State) (r : Req) : Option Reply × State :=
  let c := r.arg 0 1
  let st := r.stand
  let size := r.arg 3 2
  let own := s.chanBound c st
  let v := BitVec.ofNat 64 (2 ^ 63 + r.arg 1 1 * 2 ^ 61 + bit (own && s.flag (COLL_CHAN_CFG_crc_e2e c)) * 2 ^ 60
    + r.arg 6 1 % 2 * 2 ^ 59 + st * 2 ^ 48 + r.arg 5 1 * 2 ^ 32 + size * 65536 + r.arg 2 1)
  if 63 < c ∨ 1 < r.arg 1 1 ∨ size = 0 ∨ 256 < size then (some (.of 4), s)
  else if s.flag (COLL_CHAN_CFG_valid c) ∧ !own then (some (.of 7), s)
  else if s.chanRejected c v then (some (.of 4), s)
  else if own ∧ chanArea v ≠ chanArea (s.rd (COLL_CHAN_CFG c)) ∧ s.notQuiet st then (some (.of 7), s)
  else (some {}, s.writeReg s.holder (COLL_CHAN_CFG c) v)

/-- CHAN_BIND, 0x0601. -/
def execChanBind (s : State) : Res := .next (s.serve 0x0601 7 [] true true fun r s => s.chanBind r)

/-- CHAN_UNBIND: serialized on the stand the channel is bound to. -/
def State.chanUnbind (s : State) (r : Req) : Option Reply × State :=
  let c := r.arg 0 1
  let st := s.fld (COLL_CHAN_CFG_stand c)
  if 63 < c then (some (.of 4), s)
  else if !s.flag (COLL_CHAN_CFG_valid c) then (some {}, s)
  else if s.adminBusy st then (some { status := 1, retry := 1 }, s)
  else if !s.quiescent st then (some (.of 7), s)
  else (some {}, s.writeReg s.holder (COLL_CHAN_CFG c) (regReset (COLL_CHAN_CFG c)))

/-- CHAN_UNBIND, 0x0602. -/
def execChanUnbind (s : State) : Res := .next (s.serve 0x0602 1 [] false false fun r s => s.chanUnbind r)

/-- FOLD_SCHED (R281): one byte for each slot 0-61. -/
def State.foldSchedOp (s : State) (r : Req) : Option Reply × State :=
  let e := r.arg 0 1
  if 1 < e ∨ !((List.range 62).all fun k => s.schedOk e (r.arg (2 + k) 1)) then (some (.of 4), s)
  else (some {}, s.hwWrites ((List.range 8).map fun q => (COLL_SCHED e q, BitVec.ofNat 64 (r.arg (2 + 8 * q) (if q = 7 then 6 else 8)))))

/-- FOLD_SCHED, 0x0603. -/
def execFoldSched (s : State) : Res := .next (s.serve 0x0603 64 [(1, 1)] false false fun r s => s.foldSchedOp r)

/-- TRIG_QUOTA (R272): lowering a share needs the stand quiescent (R313). -/
def State.trigQuotaOp (s : State) (r : Req) : Option Reply × State :=
  let st := r.stand
  if 2048 < s.otherShares st 0 + r.arg 0 2 ∨ 2048 < s.otherShares st 1 + r.arg 2 2 then (some (.of 4), s)
  else if (r.arg 0 2 < s.fld (COLL_STAND_QUOTA_quota0 st) ∨ r.arg 2 2 < s.fld (COLL_STAND_QUOTA_quota1 st)) ∧ s.notQuiet st then (some (.of 7), s)
  else (some {}, s.writeReg s.holder (COLL_STAND_QUOTA st) (BitVec.ofNat 64 (r.arg 2 2 * 65536 + r.arg 0 2)))

/-- TRIG_QUOTA, 0x0604. -/
def execTrigQuota (s : State) : Res := .next (s.serve 0x0604 4 [] true true fun r s => s.trigQuotaOp r)

/-- Why a caller may not name a channel, or the stand it is serialized on (R362). -/
def State.chanFor (s : State) (r : Req) (c : Nat) : Option Reply :=
  if !r.owner && !s.chanBound c r.stand then some (.of 8)
  else if 63 < c then some (.of 4)
  else if s.flag (COLL_CHAN_CFG_valid c) && s.adminBusy (s.fld (COLL_CHAN_CFG_stand c)) then some { status := 1, retry := 1 }
  else none

/-- CHAN_CRC (R297). -/
def State.chanCrcOp (s : State) (r : Req) : Option Reply × State :=
  let c := r.arg 0 1
  match s.chanFor r c with
  | some x => (some x, s)
  | none =>
    let v := putBits (s.rd (COLL_CHAN_CFG c)) 60 60 (bitsOf (r.arg 1 1) 0 0)
    (some {}, s.writeReg s.holder (COLL_CHAN_CFG c) (putBits v 59 59 (bitsOf (r.arg 1 1) 1 1)))

/-- CHAN_CRC, 0x0605. -/
def execChanCrc (s : State) : Res := .next (s.serve 0x0605 2 [] false false fun r s => s.chanCrcOp r)

/-- CHAN_QUERY. -/
def State.chanQueryOp (s : State) (r : Req) : Option Reply × State :=
  let c := r.arg 0 1
  match s.chanFor r c with
  | some x => (some x, s)
  | none =>
    (some { body := [COLL_CHAN_CFG c, COLL_CHAN_STATUS c, COLL_CHAN_CODE c, COLL_CHAN_CRC c].flatMap fun a => leBytes 8 (s.rd a).toNat }, s)

/-- CHAN_QUERY, 0x0606. -/
def execChanQuery (s : State) : Res := .next (s.serve 0x0606 1 [] false false fun r s => s.chanQueryOp r)

end Sys2Proof.Machine
end

