-- ==== Sys2Proof/Machine/Observe.lean ====
section
/-! DEFINITION. Samples, frost commands, the hang watchdog and dumps (18_observability.md), and the opcodes of counters and debug
(13_mailbox_opcodes.md, families 0x07 and 0x0B). -/

namespace Sys2Proof.Machine

/-! ### Samples (R467, R468) -/

/-- The record of a sample. -/
def Sample.toBytes (x : Sample) (lostBefore : Bool) : List Byte :=
  let (op, q, ids, tag) := x.named.getD (0, 0, 0, 0)
  leBytes 8 x.time ++ leBytes 1 (x.offset % 16 + 16 * x.counter) ++ leBytes 1 x.skid
    ++ leBytes 1 (bit x.named.isNone + 2 * bit lostBefore) ++ leBytes 1 op ++ leBytes 2 x.leaf ++ leBytes 1 q ++ leBytes 1 0
    ++ leBytes 4 ids ++ leBytes 4 tag ++ leBytes 8 x.value.toNat

/-- The sample control register of ring `r`: a stand's, or the owner's for 16. -/
def sampleCtl (r : Nat) : Nat := if r < 16 then PERFW_SAMPLE_CTRL r else PERF_SAMPLE_CTRL

/-- Write a sample to the ring of its leaf's stand, or to the owner's; a full ring or read_perf 0 drops it. -/
def State.writeSample (s : State) (x : Sample) : State :=
  let r := (s.twigStand (x.leaf / 32)).getD 16
  let a := sampleCtl r
  let w := (s.rd a).toNat
  let tail := bitsOf w 21 16
  let s := s.onObs fun o => { o with samples := o.samples.erase x }
  if (tail + 1) % 64 = bitsOf w 5 0 ∨ (r < 16 ∧ !s.liveFlag (STAND_CFG_read_perf r)) then
    (s.wr a (putBits (s.rd a) 47 32 (min 65535 (bitsOf w 47 32 + 1)))).onObs fun o => { o with lostFlag := o.lostFlag.set false r true }
  else
    let s := s.store (sampleAt r + 32 * tail) (x.toBytes (s.obs.lostFlag.get false r))
    let s := (s.wr a (putBits (s.rd a) 21 16 (tail + 1))).onObs fun o => { o with lostFlag := o.lostFlag.set false r false }
    if bitOf w 63 then (if r < 16 then s.msix (r + 1) 6 else s.msix 0 1) else s

/-- SAMPLE_WRITE (R467): the oldest named sample of a leaf's counter. -/
def execSampleWrite (leaf counter : Nat) (s : State) : Res :=
  match s.obs.samples.find? fun x => x.leaf == leaf && x.counter == counter && x.named.isSome with
  | some x => .next (s.writeSample x)
  | none => .next s

/-- Samples that name nothing by step 1 of the guard band are written idle (R467). -/
def State.idleSamples (s : State) : State :=
  s.forEach (s.obs.samples.filter fun x => x.named.isNone) fun x s => s.writeSample x

/-! ### Frost (R469-R471) -/

/-- FROST_PIN_EDGE. -/
def execFrostPinEdge (s : State) : Res := s.when (s.powered && s.flag TRC_FROST_pin_en) (s.frostTrigger 3)

/-- TRC_FROST_FREEZE_NEXT: a write of TRC_FROST_CTRL with freeze_next. -/
def execTrcFrostFreezeNext (v : Word) (s : State) : Res := s.when (v.getLsbD 0) (s.writeFrostCtrl v)

/-- TRC_FROST_RELEASE: a write of TRC_FROST_CTRL with release. -/
def execTrcFrostRelease (v : Word) (s : State) : Res := s.when (v.getLsbD 1) (s.writeFrostCtrl v)

/-- FROST: a release, a freeze at the next boundary, or at the one that begins a ring (R469-R471). -/
def State.frostOp (s : State) (r : Req) : Option Reply × State :=
  let ring := r.arg 0 8
  if bitOf (r.arg 8 1) 0 then (some {}, s.frostRelease)
  else if ring = 0 then (some {}, s.frostTrigger 2)
  else if ring ≤ s.ring ∨ (ring = s.ring + 1 ∧ 62 ≤ s.clk.slot) ∨ 2 ^ 48 ≤ ring then (some (.of 4), s)
  else if s.frozen || s.obs.freezeAt.any (fun e => e.1 == ring) then (some {}, s.count TRC_FROST_LOG_ignored 1)
  else (some {}, (s.setFld TRC_FROST_at_ring ring).frostPending)

/-- FROST, 0x0704. -/
def execFrost (s : State) : Res := .next (s.serve 0x0704 9 [] false false fun r s => s.frostOp r)

/-! ### COUNTER_READ, COUNTER_SELECT, TRACE_SET -/

/-- Instances of a counter scope: leaf, twig, limb, stand, port window; a stand's own port windows are its 36 limb windows. -/
def scopeSize (tenant : Bool) (scope : Nat) : Nat := [4608, 144, 18, 16, if tenant then 36 else 62].getD scope 0

/-- The counters of one instance for a caller. -/
def State.scopeRegs (s : State) (r : Req) (scope n : Nat) : List Word :=
  match scope with
  | 0 => (List.range 4).map fun i => s.rd (PERF_LEAF_CTR n i)
  | 1 => (List.range 8).map fun i => s.rd (PERF_TWIG_CTR n i)
  | 2 => if r.owner then (List.range 16).map fun i => s.rd (PERF_LIMB_CTR n i)
         else (List.range 6).map fun i => s.regAt (PERF_STAND_LIMB r.stand n i)
  | 3 => (List.range 16).map fun i => s.rd (PERF_STAND_CTR n i)
  | _ => [if r.owner then s.rd (PERF_PORT_WIN n 0) else BitVec.ofNat 64 (s.obs.standWin.get 0 (2 * (36 * r.stand + n)))]

/-- Whether a caller may name an instance (R367). -/
def State.scopeMay (s : State) (r : Req) (scope n : Nat) : Bool :=
  r.owner || (match scope with
    | 0 => s.twigStand (n / 32) == some r.stand
    | 1 => s.twigStand n == some r.stand
    | 3 => n == r.stand
    | _ => true)

/-- What COUNTER_READ and COUNTER_SELECT check alike. -/
def State.scopeCheck (s : State) (r : Req) : Option Reply :=
  let scope := r.arg 0 1
  let first := r.arg 2 2
  let n := r.arg 4 2
  if !r.owner && !s.liveFlag (STAND_CFG_read_perf r.stand) then some (.of 2)
  else if 4 < scope then some (.of 4)
  else if scopeSize (!r.owner) scope < first + n then some (.of (if r.owner then 4 else 8))
  else if !((List.range n).all fun i => s.scopeMay r scope (first + i)) then some (.of 8)
  else none

/-- COUNTER_READ. -/
def State.counterRead (s : State) (r : Req) : Option Reply × State :=
  match s.scopeCheck r with
  | some x => (some x, s)
  | none =>
    let n := r.arg 4 2
    let width := 8 * (s.scopeRegs r (r.arg 0 1) 0).length
    let vals := (List.range n).flatMap fun i => (s.scopeRegs r (r.arg 0 1) (r.arg 2 2 + i)).flatMap fun w => leBytes 8 w.toNat
    (some (tableReply (s.rspLimit r) width n (leBytes 8 (s.rd RING_TIME).toNat) vals), s)

/-- COUNTER_READ, 0x0701. -/
def execCounterRead (s : State) : Res := .next (s.serve 0x0701 6 [(1, 1)] false false fun r s => s.counterRead r)

/-- The selection words of one instance. -/
def selRegs (scope n : Nat) : List Nat :=
  match scope with
  | 0 => (List.range 4).map (PERF_LEAF_SEL n)
  | 1 => (List.range 8).map (PERF_TWIG_SEL n)
  | 2 => (List.range 16).map (PERF_LIMB_SEL n)
  | _ => []

/-- COUNTER_SELECT (R461, R462): limb counters are the owner's to select. -/
def State.counterSelect (s : State) (r : Req) : Option Reply × State :=
  let scope := r.arg 0 1
  let n := r.arg 4 2
  match s.scopeCheck r with
  | some x => (some x, s)
  | none =>
    let regs := (List.range n).flatMap fun i => selRegs scope (r.arg 2 2 + i)
    let words := (List.range regs.length).map fun i => r.arg (8 + 8 * i) 8
    if scope = 2 ∧ !r.owner then (some (.of 2), s)
    else if 2 < scope ∨ !r.clean (8 + 8 * regs.length) [(1, 1)] ∨ words.any (fun w => decide (2 ^ 20 ≤ w)) then (some (.of 4), s)
    else (some {}, s.hwWrites ((regs.zip words).map fun x => (x.1, BitVec.ofNat 64 x.2)))

/-- COUNTER_SELECT, 0x0702. -/
def execCounterSelect (s : State) : Res := .next (s.serve 0x0702 4096 [(1, 1)] false false fun r s => s.counterSelect r)

/-- TRACE_SET (R474). -/
def State.traceSet (s : State) (r : Req) : Option Reply × State :=
  let st := r.stand
  if !r.owner && !s.liveFlag (STAND_CFG_trace_allowed st) then (some (.of 2), s)
  else
    let m := s.fld TRC_STAND_EN_stand
    (some {}, s.writeReg s.holder TRC_STAND_EN
      (BitVec.ofNat 64 (if bitOf (r.arg 0 1) 0 then m ||| (1 <<< st) else m &&& (65535 - (1 <<< st)))))

/-- TRACE_SET, 0x0703. -/
def execTraceSet (s : State) : Res := .next (s.serve 0x0703 1 [] true false fun r s => s.traceSet r)

/-! ### The hang watchdog (R478) -/

/-- Whether a queue (0-3 command queues, 4 the trigger queue) waits. -/
def State.queueWaits (s : State) (st q : Nat) : Bool :=
  if q < 4 then
    s.flag (CQ_CFG_enable st q) && !s.flag (CQ_STATE_halted st q) &&
      (s.fld (CQ_STATE_head st q) != s.fld (CQ_STATE_tail_seen st q)
        || s.cmds.any fun c => c.stand == st && c.queue == q && c.started.isSome)
  else
    s.flag (CQ_TRIG_CFG_enable st) && !s.flag (CQ_TRIG_STATE_halted st) &&
      (s.fld (CQ_TRIG_STATE_head st) != s.fld (CQ_TRIG_STATE_tail_seen st) || s.ni.trigs.any fun t => t.stand == st)

/-- Rings without progress before a queue expires; 0 is read as 1. -/
def State.hangRings (s : State) : Nat := max 1 (s.fld TRC_HANG_CFG_rings)

/-- The counts of the watchdog at a ring boundary: a waiting queue of an ACTIVE stand that did not progress counts the ring. -/
def State.hangBoundary (s : State) : State :=
  let hang := (List.range 80).foldl (fun m key =>
    if s.flag TRC_HANG_CFG_enable && s.standState (key / 5) == 2 && s.queueWaits (key / 5) (key % 5) && !s.obs.moved.get false key then
      m.set 0 key (m.get 0 key + 1)
    else m.set 0 key 0) s.obs.hang
  s.onObs fun o => { o with hang, moved := [] }

/-! ### Dumps (R479, R480) -/

/-- Begin the dump that waits first, if a Heartwood acts. -/
def State.startDump (s : State) : State :=
  match s.obs.dump, s.obs.dumpWait with
  | none, d :: rest =>
    if !s.hwActs || !s.flag HBM_RESERVE_valid then s
    else
      let slot := s.fld TRC_DUMP_STATUS_next_slot
      ((s.onObs fun o => { o with dump := some { d with first := s.ring, writer := s.token, slot }, dumpWait := rest }).setFlag
        TRC_DUMP_STATUS_in_progress true).setFld TRC_DUMP_STATUS_next_slot (slot + 1)
  | _, _ => s

/-- The event HANG_DUMP. -/
def State.hangEvent (s : State) (d : Dump) (offset : Nat) : State :=
  let own := evData [(8, 1, d.stand), (16, 8, offset)]
  if d.stand < 16 then s.eventBoth 0x0090 3 d.stand own (evData [(8, 1, d.stand)]) else s.eventOwner 0x0090 3 0xFF own

/-- Ask for a dump: without a dump granule only HANG_DUMP is posted. -/
def State.askDump (s : State) (d : Dump) : State :=
  let s := if d.stand < 16 then s.onObs fun o => { o with lastDump := o.lastDump.set 0 d.stand (s.rings + 1) } else s
  if s.flag HBM_RESERVE_valid then (s.onObs fun o => { o with dumpWait := o.dumpWait ++ [d] }).startDump
  else s.hangEvent d (2 ^ 64 - 1)

/-- An expiry leads to a dump of its stand unless one was written within the same rings; it then joins that dump's queue mask while it is
not complete. -/
def State.expiryDump (s : State) (st q : Nat) : State :=
  let last := s.obs.lastDump.get 0 st
  if last ≠ 0 ∧ s.rings + 1 < last + s.hangRings then
    let add := fun (d : Dump) => if d.stand = st then { d with mask := d.mask ||| (1 <<< q) } else d
    s.onObs fun o => { o with dump := o.dump.map add, dumpWait := o.dumpWait.map add }
  else s.askDump { stand := st, cause := 0, time := (s.rd RING_TIME).toNat, mask := 1 <<< q }

/-- A queue expires. -/
def State.hangExpire (s : State) (st q : Nat) : State :=
  let s := ((s.setFld TRC_HANG_STATUS_expired (s.fld TRC_HANG_STATUS_expired ||| (1 <<< st))).setFld TRC_HANG_STATUS_last_stand st).setFld
    TRC_HANG_STATUS_last_queue q
  ((s.onObs fun o => { o with hang := o.hang.set 0 (5 * st + q) 0 }).wake 4).expiryDump st q

/-- HANG_WATCHDOG_EXPIRE (R478). -/
def execHangWatchdogExpire (st q : Nat) (s : State) : Res :=
  s.when (decide (st < 16) && decide (q < 5) && s.flag TRC_HANG_CFG_enable && decide (s.hangRings ≤ s.obs.hang.get 0 (5 * st + q)))
    (s.hangExpire st q)

/-- The bytes of one entry of a dump whose layout is free. -/
def dumpEntry (part size : Nat) (vals : List Nat) : List Byte := (List.range size).map (Config.dumpPack part vals)

/-- Whether a dump shows a stand's entries. -/
def Dump.shows (d : Dump) (st : Nat) : Bool := decide (16 ≤ d.stand) || d.stand == st

/-- A dispatcher head (*Dump slot layout*): opcode, ids, tag, wait_knot, wait_op, fence, defer_count; queue 4 shows the queue's own first
posted trigger. -/
def State.dumpHead (s : State) (b st q : Nat) : List Byte :=
  if q < 4 then
    match s.headSegment b st q with
    | some c => dumpEntry 1 64 [dOpcode c.desc, dIds c.desc, dTag c.desc, (dWait c.desc).1, (dWait c.desc).2, bit (dFlag c.desc 3), c.defers]
    | none => dumpEntry 1 64 []
  else
    match s.ni.trigs.find? fun t => t.stand == st with
    | some t => dumpEntry 1 64 [tOp t.desc, tIds t.desc, tTag t.desc, tTrigKnot t.desc]
    | none => dumpEntry 1 64 []

/-- A leaf's entry: admitted count, running opcode, ids, tag, lclk since start. -/
def State.dumpLeaf (s : State) (n : Nat) : List Byte :=
  match s.leafPlace n with
  | none => dumpEntry 2 32 []
  | some (t, p) =>
    match (s.leaf t p).queue with
    | [] => dumpEntry 2 32 [0]
    | r :: q =>
      let d := ((s.cmdAt r.stand r.queue r.uid).map (·.desc)).getD []
      dumpEntry 2 32 [q.length + 1, r.opcode, dIds d, dTag d, s.clk.now - r.start]

/-- A posted trigger's entry: op, trig_knot, fire_seq, fire count, state. -/
def State.dumpTrig (s : State) (t : Trig) : List Byte :=
  dumpEntry 3 32 [tOp t.desc, tTrigKnot t.desc, tFireSeq t.desc, s.ni.fires.get 0 (t.io * 4096 + tTrigKnot t.desc),
    match t.state with | .posted => 0 | .ready => 1 | .running => 2 | .finished => 3]

/-- `n` registers from an offset, as bytes. -/
def State.dumpRegs (s : State) (a n : Nat) : List Byte := (List.range n).flatMap fun i => leBytes 8 (s.readReg (a + 8 * i)).toNat

/-- The header: "PLHD", format 1, valid, the dump's stand, cause and rings, its writer, the log entry, the queues. -/
def State.dumpHeader (s : State) (d : Dump) : List Byte :=
  dumpEntry 0 4096 [0x44484C50, 1, 1, d.stand, d.cause, d.time, d.first, s.ring, d.writer, s.fld MBX_LOG_STATUS_next_log_seq, d.mask]

/-- The tables of stands, leaves and triggers of a dump. -/
def State.dumpTables (s : State) (d : Dump) : List Byte :=
  let blank := fun (n : Nat) => List.replicate n 0#8
  ((List.range 16).flatMap fun st => if d.shows st then s.dumpRegs (0x880000 + 0x1000 * st) 512 else blank 4096)
    ++ ((List.range 4).flatMap fun b => (List.range 16).flatMap fun st => (List.range 5).flatMap fun q =>
        if d.shows st then s.dumpHead b st q else blank 64)
    ++ ((List.range 4608).flatMap fun n =>
        if decide (16 ≤ d.stand) || s.twigStand (n / 32) == some d.stand then s.dumpLeaf n else blank 32)
    ++ padTo 131072 (s.ni.trigs.flatMap fun t => if d.shows t.stand then s.dumpTrig t else blank 32)

/-- The registers and log entries of a dump. -/
def State.dumpPackage (s : State) : List Byte :=
  s.dumpRegs 0xC10000 65536 ++ ((List.range 16).flatMap fun k => s.dumpRegs (0x100000 * k) 512)
    ++ padTo 16384 ((s.hw.log.take 256).flatMap fun e => e.toBytes)

/-- The bytes of a dump slot. -/
def State.dumpBytes (s : State) (d : Dump) : List Byte := padTo 0x4000000 (s.dumpHeader d ++ s.dumpTables d ++ s.dumpPackage)

/-- A dump is complete: its slot of the dump granule is written under the owner key, and HANG_DUMP posted. -/
def State.finishDump (s : State) (d : Dump) : State :=
  let offset := d.slot * 0x4000000
  let s := (s.hbmWrite (s.slotKey 16) (s.fld HBM_RESERVE_granule * 2 ^ 30 + offset) (s.dumpBytes d)).2
  let s := ((s.onObs fun o => { o with dump := none }).count TRC_DUMP_STATUS_written 1).setFlag TRC_DUMP_STATUS_in_progress false
  (s.hangEvent d offset).startDump

/-- HANG_DUMP_DONE (R480). -/
def execHangDumpDone (s : State) : Res :=
  match s.obs.dump with
  | some d => s.when (s.hwActs && s.flag HBM_RESERVE_valid) (s.finishDump d)
  | none => .next s

/-! ### Debug opcodes -/

/-- CSR_READ (R363): offsets use bits [23:0]. -/
def State.csrRead (s : State) (r : Req) : Option Reply × State :=
  let n := r.arg 0 2
  if !r.clean (8 + 4 * n) [(2, 6)] then (some (.of 4), s)
  else (some (tableReply (s.rspLimit r) 8 n [] ((List.range n).flatMap fun i =>
    s.readAccess (r.arg (8 + 4 * i) 4 % 2 ^ 24) 8)), s)

/-- CSR_READ, 0x0B01. -/
def execCsrRead (s : State) : Res := .next (s.serve 0x0B01 4096 [(2, 6)] false false fun r s => s.csrRead r)

/-- Registers CSR_WRITE refuses beside whole blocks: the bases of their rows (R369). -/
def refusedRows : List Nat :=
  [HBM_REGION 0 0, TWIG_BBUF_REGION 0 0, TWIG_REMAP, KNOT_GRANULE_OWNER 0, NI_NODE, NI_DRAIN, NI_FSLOT_MASK 0, NI_RANK_GRANT 0,
   NI_RANK_ENTRY 0, NI_MCAST_GROUP 0, LIMB_GLOBAL_CFG, LIMB_KEY_MAP 0, LIMB_KEY_VALID 0, COLL_CHAN_CFG 0, COLL_SCHED 0 0,
   COLL_STAND_QUOTA 0, RING_CFG, CLK_SSC_CFG]

/-- Whether CSR_WRITE refuses an offset: the STAND, PWR, SEC and FLASH blocks, the PF0 mailbox window, and registers with opcodes. -/
def csrRefused (a : Nat) : Bool :=
  [8, 9, 14, 15].contains (a / 0x100000) || (decide (0xA80000 ≤ a) && decide (a < 0xA90000)) ||
    (match regRow a with | some r => refusedRows.contains r.base | none => false)

/-- The status of one entry of CSR_WRITE. -/
def csrStatus (a : Nat) : Nat := if csrRefused a then 2 else if a % 8 ≠ 0 ∨ regRow a = none then 4 else 0

/-- CSR_WRITE (R369): every entry is checked before any is applied. -/
def State.csrWrite (s : State) (r : Req) : Option Reply × State :=
  let n := r.arg 0 2
  let off := fun (i : Nat) => r.arg (8 + 24 * i) 4 % 2 ^ 24
  if n = 0 ∨ 170 < n ∨ !r.clean (8 + 24 * n) ((2, 6) :: (List.range n).map fun i => (12 + 24 * i, 4)) then (some (.of 4), s)
  else
    match (List.range n).find? fun i => csrStatus (off i) ≠ 0 with
    | some i => (some { status := csrStatus (off i), body := leBytes 2 i }, s)
    | none =>
      let t := s.forEach (List.range n) fun i s =>
        let mask := BitVec.ofNat 64 (r.arg (16 + 24 * i) 8)
        s.writeReg .csrWrite (off i) ((s.readReg (off i) &&& ~~~mask) ||| (BitVec.ofNat 64 (r.arg (24 + 24 * i) 8) &&& mask))
      (some (tableReply (s.rspLimit r) 8 n [] ((List.range n).flatMap fun i => leBytes 8 (t.readReg (off i)).toNat)), t)

/-- CSR_WRITE, 0x0B02. -/
def execCsrWrite (s : State) : Res := .next (s.serve 0x0B02 4088 [(2, 6)] false false fun r s => s.csrWrite r)

/-- DUMP_READ: bytes of the dump granule, read under the owner key. -/
def State.dumpRead (s : State) (r : Req) : Option Reply × State :=
  let off := r.arg 0 8
  let n := r.arg 8 4
  if !s.flag HBM_RESERVE_valid then (some (.of 9), s)
  else if 2 ^ 30 < off + n then (some (.of 4), s)
  else if s.rspLimit r < n then (some { status := 6, body := leBytes 4 (s.rspLimit r) }, s)
  else
    let x := s.hbmRead (s.slotKey 16) (s.fld HBM_RESERVE_granule * 2 ^ 30 + off) n
    (some { body := x.1 }, x.2.2)

/-- DUMP_READ, 0x0B03. -/
def execDumpRead (s : State) : Res := .next (s.serve 0x0B03 12 [] false false fun r s => s.dumpRead r)

/-- DUMP_TRIGGER: of the stand byte 8 names, or of the package. -/
def State.dumpTrigger (s : State) (r : Req) : Option Reply × State :=
  if 16 ≤ r.stand ∧ r.stand ≠ 0xFF then (some (.of 4), s)
  else (some {}, s.askDump { stand := r.stand, cause := 1, time := (s.rd RING_TIME).toNat })

/-- DUMP_TRIGGER, 0x0B04. -/
def execDumpTrigger (s : State) : Res := .next (s.serve 0x0B04 0 [] false false fun r s => s.dumpTrigger r)

end Sys2Proof.Machine
end

