-- ==== Sys2Proof/Machine/FwOps.lean ====
section
/-! DEFINITION. The firmware opcodes (13_mailbox_opcodes.md, family 0x08) and the activation pause (17_firmware_update.md). -/

namespace Sys2Proof.Machine

/-! ### The chain and transfers (R445-R451) -/

/-- FW_CHAIN_SET (R449): a node number, or 0xFFFF for the last Crown, and the limbs toward it. -/
def State.fwChainSet (s : State) (r : Req) : Option Reply × State :=
  let node := r.arg 0 2
  let limbs := r.arg 2 3
  if (4095 < node ∧ node ≠ 0xFFFF) ∨ 2 ^ 18 ≤ limbs then (some (.of 4), s)
  else if s.transferring then (some (.of 7), s)
  else (some {}, s.onFw fun f => { f with nextNode := node, limbs })

/-- FW_CHAIN_SET, 0x0801. -/
def execFwChainSet (s : State) : Res := .next (s.serve 0x0801 5 [] false false fun r s => s.fwChainSet r)

/-- FW_HEADER (R446): a half of the header; results 0 and 1 are OK. A transfer in progress, or an activation accepted, refuses it (log entry
56). -/
def State.fwHeader (s : State) (chk : HeaderCheck) (r : Req) : Option Reply × State :=
  if s.transferring || s.fw.activate then (some (.of 7), s)
  else
    let x := s.takeHeaderHalf r.payload chk
    (some { status := if x.1 ≤ 1 then 0 else 4, body := leBytes 1 x.1 }, x.2)

/-- FW_HEADER, 0x0802. -/
def execFwHeader (chk : HeaderCheck) (s : State) : Res := .next (s.serve 0x0802 4096 [] false false fun r s => s.fwHeader chk r)

/-- Whether a piece would begin, or complete, a third record while two wait for storage (R448). -/
def State.thirdRecord (s : State) (n o len : Nat) : Bool :=
  decide (2 ≤ s.fw.complete.length) &&
    (match s.fw.parts.find? fun e => e.1 == n with
     | none => true
     | some e => decide (recordBytes ≤ len + ((e.2.filter fun x => x.1 != o).map fun x => x.2.length).sum))

/-- FW_PIECE (R368, R448): a block that arrives before an accepted header is discarded. -/
def State.fwPiece (s : State) (r : Req) : Option Reply × State :=
  let n := r.arg 0 4
  let o := r.arg 4 4
  let len := r.arg 8 4
  let done := fun (s : State) => some ({ body := leBytes 4 (s.fld FLASH_XFER_blocks_stored) } : Reply)
  if 4080 < len ∨ recordBytes < o + len ∨ !r.clean (16 + len) [] then (some (.of 4), s)
  else if !s.transferring then (done s, s)
  else if s.fld FLASH_XFER_blocks_total ≤ n then (some (.of 4), s)
  else if s.thirdRecord n o len then (some { status := 1, retry := 1 }, s)
  else
    let s := s.takePiece n o (padTo len ((r.payload.drop 16).take len))
    (done s, s)

/-- FW_PIECE, 0x0803. -/
def execFwPiece (s : State) : Res := .next (s.serve 0x0803 4096 [(12, 4)] false false fun r s => s.fwPiece r)

/-- The progress record. -/
def State.fwProgressRecord (s : State) : List Byte :=
  [FLASH_STATUS, FLASH_XFER, FLASH_JOURNAL, FLASH_POLICY].flatMap fun a => leBytes 8 (s.rd a).toNat

/-- FW_STATUS, 0x0804. -/
def execFwStatus (s : State) : Res :=
  .next (s.serve 0x0804 0 [] false false fun _ s => (some { body := s.fwProgressRecord }, s))

/-- FW_ABORT, 0x0806 (R451). -/
def execFwAbort (s : State) : Res := .next (s.serve 0x0806 0 [] false false fun _ s => (some {}, s.abortTransfer))

/-- FW_POLICY, 0x0807 (R453). -/
def execFwPolicy (s : State) : Res :=
  .next (s.serve 0x0807 1 [] false false fun r s =>
    (some {}, s.writeReg s.holder FLASH_POLICY (BitVec.ofNat 64 (r.arg 0 1 % 16))))

/-! ### Activation (R453-R456) -/

/-- Stand migration (*Activation refusals*). -/
def State.migrating (s : State) : Bool :=
  (List.range 16).any (fun st => s.standState st == 1 || s.standState st == 3 || s.standState st == 4)
    || s.hw.admin.any (fun a => a.req.opcode == 0x0202) || decide (s.fld NI_DRAIN_state ≠ 0)

/-- The first refusal cause that holds; 0 with none (*Activation refusals*). -/
def State.actCause (s : State) : Nat :=
  if s.journal.stateOf s.inactiveBank ≠ 2 then 1
  else if s.flag FLASH_POLICY_owner_lock then 2
  else if s.flag FLASH_POLICY_refuse_ramp && (s.flag PWR_STATUS_ramp || s.flag PWR_STATUS_brake || decide (s.fld PWR_STATUS_steps_left ≠ 0)) then 3
  else if s.flag FLASH_POLICY_refuse_holdup && !s.flag PWR_HOLDUP_holdup_ok then 4
  else if s.flag FLASH_POLICY_refuse_migration && s.migrating then 5
  else if s.flag MBX_RED_STATUS_takeover_running || s.hw.planned.isSome || s.flag MBX_RED_STATUS_drill_running then 6
  else 0

/-- FW_ACTIVATE (R453, R454): accepted, the pause begins at the next guard band. -/
def State.fwActivate (s : State) : Option Reply × State :=
  let c := s.actCause
  let s := s.setFld FLASH_XFER_act_cause c
  if c ≠ 0 then (some { status := 7, body := leBytes 1 c }, s)
  else (some { body := leBytes 1 0 }, (s.onFw fun f => { f with activate := true }).xferState 4)

/-- FW_ACTIVATE, 0x0805. -/
def execFwActivate (s : State) : Res := .next (s.serve 0x0805 0 [] false false fun _ s => s.fwActivate)

/-- The pause succeeds: the new image runs, and the floor rises to the running image's arb (R452). The transfer state it leaves is
idle (log entry 56). -/
def State.pauseDone (s : State) (b : Nat) : State :=
  let id := s.bankIdent b
  let s := ((s.showImage id.1 id.2).setFlag FLASH_STATUS_phy_pending true).onFw fun f => { f with activate := false }
  ((s.raiseFloor id.2).onHw fun h => { h with telemetry := none }).xferState 0

/-- A failed pause (R455): Taproot makes the old bank active again, and the stored image stays in its bank. -/
def State.pauseBack (s : State) (old : Nat) (oldStarts : Bool) : State :=
  let s := s.activateBank old 3 2 3 0
  let s := ((s.onFw fun f => { f with activate := false }).onHw fun h => { h with telemetry := none }).xferState 6
  if oldStarts then s else s.enterSafeHold

/-- ACTIVATION_PAUSE (R454, R455): the record of step 1, then whether the new images start, and if not the old ones. -/
def execActivationPause (newStarts oldStarts : Bool) (s : State) : Res :=
  s.when (s.powered && s.hw.pausing && s.fw.activate)
    (let old := s.journal.active
     let b := s.inactiveBank
     let s := s.activateBank b 3 3 2 (s.rd RING_TIME).toNat
     if newStarts then s.pauseDone b else s.pauseBack old oldStarts)

end Sys2Proof.Machine
end

