-- ==== Sys2Proof/Machine/Manage.lean ====
section
/-! DEFINITION. Identity, calendar, log, locate and redundancy opcodes (13_mailbox_opcodes.md, families 0x09 and 0x0A). -/

namespace Sys2Proof.Machine

/-! ### Identity (R437) -/

/-- IDENTITY, 0x0901. -/
def execIdentity (s : State) : Res :=
  .next (s.serve 0x0901 0 [] false false fun _ s => (some { body := s.identityBody }, s))

/-- A die entry of the identity record. -/
def State.dieEntry (s : State) (d : Nat) : List Byte :=
  let w := (s.rd (ID_DIE d)).toNat
  leBytes 1 d ++ [0#8] ++ leBytes 6 (bitsOf w 47 0) ++ leBytes 1 (bitsOf w 62 58) ++ leBytes 1 (bitsOf w 52 48)
    ++ leBytes 1 (bitsOf w 57 53) ++ List.replicate 5 0#8

/-- A stack entry. -/
def State.stackEntry (s : State) (k : Nat) : List Byte :=
  leBytes 1 k
    ++ leBytes 1 (bit (bitOf (s.fld HBM_STATUS_trained) k) + 2 * bit (bitOf (s.fld HBM_STATUS_bist_pass) k)
        + 4 * bit (s.hbm.fenced.contains (k / 3)))
    ++ padTo 22 (s.fuses.stackIds.getD k []) ++ leBytes 2 (s.fuses.rowsLeft.getD k 0) ++ List.replicate 6 0#8

/-- A spare entry. -/
def State.spareEntry (s : State) (t : Nat) : List Byte :=
  leBytes 5 (s.fld (ID_FUSE_SPARE_bad_mask t)) ++ leBytes 1 (s.fld (ID_FUSE_SPARE_fuse_spare t)) ++ leBytes 2 0

/-- The 1,664-byte identity record. -/
def State.identityRecord (s : State) : List Byte :=
  leBytes 2 1 ++ leBytes 2 1664 ++ leBytes 8 (s.rd (ID_SERIAL 0)).toNat ++ leBytes 8 (s.rd (ID_SERIAL 1)).toNat
    ++ leBytes 8 (s.rd (ID_SERIAL 2)).toNat ++ leBytes 4 0 ++ (List.range 6).flatMap s.dieEntry ++ (List.range 12).flatMap s.stackEntry
    ++ (List.range 144).flatMap s.spareEntry

/-- IDENTITY_RECORD: bytes of the record. -/
def State.identityPart (s : State) (r : Req) : Option Reply × State :=
  let o := r.arg 0 2
  let n := r.arg 2 2
  if 1664 < o + n then (some (.of 4), s)
  else (some (tableReply (s.rspLimit r) 1 n [] ((s.identityRecord.drop o).take n)), s)

/-- IDENTITY_RECORD, 0x0902. -/
def execIdentityRecord (s : State) : Res := .next (s.serve 0x0902 4 [] false false fun r s => s.identityPart r)

/-! ### The calendar (R354-R358) -/

/-- Set the calendar: it continues after a set also where it had stopped at its end, and the set is logged (R353, R358). -/
def State.setCalendar (s : State) (us : Nat) : State :=
  let s := s.onHw fun h => { h with calBase := us, calRef := s.refNow }
  (((s.setFlag MBX_CAL_STATUS_valid true).setFlag MBX_CAL_STATUS_at_end false).setFld MBX_CAL_STATUS_set_ring s.ring).logOther 1 0xFF

/-- CAL_SET (R356). -/
def State.calSet (s : State) (r : Req) : Option Reply × State :=
  let b := padTo 12 (r.payload.take 12)
  if stampOk b then (some {}, s.setCalendar (stampToUs b)) else (some (.of 5), s)

/-- CAL_SET, 0x0903. -/
def execCalSet (s : State) : Res := .next (s.serve 0x0903 12 [] false false fun r s => s.calSet r)

/-- The CAL_READ response. -/
def State.calBody (s : State) : List Byte :=
  s.calendarStamp ++ leBytes 1 (s.fld MBX_CAL_STATUS_valid + 2 * s.fld MBX_CAL_STATUS_at_end) ++ leBytes 3 0
    ++ leBytes 8 (s.rd RING_TIME).toNat

/-- CAL_READ, 0x0904. -/
def execCalRead (s : State) : Res := .next (s.serve 0x0904 0 [] false false fun _ s => (some { body := s.calBody }, s))

/-! ### LOG_READ and LOCATE -/

/-- LOG_READ (R353): entries from a log_seq, the oldest first; entries no longer held are skipped. -/
def State.logRead (s : State) (r : Req) : Option Reply × State :=
  let first := r.arg 0 4
  let n := r.arg 4 2
  if n = 0 ∨ 63 < n then (some (.of 4), s)
  else
    let es := ((s.hw.log.filter fun e => decide (first ≤ e.seq)).reverse).take n
    let start := (es.head?.map (·.seq)).getD first
    let head := leBytes 4 start ++ leBytes 2 es.length ++ List.replicate 10 0#8
    (some (tableReply (s.rspLimit r) 64 es.length head (es.flatMap LogEntry.toBytes)), s)

/-- LOG_READ, 0x0905. -/
def execLogRead (s : State) : Res := .next (s.serve 0x0905 6 [] false false fun r s => s.logRead r)

/-- LOCATE (*Identity, calendar and log opcodes*): off, steady or blinking, for a number of seconds, 0 until changed. -/
def State.locate (s : State) (r : Req) : Option Reply × State :=
  let mode := r.arg 0 1
  if 2 < mode then (some (.of 4), s)
  else (some {}, s.onPins fun p => { p with led := mode, ledLeft := if mode = 0 then 0 else r.arg 2 2 })

/-- LOCATE, 0x0906. -/
def execLocate (s : State) : Res := .next (s.serve 0x0906 4 [(1, 1)] false false fun r s => s.locate r)

/-- LOCATE_EXPIRE: the duration has run out. -/
def execLocateExpire (s : State) : Res :=
  s.when (decide (s.pins.led ≠ 0) && decide (s.pins.ledLeft ≠ 0)) (s.onPins fun p => { p with led := 0, ledLeft := 0 })

/-! ### Redundancy, 0x0Axx -/

/-- The RED_STATUS response. -/
def State.redBody (s : State) : List Byte :=
  leBytes 1 s.token
    ++ leBytes 1 (s.fld MBX_RED_STATUS_a_healthy + 2 * s.fld MBX_RED_STATUS_b_healthy + 4 * s.fld MBX_RED_STATUS_drill_running) ++ leBytes 2 0
    ++ leBytes 4 (s.fld MBX_RED_STATUS_takeovers) ++ leBytes 1 (s.fld MBX_RED_STATUS_last_cause) ++ leBytes 7 0
    ++ leBytes 8 (s.rd MBX_RED_LAST).toNat

/-- RED_STATUS, 0x0A01. -/
def execRedStatus (s : State) : Res := .next (s.serve 0x0A01 0 [] false false fun _ s => (some { body := s.redBody }, s))

/-- SWAP_DRILL (R384): the planned transfer of step 2 is due at the next boundary. -/
def State.swapDrill (s : State) (r : Req) : Option Reply × State :=
  let hold := r.arg 0 2
  if hold < 16 ∨ 4096 < hold then (some (.of 4), s)
  else if !s.healthy (otherNo s.token) || s.flag MBX_RED_STATUS_takeover_running || s.hw.drill.isSome || s.transferring || s.fw.activate then
    (some (.of 7), s)
  else
    let t := (s.setFlag MBX_RED_STATUS_drill_running true).onHw fun h => { h with drill := some (s.rings, hold, 0) }
    (some { body := leBytes 1 s.token }, t.plan 5 (s.rings + 1))

/-- SWAP_DRILL, 0x0A02. -/
def execSwapDrill (s : State) : Res := .next (s.serve 0x0A02 2 [] false false fun r s => s.swapDrill r)

/-- LEAF_REMAP (R88, R89, R389): Heartwood writes TWIG_REMAP and then clears the slot's fault bit. -/
def State.leafRemap (s : State) (r : Req) : Option Reply × State :=
  let t := r.arg 0 1
  let i := r.arg 1 1
  if 144 ≤ t ∨ 32 ≤ i then (some (.of 4), s)
  else if s.flag TWIG_REMAP_busy then (some { status := 1, retry := 1 }, s)
  else if (s.spareOf t).isNone ∧ !bitOf (s.fld (TWIG_LEAF_FAULT_slot_fault t)) i then (some (.of 7), s)
  else (some {}, (s.writeReg s.holder TWIG_REMAP (BitVec.ofNat 64 (t * 256 + i))).clearLeafFault t i)

/-- LEAF_REMAP, 0x0A03. -/
def execLeafRemap (s : State) : Res := .next (s.serve 0x0A03 2 [] false false fun r s => s.leafRemap r)

/-- LEAF_RESTORE (R90): of a position that is out of service. -/
def State.leafRestore (s : State) (r : Req) : Option Reply × State :=
  let t := r.arg 0 1
  let p := r.arg 1 1
  if 144 ≤ t ∨ 33 ≤ p then (some (.of 4), s)
  else if s.flag TWIG_REMAP_busy then (some { status := 1, retry := 1 }, s)
  else if (s.spareOf t).isSome then (some (.of 7), s)
  else if !s.isOos t p then (some (.of 4), s)
  else (some {}, s.writeReg s.holder TWIG_REMAP (BitVec.ofNat 64 (65536 + t * 256 + p)))

/-- LEAF_RESTORE, 0x0A04. -/
def execLeafRestore (s : State) : Res := .next (s.serve 0x0A04 2 [] false false fun r s => s.leafRestore r)

end Sys2Proof.Machine
end

