-- ==== Sys2Proof/Machine/Pcie.lean ====
section
/-! DEFINITION. The PCIe endpoint (19_external_interfaces.md): its resets, SR-IOV settings, power management and wakes. -/

namespace Sys2Proof.Machine

/-- The identity registers of a function: PF0 is function 0, the VF of stand *s* is function *s* + 1 (R481, R482). -/
def State.functionId (s : State) (fn : Nat) : PcieId := if fn = 0 then s.pcie.pf0Id else s.pcie.vfId

/-- Device Serial Number of PF0 and every VF: bytes 4-11 of the package serial (R482). -/
def State.deviceSerial (s : State) : List Byte := (s.fuses.serial.drop 4).take 8

/-- The endpoint's clock enable, as committed: without a clock the link is down, with it again the link trains (R55). -/
def State.clockEndpoint (s : State) : State :=
  if s.pcie.link && !bitOf s.gates 14 then s.resetEndpoint
  else if !s.pcie.link && !s.pcie.l2 then s.trainLink
  else s

/-- PERST_N_ASSERT (R484). -/
def execPerstNAssert (s : State) : Res :=
  s.when (s.pinsLive && !s.pcie.perst) ((s.onPcie fun p => { p with perst := true }).resetEndpoint)

/-- PERST_N_DEASSERT (R484, R487): WAKE_N ends. -/
def execPerstNDeassert (s : State) : Res :=
  s.when (s.pinsLive && s.pcie.perst)
    ((s.onPcie fun p => { p with perst := false }).trainLink.setFlag PWR_WAKE_wake_n false)

/-- PCIE_HOT_RESET (R484): also a link-down. The link trains again. -/
def execPcieHotReset (s : State) : Res := s.when (s.pcie.link || s.pcie.l2) s.resetEndpoint.trainLink

/-- Whether the VF of a stand exists (R482, R483). -/
def State.vfExists (s : State) (st : Nat) : Bool := s.pcie.vfEnable && decide (st < s.pcie.numVfs)

/-- PCIE_FLR (R314, R343). -/
def execPcieFlr (st : Nat) (s : State) : Res := s.when (decide (st < 16) && s.pcie.link && s.vfExists st) (s.functionReset st)

/-- VF_ENABLE_CHANGE (R483): every VF that disappears takes a function-level reset. -/
def execVfEnableChange (enable : Bool) (numVfs : Nat) (s : State) : Res :=
  s.when (s.pcie.link && decide (numVfs ≤ 16))
    (let gone := (List.range 16).filter fun st => s.vfExists st && !(enable && decide (st < numVfs))
     (s.forEach gone fun st s => s.functionReset st).onPcie fun p => { p with vfEnable := enable, numVfs })

/-- PMCSR_WRITE (R486, R488): the power state of PF0, PME_En, and PME_Status cleared by a write of 1. -/
def execPmcsrWrite (d3 pmeEn clearPme : Bool) (s : State) : Res :=
  s.when s.pcie.link (s.onPcie fun p => { p with d3, pmeEn, pmeStatus := p.pmeStatus && !clearPme })

/-- PME_TURN_OFF (R486): the link goes to L2. -/
def execPmeTurnOff (s : State) : Res := s.when s.pcie.link (s.onPcie fun p => { p with link := false, width := 0, rate := 0, l2 := true })

/-- PM_PME_SEND (R487, R488): the send opportunity of a pending wake, with the link up. -/
def execPmPmeSend (s : State) : Res :=
  s.when (s.pcie.pmeDue && s.pcie.link)
    (let s := s.onPcie fun p => { p with pmeDue := false }
     if s.pcie.d3 && s.pcie.pmeEn then
       ((s.emit .pme).onPcie fun p => { p with pmeStatus := true }).setFlag PWR_WAKE_pme_sent true
     else s.setFlag PWR_WAKE_collided true)

end Sys2Proof.Machine
end

