-- ==== Sys2Proof/Machine/I3cPort.lean ====
section
/-! DEFINITION. The I3C management port (19_external_interfaces.md, R489-R497): private frames, registers, addresses and common command
codes. It runs in the always-on domain. -/

namespace Sys2Proof.Machine

/-- A status byte and the data of a private read (R495). -/
def State.i3cRead (s : State) (status : Nat) (data : List Byte) : State := s.emit (.i3c (leBytes 1 status ++ data))

/-! ### Private frames (R495) -/

/-- A request slot enters the I3C mailbox's one request slot. -/
def State.postI3c (s : State) (slot : List Byte) : State :=
  ((s.store (mbxAt 17 + 0x1000) slot).countWrap (MBX_REQ_STATE_tail_seen 17) 1).onI3c fun i => { i with busy := true }

/-- I3C_REQ: discarded with req_busy while the previous request has no response. -/
def execI3cReq (slot : List Byte) (s : State) : Res :=
  s.when (s.boot.vaux && slot.length == 64)
    (if s.i3c.busy then s.i3cRead 2 [] else (s.postI3c slot).i3cRead 0 [])

/-- I3C_RSP: the first slot of the oldest unread pair; both slots are consumed. -/
def execI3cRsp (s : State) : Res :=
  s.when s.boot.vaux
    (match s.i3c.rsp with
     | [] => s.i3cRead 0 []
     | x :: rest =>
       let retire := s.fld (MBX_REQ_STATE_head 17)
       let s := (s.setFld (MBX_REQ_RETIRE_retire 17) retire).setFld (MBX_REQ_STATE_retire_seen 17) retire
       (s.onI3c fun i => { i with rsp := rest }).i3cRead 1 x)

/-- I3C_EVT: the oldest unread event, which leaves its place in the ring. -/
def execI3cEvt (s : State) : Res :=
  s.when s.boot.vaux
    (match s.i3c.evt with
     | [] => s.i3cRead 0 []
     | x :: rest =>
       let s := if s.fld (MBX_EVT_HEAD_head 17) = s.fld (MBX_EVT_STATE_tail 17) then s else s.countWrap (MBX_EVT_HEAD_head 17) 1
       (s.onI3c fun i => { i with evt := rest }).i3cRead 1 x)

/-! ### Registers (R496) -/

/-- The register a selector names (*I3C register selectors*). -/
def i3cRegister (selector : Nat) : Option Nat :=
  [PWR_STATUS, PWR_THERM0, PWR_THERM1, PWR_THERM_HBM 0, PWR_THERM_HBM 1, PWR_TRIP_REC, PWR_POWER, PWR_WAKE, ID_PART, ID_BOOT,
   ID_RESET_COUNT, ID_RESET, ID_I3C][selector]?

/-- Whether a register has no power: without VIN only the always-on ones have (R490). -/
def State.noPower (s : State) (a : Nat) : Bool := !s.boot.vin && !alwaysOn a

/-- I3C_REG_RD. -/
def execI3cRegRd (selector : Nat) (s : State) : Res :=
  s.when s.boot.vaux
    (match i3cRegister selector with
     | none => s.i3cRead 8 []
     | some a => if s.noPower a then s.i3cRead 4 [] else s.i3cRead 1 (leBytes 8 (s.readReg a).toNat))

/-- I3C_REG_WR: a write as PF0 would make it. -/
def execI3cRegWr (selector : Nat) (v : Word) (s : State) : Res :=
  s.when s.boot.vaux
    (match i3cRegister selector with
     | none => s.i3cRead 8 []
     | some a => if s.noPower a then s.i3cRead 4 [] else (s.writeFrom .i3c a 8 v).i3cRead 0 [])

/-! ### Addresses and common command codes (R490-R494) -/

/-- A broadcast address has been seen: the port is in I3C mode (R490). -/
def State.seen7e (s : State) : State := s.setFlag ID_I3C_i2c_mode false

/-- A CCC that answers with bytes. -/
def State.ccc (s : State) (bytes : List Byte) : State := s.seen7e.emit (.i3c bytes)

/-- The provisional ID, the most significant byte first. -/
def State.pidBytes (s : State) : List Byte := (leBytes 6 (s.fld ID_I3C_pid)).reverse

/-- ENTDAA (R492): a pass of the assignment; a Crown without a dynamic address that wins the arbitration takes the address. -/
def execEntdaa (winning : Bool) (addr : Nat) (s : State) : Res :=
  s.when s.boot.vaux
    (let s := s.seen7e
     if s.flag ID_I3C_dyn_valid || !winning then s
     else ((s.setFlag ID_I3C_dyn_valid true).setFld ID_I3C_dyn_addr addr).emit (.i3c (s.pidBytes ++ [0x06#8, 0x00#8])))

/-- SETNEWDA (R494): to its dynamic address, of which it has none before one is assigned. -/
def execSetnewda (addr : Nat) (s : State) : Res :=
  s.when s.boot.vaux
    (let s := s.seen7e
     if s.flag ID_I3C_dyn_valid then s.setFld ID_I3C_dyn_addr addr else s)

/-- RSTDAA (R490). -/
def execRstdaa (s : State) : Res :=
  s.when s.boot.vaux (((s.setFlag ID_I3C_dyn_valid false).setFld ID_I3C_dyn_addr 0).setFlag ID_I3C_i2c_mode true)

/-- ENEC and DISEC set or clear the enables they name. -/
def State.i3cEnables (s : State) (ibi hotJoin on : Bool) : State :=
  let s := if ibi then s.setFlag ID_I3C_ibi_en on else s
  if hotJoin then s.setFlag ID_I3C_hj_en on else s

/-- ENEC (R494). -/
def execEnec (ibi hotJoin : Bool) (s : State) : Res := s.when s.boot.vaux (s.seen7e.i3cEnables ibi hotJoin true)

/-- DISEC (R494). -/
def execDisec (ibi hotJoin : Bool) (s : State) : Res := s.when s.boot.vaux (s.seen7e.i3cEnables ibi hotJoin false)

/-- GETPID (R491). -/
def execGetpid (s : State) : Res := s.when s.boot.vaux (s.ccc s.pidBytes)

/-- GETBCR (R491). -/
def execGetbcr (s : State) : Res := s.when s.boot.vaux (s.ccc [0x06#8])

/-- GETDCR (R491). -/
def execGetdcr (s : State) : Res := s.when s.boot.vaux (s.ccc [0x00#8])

/-- Whether a response or an event is unread. -/
def State.i3cUnread (s : State) : Bool := !s.i3c.rsp.isEmpty || !s.i3c.evt.isEmpty

/-- GETSTATUS (R494; its two bytes, log entry 57). -/
def execGetstatus (s : State) : Res := s.when s.boot.vaux (s.ccc (0x00#8 :: leBytes 1 (bit s.i3cUnread)))

/-- GETMWL (R494; log entry 57). -/
def execGetmwl (s : State) : Res := s.when s.boot.vaux (s.ccc (leBytes 2 s.i3c.mwl).reverse)

/-- GETMRL (R494; log entry 57). -/
def execGetmrl (s : State) : Res := s.when s.boot.vaux (s.ccc (leBytes 2 s.i3c.mrl).reverse)

/-- SETMWL (R494): accepted at 65 or more. -/
def execSetmwl (n : Nat) (s : State) : Res :=
  s.when s.boot.vaux (s.seen7e.onI3c fun i => { i with mwl := if 65 ≤ n then n else i.mwl })

/-- SETMRL (R494): accepted at 65 or more. -/
def execSetmrl (n : Nat) (s : State) : Res :=
  s.when s.boot.vaux (s.seen7e.onI3c fun i => { i with mrl := if 65 ≤ n then n else i.mrl })

/-- HOT_JOIN_REQUEST (R492): once, while no dynamic address is assigned and Hot-Join is enabled. -/
def execHotJoinRequest (s : State) : Res :=
  s.when (s.boot.vaux && s.flag ID_I3C_hj_en && !s.flag ID_I3C_dyn_valid && !s.i3c.hotJoin)
    ((s.onI3c fun i => { i with hotJoin := true }).emit .hotJoin)

/-- IBI_RAISE (R497): the causes noted since the last one. -/
def execIbiRaise (s : State) : Res :=
  s.when (s.boot.vaux && s.flag ID_I3C_ibi_en && s.flag ID_I3C_dyn_valid && decide (s.i3c.ibi ≠ 0))
    ((s.emit (.ibi s.i3c.ibi)).onI3c fun i => { i with ibi := 0 })

end Sys2Proof.Machine
end

