-- ==== Sys2Proof/Machine/Ring.lean ====
section
/-! DEFINITION. The ring (02_reference_clocks_ring.md): slot boundaries, the guard band, the ring boundary and RACK_SYNC. Each carries
what the spec ties to that moment; steps the table lists by themselves are their own commands. -/

namespace Sys2Proof.Machine

/-! ### Cycle counts (R461) -/

/-- The selection words in force that select an event. -/
def State.selecting (s : State) (lo hi ev : Nat) : List Nat :=
  (s.live.filter fun e => decide (lo ≤ e.1) && decide (e.1 < hi) && bitsOf e.2.toNat 6 0 == ev).map (·.1)

/-- The events true in every cycle, and of parked twigs, over `n` lclk of leaves and twig routers and `m` cycles of the I/O fabric. -/
def State.cycleEvents (s : State) (n m : Nat) : State :=
  let leaves := ((s.selecting (PERF_LEAF_SEL 0 0) (PERF_LEAF_SEL 4608 0) 1).map fun a => (a - PERF_LEAF_SEL 0 0) / 0x20).eraseDups
  let twigs := ((s.selecting (PERF_TWIG_SEL 0 0) (PERF_TWIG_SEL 144 0) 1).map fun a => (a - PERF_TWIG_SEL 0 0) / 0x40).eraseDups
  let parks := ((s.selecting (PERF_TWIG_SEL 0 0) (PERF_TWIG_SEL 144 0) 0x15).map fun a => (a - PERF_TWIG_SEL 0 0) / 0x40).eraseDups
  let limbs := ((s.selecting (PERF_LIMB_SEL 0 0) (PERF_LIMB_SEL 18 0) 1).map fun a => (a - PERF_LIMB_SEL 0 0) / 0x80).eraseDups
  let s := s.forEach leaves fun l s => if s.leavesOn (leafBough l) && !s.parked (l / 32) then s.leafEvent l 1 n 0 else s
  let s := s.forEach twigs fun t s => if s.leavesOn (t / 36) then s.twigEvent t 1 n 0 else s
  let s := s.forEach parks fun t s => if s.leavesOn (t / 36) && s.parked t then s.twigEvent t 0x15 n 0 else s
  s.forEach limbs fun l s => if s.powered && bitOf s.gates (12 + l / 9) then
      s.forEach (List.range 16) fun i s => s.selCount (PERF_LIMB_SEL l i) (PERF_LIMB_CTR l i) 1 m 0
    else s

/-! ### Slots -/

/-- Whether the ring counter runs. -/
def State.counting (s : State) : Bool := s.powered && s.clk.ringOn

/-- RING_TIME and the time in lclk at the start of a slot, by which knots and their mirrors have taken what was due (R172, R179). -/
def State.enterSlot (s : State) (k : Nat) : State :=
  let s := s.knotsTo (s.clk.lclk0 + k * s.slotLen)
  (s.setFld RING_TIME_ref_cycle (k * Config.slotRef s.period)).onClk fun c =>
    { c with slot := k, now := max c.now (c.lclk0 + k * s.slotLen) }

/-- Whether this ring admits: an epoch is valid that this ring did not establish (R39, R509), the package serves commands, and HBM is back from
a deep sleep since slot 0 (R197). -/
def State.admits (s : State) : Bool := s.epoch && !s.clk.establishing && s.serving && decide (s.clk.hbmFrom ≤ s.rings)

/-- SLOT_BOUNDARY (R149): slot `k` starts. The stand resets that take effect at its start come before its admission (R314). -/
def execSlotBoundary (k : Nat) (s : State) : Res :=
  s.when (s.counting && decide (k < 62) && decide (s.clk.slot ≤ k))
    (let s := { s.enterSlot k with fetched := [] }
     let s := s.dueResets k
     let s := if s.admits then s.admitSlot k else s
     (s.traceDrain (Config.slotRef s.period)).adminStep.rxRetry)

/-! ### The guard band (R45) -/

/-- The registers of rows that commit as they stand (R24): those of *Register access* whose text names a guard band and no other action. -/
def guardRows : List Nat :=
  [LIMB_KEY_MAP 0, LIMB_KEY_VALID 0, NI_NODE, NI_CFG, NI_FSLOT_MASK 0, NI_RANK_GRANT 0, NI_RANK_ENTRY 0, NI_MCAST_GROUP 0, COLL_SCHED 0 0,
   COLL_STAND_QUOTA 0, PERF_LEAF_SEL 0 0, PERF_TWIG_SEL 0 0, PERF_LIMB_SEL 0 0, STAND_MEM_SLOTS 0, STAND_SEED 0, TRC_STAND_EN]

/-- Whether a register commits as it stands. -/
def isGuardReg (a : Nat) : Bool :=
  match regRow a with
  | some r => guardRows.contains r.base
  | none => false

/-- Commit them. A register listed nowhere holds its reset value in both readings. -/
def State.commitRows (s : State) : State :=
  s.forEach (((s.regs.map (·.1)) ++ (s.live.map (·.1))).filter isGuardReg) fun a s => s.commitReg a

/-- What the tables of stands, memory, knots and channels commit (R24, R164, R191, R275, R280, R308, R311). -/
def State.commitTables (s : State) : State :=
  let s := s.commitRows
  let s := s.forEach allRegions fun e s => s.commitRegion e.1 e.2
  let s := s.forEach (List.range 4) fun b s => s.commitBbufs b
  let s := (s.forEach (List.range 256) fun g s => s.commitGranule g).dropGranuleTrigs
  let s := s.forEach (List.range 144) fun t s => s.commitTwig t
  let s := s.forEach (List.range 64) fun c s => s.commitChan c
  s.forEach (List.range 16) fun st s => (s.commitCfg st).commitStand st

/-- A drain that has released its work is committed at step 2 (R259 step 6). -/
def State.commitDrain (s : State) : State := if s.fld NI_DRAIN_state = 2 then s.setFld NI_DRAIN_state 3 else s

/-! GUARD_BAND takes the band through step 1 and opens step 2 with the commits; the rows of step 2 (REMAP_APPLY, LEAF_RESET, REGION_BECOMES_VALID,
CHAN_AREA_ZEROIZE_DONE, LEAF_WAVE_ENABLE, LEAF_WAVE_SCAN_DONE) and of step 3 (UPWARD_STEP, VDD_LC_FALL) act while their step is open. What is due and has not been done by its row is done
before a later step begins, at the latest at the ring boundary, so the order of R45 holds and nothing due is left out (log entry 74). -/

/-- Step 1: admission stops, what is left is dropped (R158), waiting samples are written (R467). -/
def State.bandStep1 (s : State) : State := s.dropLeaves.idleSamples

/-- Step 2: resets (R314), then the settings of R24, the clock enables (R56), the power state (R417), the envelope's change (R400), and an
accepted activation's pause (R454). -/
def State.bandStep2 (s : State) : State :=
  let s := s.bandResets.commitTables.commitGates.commitState.clockEndpoint.commitRamp.commitDrain
  if s.fw.activate then s.onHw fun h => { h with pausing := true } else s

/-- The rest of step 2: the remap, restore and leaf reset that are due (R88, R90, R425), the regions and areas whose granules are ready
(R207, R280), and the leaf waves of bring-up (R435). -/
def State.step2Rest (s : State) : State :=
  let s := if s.remapDue then s.remapNow else s
  s.restoreNow.leafResetNow.regionsDue.chansDue.wavesDue

/-- Step 3: the raised voltage of a step, and the switch that is due (R51, R401). -/
def State.openStep3 (s : State) : State :=
  if s.clk.band = 2 then ((s.step2Rest.onClk fun c => { c with band := 3 }).vddRise).switchDown else s

/-- The rest of step 3: the upward step and the fall of VDD_LC that are due (R400, R401). -/
def State.step3Rest (s : State) : State := s.upwardDue.vddFall

/-- Step 5: key loads (R199, R224), window closes (R465), zeroization (R96, R280). -/
def State.bandStep5 (s : State) : State := s.loadKeys.applyLimbKeys.closeWindows.bbufZeroize.collZeroize

/-- The guard band to its end: what is due of steps 2 and 3, then steps 5 and 6. -/
def State.bandEnd (s : State) : State :=
  (s.openStep3.step3Rest.onClk fun c => { c with band := 7 }).bandStep5.sendMarkers.showShares.adminBand.rxRetry

/-- The start of the guard band, at the start of slot 62: steps 1 and 2. The lock of the standby PLLs is looked at here (R52). -/
def State.bandStart (s : State) : State :=
  let s := s.cycleEvents (62 * s.fld RING_LCLK_slot_lclk) (62 * 16 * Config.slotRef s.period)
  let s := if s.clk.slot < 62 then s.enterSlot 62 else s
  let s := s.onClk fun c => { c with lockSeen := c.standbyLocked }
  (s.dueResets 62).bandStep1.bandStep2.onClk fun c => { c with band := 2 }

/-- GUARD_BAND (R45): once in a ring, also in a ring whose epoch was adopted in its last slots (R509). -/
def execGuardBand (s : State) : Res := s.when (s.counting && s.clk.band == 0) s.bandStart

/-- UPWARD_STEP (R401): in step 3 of its guard band. -/
def execUpwardStep (s : State) : Res :=
  s.when (s.counting && (s.clk.band == 2 || s.clk.band == 3)) s.openStep3.upwardDue

/-- VDD_LC_FALL (R400): in the guard band after the frequency fell. -/
def execVddLcFall (s : State) : Res :=
  s.when (s.counting && (s.clk.band == 2 || s.clk.band == 3)) s.openStep3.vddFall

/-! ### The ring boundary -/

/-- VIN, current and power as the package measures them (R396): sampled each ring, free (log entry 12). -/
def State.samplePower (s : State) : State :=
  (((s.setFld PWR_POWER_vin_mv (Config.reading 1 s.free)).setFld PWR_POWER_iin (Config.reading 2 s.free)).setFld
    PWR_POWER_power_w (Config.reading 3 s.free)).drawn

/-- Heartwood forwards RING_EVENT at most once per ring (R67). -/
def State.slipBoundary (s : State) : State :=
  if s.clk.slipDue && !s.hw.once.contains 0x0010 then
    (s.eventOnce 0x0010 2 0xFF (evData [(8, 4, s.fld RING_SLIP_COUNT_slip_count), (12, 2, s.fld RING_SLIP_COUNT_disagree_count),
      (14, 1, s.fld RING_SLIP_COUNT_last_limb), (15, 1, (s.rd RING_EVENT).toNat % 16)])).onClk fun c => { c with slipDue := false }
  else s

/-- An activation pause that has ended gives Heartwood back to its owners (R454). -/
def State.pauseBoundary (s : State) : State :=
  if s.hw.pausing && !s.fw.activate then (s.onHw fun h => { h with pausing := false }).postQueued else s

/-- Events that waited and are limited to once per ring go on in the next (R338). -/
def State.waitedEvents (s : State) : State := if s.hwActs && !s.hw.queued.isEmpty then s.postQueued else s

/-- What hardware does at every ring boundary (R371, R372, R410, R411, R470, R475). -/
def State.hardBoundary (s : State) : State :=
  let s := { s with granules := [] }.onHw fun h => { h with once := [] }
  let s := s.frostBoundary.traceRing.thermalBoundary.rampEnd.standbyForFall.pauseBoundary.redundancyBoundary.samplePower
  let s := s.niBoundary.hangBoundary
  if s.transferring then s.onFw fun f => { f with idleRings := f.idleRings + 1 } else s

/-- What the acting Heartwood does at every ring boundary (R67, R266, R347, R349, R389, R480). -/
def State.firmBoundary (s : State) : State :=
  s.waitedEvents.loadBoundary.sampleTelemetry.faultBoundary.slipBoundary.handleLeafFaults.startDump.showShares.adminStep.rxRetry

/-- The lclk in the ring in progress: exact, or with a switch in its guard band (R53) the slots at the old tier and a free rest. -/
def State.ringSpan (s : State) : Nat :=
  let n := s.fld RING_LCLK_ring_lclk
  if n = 0 then 62 * s.fld RING_LCLK_slot_lclk + s.freeWord.toNat % 8192 else n

/-- The new ring's time: the number rises, the spread setting written applies (R46), the PLLs are re-phased. -/
def State.nextRing (s : State) (span : Nat) : State :=
  let s := s.onClk fun c => { c with
    refTotal := c.refTotal + Config.ringRef s.period, rings := c.rings + 1, lclk0 := c.lclk0 + span,
    now := max c.now (c.lclk0 + span), slot := 0, band := 0, establishing := false }
  let s := (s.setFld RING_TIME_ring (s.ring + 1)).setFld RING_TIME_ref_cycle 0
  ((s.setFld CLK_SSC_CFG_cur_depth (s.fld CLK_SSC_CFG_ssc_depth)).setFld CLK_SSC_CFG_cur_div (s.fld CLK_SSC_CFG_ssc_div)).showRing

/-- RING_BOUNDARY (R45 step 7), in slot 62 or 63: the guard band has ended, with every action that was due in it. -/
def execRingBoundary (s : State) : Res :=
  s.when (s.counting && decide (62 ≤ s.clk.slot))
    (let s := (if s.clk.band = 0 then s.bandStart else s).bandEnd
     let span := s.ringSpan
     let s := s.knotsTo (s.clk.lclk0 + span)
     let s := s.drawn.cycleEvents (span - 62 * s.fld RING_LCLK_slot_lclk) (2 * 16 * Config.slotRef s.period)
     let s := s.traceDrain (2 * Config.slotRef s.period)
     ((s.nextRing span).hardBoundary).firmBoundary)

/-! ### RACK_SYNC (R34-R37, R509, R510) -/

/-- Whether the package is drained (R36): no segment admitted or executing, no scheduled packet queued in either NI. -/
def State.drained (s : State) : Bool :=
  s.leaves.all (fun e => e.2.queue.isEmpty) && !s.ni.txq.any fun p => p.sched && !p.sent

/-- The event RESYNC: accepted 0, refused 1. -/
def State.resyncEvent (s : State) (refused : Nat) : State :=
  s.eventOwner 0x0011 1 0xFF (evData [(8, 1, refused), (16, 8, (s.rd RING_TIME).toNat)])

/-- An accepted pulse (R37, R510): ring 0 counts from the first high sample, recognized in cycle 1; the period written takes effect. The calendar
does not move. -/
def State.acceptSync (s : State) (long : Bool) : State :=
  let ref := s.refNow
  let s := s.renumberFrost (s.ring + 1) 0
  let s := (s.drawn.cycleEvents (s.freeWord.toNat % 2 ^ 18) (s.drawn.freeWord.toNat % 2 ^ 18)).drawn
  let s := (s.setFld RING_STATUS_period (s.fld RING_CFG_period_pending)).wr RING_TIME 1#64
  let s := ((s.setFld RING_STATUS_epoch_valid 1).setFld RING_STATUS_epoch_src 1).setFlag RING_STATUS_sync_long long
  let s := (s.setFlag RING_STATUS_resync_refused false).setFlag RING_CFG_sync_arm false
  let s := s.onClk fun c => { c with
    refTotal := ref - 1, rings := c.rings + 1, lclk0 := c.now, slot := 0, band := 0, establishing := true }
  s.showRing.hardBoundary.firmBoundary.resyncEvent 0

/-- A refused pulse (R36). -/
def State.refuseSync (s : State) : State :=
  (((s.setFlag RING_EVENT_resync_refused true).setFlag RING_STATUS_resync_refused true).setFlag RING_CFG_sync_arm false).resyncEvent 1

/-- SYNC_PULSE (R35, R36, R63): sampled only while the ring counter runs. A pulse recognized in the reference cycle in which a reference failure is
declared is ignored and counted; its command comes before that of the failure. -/
def execSyncPulse (p : Pulse) (s : State) : Res :=
  s.when (s.counting && decide (0 < p.high))
    (if p.high = 1 ∨ p.failing ∨ (s.epoch ∧ !s.flag RING_CFG_sync_arm) then s.count RING_STATUS_sync_ignored 1
     else if !s.epoch ∨ s.drained then s.acceptSync (decide (8 < p.high))
     else s.refuseSync)

end Sys2Proof.Machine
end

