-- ==== Sys2Proof/Machine/Dispatch.lean ====
section
/-! DEFINITION. The meaning of every command: one arm per row of spec/opcode_table.json, each one call of its meaning. -/

namespace Sys2Proof.Machine

/-- The effect of a command on everything but the queue. -/
def exec (i : Instr) (s : State) : Host.Outcome State Fault Refusal :=
  match i with
  | .vinApplied => Sys2Proof.Machine.execVinApplied s
  | .vinLost => Sys2Proof.Machine.execVinLost s
  | .holdupCommitDone => Sys2Proof.Machine.execHoldupCommitDone s
  | .vauxRise => Sys2Proof.Machine.execVauxRise s
  | .vauxLoss => Sys2Proof.Machine.execVauxLoss s
  | .warmRstNAssert => Sys2Proof.Machine.execWarmRstNAssert s
  | .warmRstNDeassert => Sys2Proof.Machine.execWarmRstNDeassert s
  | .idResetWrite o v => Sys2Proof.Machine.execIdResetWrite o v s
  | .idResetEffect => Sys2Proof.Machine.execIdResetEffect s
  | .perstNAssert => Sys2Proof.Machine.execPerstNAssert s
  | .pcieHotReset => Sys2Proof.Machine.execPcieHotReset s
  | .pcieFlr stand => Sys2Proof.Machine.execPcieFlr stand s
  | .vfEnableChange enable numVfs => Sys2Proof.Machine.execVfEnableChange enable numVfs s
  | .pmcsrWrite d3 pmeEn clearPme => Sys2Proof.Machine.execPmcsrWrite d3 pmeEn clearPme s
  | .pmeTurnOff => Sys2Proof.Machine.execPmeTurnOff s
  | .pmPmeSend => Sys2Proof.Machine.execPmPmeSend s
  | .regulationUp => Sys2Proof.Machine.execRegulationUp s
  | .refEdgesPresent => Sys2Proof.Machine.execRefEdgesPresent s
  | .ioscTrimDone trim => Sys2Proof.Machine.execIoscTrimDone trim s
  | .monitorWindowsPassed => Sys2Proof.Machine.execMonitorWindowsPassed s
  | .taprootStageDone bank0 bank1 => Sys2Proof.Machine.execTaprootStageDone bank0 bank1 s
  | .heartwoodReady h => Sys2Proof.Machine.execHeartwoodReady h s
  | .tokenBFallback => Sys2Proof.Machine.execTokenBFallback s
  | .clockStageDone => Sys2Proof.Machine.execClockStageDone s
  | .hbmStageDone failedTwice => Sys2Proof.Machine.execHbmStageDone failedTwice s
  | .bringupStageTimeout cause => Sys2Proof.Machine.execBringupStageTimeout cause s
  | .leafStageStart => Sys2Proof.Machine.execLeafStageStart s
  | .leafWaveEnable wave => Sys2Proof.Machine.execLeafWaveEnable wave s
  | .leafWaveScanDone wave failed => Sys2Proof.Machine.execLeafWaveScanDone wave failed s
  | .bringupComplete bootMs => Sys2Proof.Machine.execBringupComplete bootMs s
  | .syncPulse pulse => Sys2Proof.Machine.execSyncPulse pulse s
  | .slotBoundary slot => Sys2Proof.Machine.execSlotBoundary slot s
  | .guardBand => Sys2Proof.Machine.execGuardBand s
  | .ringBoundary => Sys2Proof.Machine.execRingBoundary s
  | .faultEntryFree entry => Sys2Proof.Machine.execFaultEntryFree entry s
  | .monitorWindowEnd count => Sys2Proof.Machine.execMonitorWindowEnd count s
  | .edgeTimeout => Sys2Proof.Machine.execEdgeTimeout s
  | .pllUnlock => Sys2Proof.Machine.execPllUnlock s
  | .pllLock => Sys2Proof.Machine.execPllLock s
  | .safeHoldEnter => Sys2Proof.Machine.execSafeHoldEnter s
  | .clkGateWrite set v => Sys2Proof.Machine.execClkGateWrite set v s
  | .registerWrite o addr size v => Sys2Proof.Machine.execRegisterWrite o addr size v s
  | .cqDoorbellTail stand queue v lastQuarter => Sys2Proof.Machine.execCqDoorbellTail stand queue v lastQuarter s
  | .cqResume stand queue v lastQuarter => Sys2Proof.Machine.execCqResume stand queue v lastQuarter s
  | .descriptorFetch stand queue => Sys2Proof.Machine.execDescriptorFetch stand queue s
  | .nop leaf => Sys2Proof.Machine.execNop leaf s
  | .matmul leaf => Sys2Proof.Machine.execMatmul leaf s
  | .accSave leaf => Sys2Proof.Machine.execAccSave leaf s
  | .accRestore leaf => Sys2Proof.Machine.execAccRestore leaf s
  | .vecMap leaf => Sys2Proof.Machine.execVecMap leaf s
  | .vecSfu leaf => Sys2Proof.Machine.execVecSfu leaf s
  | .vecReduce leaf => Sys2Proof.Machine.execVecReduce leaf s
  | .attnInit leaf => Sys2Proof.Machine.execAttnInit leaf s
  | .attnTile leaf => Sys2Proof.Machine.execAttnTile leaf s
  | .attnFinal leaf => Sys2Proof.Machine.execAttnFinal leaf s
  | .attnSave leaf => Sys2Proof.Machine.execAttnSave leaf s
  | .attnLoad leaf => Sys2Proof.Machine.execAttnLoad leaf s
  | .moveLocal leaf => Sys2Proof.Machine.execMoveLocal leaf s
  | .moveRemote leaf upsets => Sys2Proof.Machine.execMoveRemote leaf upsets s
  | .subdescComplete leaf t => Sys2Proof.Machine.execSubdescComplete leaf t s
  | .commandComplete stand queue index => Sys2Proof.Machine.execCommandComplete stand queue index s
  | .leafPacketAtRouter twig phys stamp => Sys2Proof.Machine.execLeafPacketAtRouter twig phys stamp s
  | .twigRemapWrite o v => Sys2Proof.Machine.execTwigRemapWrite o v s
  | .twigRestoreWrite o v => Sys2Proof.Machine.execTwigRestoreWrite o v s
  | .remapApply => Sys2Proof.Machine.execRemapApply s
  | .restoreBistDone pass => Sys2Proof.Machine.execRestoreBistDone pass s
  | .idLeafResetWrite o v => Sys2Proof.Machine.execIdLeafResetWrite o v s
  | .leafReset leaf => Sys2Proof.Machine.execLeafReset leaf s
  | .twigBbufRegionWrite bough stand v => Sys2Proof.Machine.execTwigBbufRegionWrite bough stand v s
  | .knotAdd o knot data t => Sys2Proof.Machine.execKnotAdd o knot data t s
  | .knotSet o knot data t => Sys2Proof.Machine.execKnotSet o knot data t s
  | .knotSignal o knot data t => Sys2Proof.Machine.execKnotSignal o knot data t s
  | .knotArrive o knot t => Sys2Proof.Machine.execKnotArrive o knot t s
  | .knotThreshWrite o knot v t => Sys2Proof.Machine.execKnotThreshWrite o knot v t s
  | .knotConfigWrite o knot v t => Sys2Proof.Machine.execKnotConfigWrite o knot v t s
  | .knotTest o knot word => Sys2Proof.Machine.execKnotTest o knot word s
  | .knotUpdateApply knot t => Sys2Proof.Machine.execKnotUpdateApply knot t s
  | .knotRefire knot t => Sys2Proof.Machine.execKnotRefire knot t s
  | .mirrorApply knot t => Sys2Proof.Machine.execMirrorApply knot t s
  | .fireMessageReceive io knot t => Sys2Proof.Machine.execFireMessageReceive io knot t s
  | .hbmRegionWrite stand region v => Sys2Proof.Machine.execHbmRegionWrite stand region v s
  | .hbmReserveWrite v => Sys2Proof.Machine.execHbmReserveWrite v s
  | .pf0Bar0Access addr op upsets => Sys2Proof.Machine.execPf0Bar0Access addr op upsets s
  | .vfBar0Access stand addr op upsets => Sys2Proof.Machine.execVfBar0Access stand addr op upsets s
  | .granuleFillStart granule => Sys2Proof.Machine.execGranuleFillStart granule s
  | .granuleFillDone granule => Sys2Proof.Machine.execGranuleFillDone granule s
  | .regionBecomesValid stand region => Sys2Proof.Machine.execRegionBecomesValid stand region s
  | .patrolScrubLine line found => Sys2Proof.Machine.execPatrolScrubLine line found s
  | .rowCopyDone stack row => Sys2Proof.Machine.execRowCopyDone stack row s
  | .thermalSample dies stackTs => Sys2Proof.Machine.execThermalSample dies stackTs s
  | .pwrBrakeNAssert => Sys2Proof.Machine.execPwrBrakeNAssert s
  | .pwrBrakeNDeassert => Sys2Proof.Machine.execPwrBrakeNDeassert s
  | .upwardStep => Sys2Proof.Machine.execUpwardStep s
  | .vddLcFall => Sys2Proof.Machine.execVddLcFall s
  | .envelopeRechoose => Sys2Proof.Machine.execEnvelopeRechoose s
  | .parkMaskWrite reg v => Sys2Proof.Machine.execParkMaskWrite reg v s
  | .deepSleepExitDone => Sys2Proof.Machine.execDeepSleepExitDone s
  | .limbRetrain limb v => Sys2Proof.Machine.execLimbRetrain limb v s
  | .limbEnableWrite limb v => Sys2Proof.Machine.execLimbEnableWrite limb v s
  | .limbDetectDone limb polarity reversed failedLanes => Sys2Proof.Machine.execLimbDetectDone limb polarity reversed failedLanes s
  | .limbBaseEqDone limb failedLanes => Sys2Proof.Machine.execLimbBaseEqDone limb failedLanes s
  | .capReceive limb cap => Sys2Proof.Machine.execCapReceive limb cap s
  | .limbFullEqDone limb failedLanes => Sys2Proof.Machine.execLimbFullEqDone limb failedLanes s
  | .limbDeskewDone limb flight rtt => Sys2Proof.Machine.execLimbDeskewDone limb flight rtt s
  | .keycheckReceive limb verified => Sys2Proof.Machine.execKeycheckReceive limb verified s
  | .limbTrainingTimeout limb => Sys2Proof.Machine.execLimbTrainingTimeout limb s
  | .flitReceive limb flit => Sys2Proof.Machine.execFlitReceive limb flit s
  | .compIdleSend limb => Sys2Proof.Machine.execCompIdleSend limb s
  | .nakReceive limb group => Sys2Proof.Machine.execNakReceive limb group s
  | .markerReceive limb m offset => Sys2Proof.Machine.execMarkerReceive limb m offset s
  | .creditReceive limb bestEffort management => Sys2Proof.Machine.execCreditReceive limb bestEffort management s
  | .statusHoldReceive limb => Sys2Proof.Machine.execStatusHoldReceive limb s
  | .holdStatusSend limb => Sys2Proof.Machine.execHoldStatusSend limb s
  | .keyOldGenExpire limb keyIndex => Sys2Proof.Machine.execKeyOldGenExpire limb keyIndex s
  | .packetInjectScheduled limb cycle => Sys2Proof.Machine.execPacketInjectScheduled limb cycle s
  | .packetInjectBestEffort dep => Sys2Proof.Machine.execPacketInjectBestEffort dep s
  | .putReceive rx => Sys2Proof.Machine.execPutReceive rx s
  | .getReqReceive rx => Sys2Proof.Machine.execGetReqReceive rx s
  | .getRespReceive rx => Sys2Proof.Machine.execGetRespReceive rx s
  | .knotPacketReceive rx => Sys2Proof.Machine.execKnotPacketReceive rx s
  | .reduceReceive rx => Sys2Proof.Machine.execReduceReceive rx s
  | .mcastPutReceive rx => Sys2Proof.Machine.execMcastPutReceive rx s
  | .mackReceive rx => Sys2Proof.Machine.execMackReceive rx s
  | .errReceive rx => Sys2Proof.Machine.execErrReceive rx s
  | .faultReceive rx => Sys2Proof.Machine.execFaultReceive rx s
  | .chainReceive rx chk => Sys2Proof.Machine.execChainReceive rx chk s
  | .opExpire entry => Sys2Proof.Machine.execOpExpire entry s
  | .packetResend entry => Sys2Proof.Machine.execPacketResend entry s
  | .resendTimeout entry => Sys2Proof.Machine.execResendTimeout entry s
  | .niDrainStart v => Sys2Proof.Machine.execNiDrainStart v s
  | .drainComplete => Sys2Proof.Machine.execDrainComplete s
  | .niDrainRelease v => Sys2Proof.Machine.execNiDrainRelease v s
  | .niFslotMaskWrite stand v => Sys2Proof.Machine.execNiFslotMaskWrite stand v s
  | .niRankGrantWrite stand v => Sys2Proof.Machine.execNiRankGrantWrite stand v s
  | .mcastBitmapDue stand index => Sys2Proof.Machine.execMcastBitmapDue stand index s
  | .faultNoticeSend dep => Sys2Proof.Machine.execFaultNoticeSend dep s
  | .cqTrigDoorbellTail stand v lastQuarter => Sys2Proof.Machine.execCqTrigDoorbellTail stand v lastQuarter s
  | .cqTrigResume stand v lastQuarter => Sys2Proof.Machine.execCqTrigResume stand v lastQuarter s
  | .triggerFetch stand => Sys2Proof.Machine.execTriggerFetch stand s
  | .trigPut stand index => Sys2Proof.Machine.execTrigPut stand index s
  | .trigGet stand index => Sys2Proof.Machine.execTrigGet stand index s
  | .trigKnot stand index => Sys2Proof.Machine.execTrigKnot stand index s
  | .trigReduce stand index => Sys2Proof.Machine.execTrigReduce stand index s
  | .trigMcastPut stand index => Sys2Proof.Machine.execTrigMcastPut stand index s
  | .trigFold stand index => Sys2Proof.Machine.execTrigFold stand index s
  | .trigA2a stand index => Sys2Proof.Machine.execTrigA2a stand index s
  | .foldSlice channel => Sys2Proof.Machine.execFoldSlice channel s
  | .triggerComplete stand index => Sys2Proof.Machine.execTriggerComplete stand index s
  | .crcWindowExpire channel => Sys2Proof.Machine.execCrcWindowExpire channel s
  | .chanAreaZeroizeDone channel => Sys2Proof.Machine.execChanAreaZeroizeDone channel s
  | .collChanCfgWrite channel v => Sys2Proof.Machine.execCollChanCfgWrite channel v s
  | .collSchedWrite engine reg v => Sys2Proof.Machine.execCollSchedWrite engine reg v s
  | .collStandQuotaWrite stand v => Sys2Proof.Machine.execCollStandQuotaWrite stand v s
  | .standCtrlReset stand v => Sys2Proof.Machine.execStandCtrlReset stand v s
  | .standResetEntry stand => Sys2Proof.Machine.execStandResetEntry stand s
  | .standResetDone stand => Sys2Proof.Machine.execStandResetDone stand s
  | .standTwigOwnerWrite twig v => Sys2Proof.Machine.execStandTwigOwnerWrite twig v s
  | .standMemSlotsWrite stand v => Sys2Proof.Machine.execStandMemSlotsWrite stand v s
  | .standKeyGenerate stand v => Sys2Proof.Machine.execStandKeyGenerate stand v s
  | .standActivate stand => Sys2Proof.Machine.execStandActivate stand s
  | .standFreed stand => Sys2Proof.Machine.execStandFreed stand s
  | .mbxReqDoorbell mbx v => Sys2Proof.Machine.execMbxReqDoorbell mbx v s
  | .mbxReqRetire mbx v => Sys2Proof.Machine.execMbxReqRetire mbx v s
  | .mbxRequestFetch mbx => Sys2Proof.Machine.execMbxRequestFetch mbx s
  | .hwResponderAnswer mbx => Sys2Proof.Machine.execHwResponderAnswer mbx s
  | .mirrorRecordReceive => Sys2Proof.Machine.execMirrorRecordReceive s
  | .mirrorDoneReceive => Sys2Proof.Machine.execMirrorDoneReceive s
  | .hello => Sys2Proof.Machine.execHello s
  | .status => Sys2Proof.Machine.execStatus s
  | .close => Sys2Proof.Machine.execClose s
  | .standCreate => Sys2Proof.Machine.execStandCreate s
  | .standModify => Sys2Proof.Machine.execStandModify s
  | .standTeardown => Sys2Proof.Machine.execStandTeardown s
  | .standReset => Sys2Proof.Machine.execStandReset s
  | .standQuery => Sys2Proof.Machine.execStandQuery s
  | .precisionConsent => Sys2Proof.Machine.execPrecisionConsent s
  | .pwrEnvelope => Sys2Proof.Machine.execPwrEnvelope s
  | .pwrState => Sys2Proof.Machine.execPwrState s
  | .pwrQuery => Sys2Proof.Machine.execPwrQuery s
  | .ringConfig => Sys2Proof.Machine.execRingConfig s
  | .sscConfig => Sys2Proof.Machine.execSscConfig s
  | .clockQuery => Sys2Proof.Machine.execClockQuery s
  | .nodeSet => Sys2Proof.Machine.execNodeSet s
  | .rankWrite => Sys2Proof.Machine.execRankWrite s
  | .rankRead => Sys2Proof.Machine.execRankRead s
  | .fslotSet => Sys2Proof.Machine.execFslotSet s
  | .mcastSet => Sys2Proof.Machine.execMcastSet s
  | .limbKeyLoad unwraps => Sys2Proof.Machine.execLimbKeyLoad unwraps s
  | .transportKey => Sys2Proof.Machine.execTransportKey s
  | .congRead => Sys2Proof.Machine.execCongRead s
  | .chanBind => Sys2Proof.Machine.execChanBind s
  | .chanUnbind => Sys2Proof.Machine.execChanUnbind s
  | .foldSched => Sys2Proof.Machine.execFoldSched s
  | .trigQuota => Sys2Proof.Machine.execTrigQuota s
  | .chanCrc => Sys2Proof.Machine.execChanCrc s
  | .chanQuery => Sys2Proof.Machine.execChanQuery s
  | .counterRead => Sys2Proof.Machine.execCounterRead s
  | .counterSelect => Sys2Proof.Machine.execCounterSelect s
  | .traceSet => Sys2Proof.Machine.execTraceSet s
  | .frost => Sys2Proof.Machine.execFrost s
  | .fwChainSet => Sys2Proof.Machine.execFwChainSet s
  | .fwHeader chk => Sys2Proof.Machine.execFwHeader chk s
  | .fwPiece => Sys2Proof.Machine.execFwPiece s
  | .fwStatus => Sys2Proof.Machine.execFwStatus s
  | .fwActivate => Sys2Proof.Machine.execFwActivate s
  | .fwAbort => Sys2Proof.Machine.execFwAbort s
  | .fwPolicy => Sys2Proof.Machine.execFwPolicy s
  | .identity => Sys2Proof.Machine.execIdentity s
  | .identityRecord => Sys2Proof.Machine.execIdentityRecord s
  | .calSet => Sys2Proof.Machine.execCalSet s
  | .calRead => Sys2Proof.Machine.execCalRead s
  | .logRead => Sys2Proof.Machine.execLogRead s
  | .locate => Sys2Proof.Machine.execLocate s
  | .redStatus => Sys2Proof.Machine.execRedStatus s
  | .swapDrill => Sys2Proof.Machine.execSwapDrill s
  | .leafRemap => Sys2Proof.Machine.execLeafRemap s
  | .leafRestore => Sys2Proof.Machine.execLeafRestore s
  | .csrRead => Sys2Proof.Machine.execCsrRead s
  | .csrWrite => Sys2Proof.Machine.execCsrWrite s
  | .dumpRead => Sys2Proof.Machine.execDumpRead s
  | .dumpTrigger => Sys2Proof.Machine.execDumpTrigger s
  | .leaseExpire => Sys2Proof.Machine.execLeaseExpire s
  | .coreWatchdogExpire h => Sys2Proof.Machine.execCoreWatchdogExpire h s
  | .surrender => Sys2Proof.Machine.execSurrender s
  | .selfDiagFail h => Sys2Proof.Machine.execSelfDiagFail h s
  | .tokenMove actuatorOk => Sys2Proof.Machine.execTokenMove actuatorOk s
  | .plannedTransfer actuatorOk => Sys2Proof.Machine.execPlannedTransfer actuatorOk s
  | .takeoverComplete => Sys2Proof.Machine.execTakeoverComplete s
  | .reversion => Sys2Proof.Machine.execReversion s
  | .crosslinkError => Sys2Proof.Machine.execCrosslinkError s
  | .mirrorSyncTimeout => Sys2Proof.Machine.execMirrorSyncTimeout s
  | .calendarEnd => Sys2Proof.Machine.execCalendarEnd s
  | .blockStore tagOk flashOk => Sys2Proof.Machine.execBlockStore tagOk flashOk s
  | .chainForward => Sys2Proof.Machine.execChainForward s
  | .fwTransferTimeout => Sys2Proof.Machine.execFwTransferTimeout s
  | .activationPause newStarts oldStarts => Sys2Proof.Machine.execActivationPause newStarts oldStarts s
  | .recoveryPieceSubmit v chk tagOk => Sys2Proof.Machine.execRecoveryPieceSubmit v chk tagOk s
  | .frostPinEdge => Sys2Proof.Machine.execFrostPinEdge s
  | .trcFrostFreezeNext v => Sys2Proof.Machine.execTrcFrostFreezeNext v s
  | .trcFrostRelease v => Sys2Proof.Machine.execTrcFrostRelease v s
  | .sampleWrite leaf counter => Sys2Proof.Machine.execSampleWrite leaf counter s
  | .hangWatchdogExpire stand queue => Sys2Proof.Machine.execHangWatchdogExpire stand queue s
  | .hangDumpDone => Sys2Proof.Machine.execHangDumpDone s
  | .i3cReq slot => Sys2Proof.Machine.execI3cReq slot s
  | .i3cRsp => Sys2Proof.Machine.execI3cRsp s
  | .i3cEvt => Sys2Proof.Machine.execI3cEvt s
  | .i3cRegRd selector => Sys2Proof.Machine.execI3cRegRd selector s
  | .i3cRegWr selector v => Sys2Proof.Machine.execI3cRegWr selector v s
  | .entdaa winning addr => Sys2Proof.Machine.execEntdaa winning addr s
  | .setnewda addr => Sys2Proof.Machine.execSetnewda addr s
  | .rstdaa => Sys2Proof.Machine.execRstdaa s
  | .enec ibi hotJoin => Sys2Proof.Machine.execEnec ibi hotJoin s
  | .disec ibi hotJoin => Sys2Proof.Machine.execDisec ibi hotJoin s
  | .getpid => Sys2Proof.Machine.execGetpid s
  | .getbcr => Sys2Proof.Machine.execGetbcr s
  | .getdcr => Sys2Proof.Machine.execGetdcr s
  | .getstatus => Sys2Proof.Machine.execGetstatus s
  | .getmwl => Sys2Proof.Machine.execGetmwl s
  | .getmrl => Sys2Proof.Machine.execGetmrl s
  | .setmwl n => Sys2Proof.Machine.execSetmwl n s
  | .setmrl n => Sys2Proof.Machine.execSetmrl n s
  | .hotJoinRequest => Sys2Proof.Machine.execHotJoinRequest s
  | .ibiRaise => Sys2Proof.Machine.execIbiRaise s
  | .perstNDeassert => Sys2Proof.Machine.execPerstNDeassert s
  | .leafFaultReport leaf => Sys2Proof.Machine.execLeafFaultReport leaf s
  | .locateExpire => Sys2Proof.Machine.execLocateExpire s
  | .holdupCharged => Sys2Proof.Machine.execHoldupCharged s
  | .limbSignalLoss limb => Sys2Proof.Machine.execLimbSignalLoss limb s

end Sys2Proof.Machine
end

