-- ==== Sys2Proof/Safety.lean ====
section
/-! DEFINITION. What counts as a safe run, and the terms the statements are written in: a command that completes, and what a
command leaves as it was. -/

namespace Sys2Proof.Machine

/-- The command completes in `s`: exec answers a next state, and `P` holds of it. -/
def Ends (c : Instr) (s : State) (P : State → Prop) : Prop := ∃ t, exec c s = .next t ∧ P t

/-- A step that neither faults nor is refused. -/
def State.Completes (s t : State) : Prop := step s = .next t

/-- Every register but those listed reads in `t` as in `s`. -/
def State.SameRegsBut (s t : State) (rs : List Nat) : Prop := ∀ a, a ∉ rs → t.rd a = s.rd a

/-- Every value in force but those of the registers listed reads in `t` as in `s`. -/
def State.SameLiveBut (s t : State) (rs : List Nat) : Prop := ∀ a, a ∉ rs → t.liveRd a = s.liveRd a

/-- Every byte of memory outside the `n` bytes from `a` reads in `t` as in `s`. -/
def State.SameBytesBut (s t : State) (a n : Nat) : Prop := ∀ b, b < a ∨ a + n ≤ b → Memory.read t.mem b = Memory.read s.mem b

/-- Memory differs only in the windows of the mailboxes. -/
def State.MailboxesOnly (s t : State) : Prop := ∀ a, a < mbxAt 0 ∨ mbxAt 18 ≤ a → Memory.read t.mem a = Memory.read s.mem a

/-- Only registers differ, and only those listed. -/
def State.OnlyRegs (s t : State) (rs : List Nat) : Prop := t = { s with regs := t.regs } ∧ s.SameRegsBut t rs

/-- The tables that hold the registers, the values in force and the bytes of memory are in canonical form. -/
def State.Canonical (s : State) : Prop :=
  SMap.wf regReset s.regs = true ∧ SMap.wf regReset s.live = true ∧ Memory.wf s.mem = true

/-- What a cold reset leaves of `s` (R326, R419): the always-on registers, the slots of the I3C mailbox, the flash and the fuses; every other
register but those listed and the I3C mailbox's intake at its reset value, every other byte as one nothing has written, and no work of any kind. -/
def State.ColdFrom (s t : State) (rs : List Nat) : Prop :=
  (∀ a, a ∉ MBX_REQ_STATE 17 :: rs → t.rd a = if alwaysOn a then s.rd a else regReset a) ∧
  (∀ a, Memory.read t.mem a = if inFlash a || inI3cMailbox a then Memory.read s.mem a else memDefault a) ∧
  t.fuses = s.fuses ∧ t.cmds = [] ∧ t.leaves = [] ∧ t.limbs = [] ∧ t.stands = [] ∧ t.kops = []

/-- The sub-descriptor `r` stands at the head of leaf `n`, whose bough's leaves run, served by position `p` of the 33 of twig `w`, and has not run. -/
def State.HeadIs (s : State) (n w p : Nat) (r : SubRun) (rest : List SubRun) : Prop :=
  s.leavesOn (leafBough n) = true ∧ s.leafPlace n = some (w, p) ∧ p < 33 ∧ (s.leaf w p).queue = r :: rest ∧ r.ran = false

/-- It has run, once: it stays at the head until it arrives, and no other leaf, no knot and no queue of the package has changed. -/
def State.HeadRan (s t : State) (w p : Nat) (r : SubRun) (rest : List SubRun) : Prop :=
  (t.leaf w p).queue = { r with ran := true } :: rest ∧
  (∀ w' p', p < 33 → p' < 33 → (w', p') ≠ (w, p) → t.leaf w' p' = s.leaf w' p') ∧
  t.knots = s.knots ∧ t.kops = s.kops ∧ t.bells = s.bells ∧ t.ni = s.ni ∧ t.live = s.live

/-- `t` differs from `s` in one flit of limb `l`'s own of a subtype, 0 an idle flit: it leaves the package after a free number of idle flits, under the next sequence numbers with the
acknowledgement due (R213, R215, R217), and enters the replay buffer. -/
def State.SendsFlit (s t : State) (l subtype : Nat) (body : List Byte) : Prop :=
  ∃ idle, let x := s.limb l
    let first := x.txNext + idle
    let o := Out.flit l subtype body { seq := first % 4096, stride := s.limbStride l, ackGroup := x.rxGroup, nak := x.rxNak }
    t.out = o :: s.out ∧ (t.limb l).txNext = first + s.limbStride l ∧
    (t.limb l).replay = x.replay ++ [{ first := first / 64, last := first / 64, out := o }] ∧ ∀ k, k ≠ l → t.limb k = s.limb k

/-- `t` differs from `s` in the packet `p`, at place `i` of its NI's queue, that has left on limb `l` under key index `k`, begun at a cycle of the ring: it carries that time, the key's
counter and the acknowledgement due, its flits follow a free number of idle flits and enter the replay buffer, and outside the scheduled class it uses a credit (R213, R217, R222, R238, R247, R250). -/
def State.SendsPacket (s t : State) (i l k cycle : Nat) (p : TxPkt) : Prop :=
  ∃ idle, let x := s.limb l
    let e := x.keys.get {} k
    let pkt := s.stampPkt p l (s.cycleTime cycle)
    let first := x.txNext + idle
    let last := (first + (p.pkt.flits - 1) * s.limbStride l) / 64
    let o := Out.packet l p.vc pkt { seq := first % 4096, stride := s.limbStride l, ackGroup := x.rxGroup, nak := x.rxNak }
      { index := k, gen := e.gen, counter := e.counter, salt := e.salt, handle := e.handle }
    t.out = o :: s.out ∧ t.ni.txq = s.ni.txq.set i { p with limb := l, sent := true, group := last, pkt } ∧
    (t.limb l).txNext = first + p.pkt.flits * s.limbStride l ∧ (t.limb l).replay = x.replay ++ [{ first := first / 64, last, out := o }] ∧
    ((t.limb l).keys.get {} k).counter = e.counter + 1 ∧ (∀ j, j ≠ l → t.limb j = s.limb j) ∧
    (p.mgmt = true → p.sched = false → t.ni.mgUsed.get 0 l = s.ni.mgUsed.get 0 l + 1) ∧
    (p.mgmt = false → p.sched = false → t.ni.beUsed.get 0 l = s.ni.beUsed.get 0 l + 1) ∧
    t.ni.rxOps = s.ni.rxOps ∧ t.mem = s.mem ∧ t.knots = s.knots ∧ t.kops = s.kops ∧ t.live = s.live

/-- The packet at place `i` of an NI's queue left it without being sent: nothing went out, and its limbs are as they were. -/
def State.DropsPacket (s t : State) (i : Nat) : Prop :=
  t.ni.txq = s.ni.txq.eraseIdx i ∧ t.out = s.out ∧ t.limbs = s.limbs ∧ t.mem = s.mem ∧ t.knots = s.knots ∧ t.live = s.live

/-- Whether a limb may send under a key index: the packet has one, and it has not stopped (R225). -/
def State.CanSend (s : State) (l : Nat) (p : TxPkt) (k : Nat) : Prop :=
  s.keyFor l p = some k ∧ bitOf (s.fld (LIMB_CRYPTO_exhausted l)) k = false

/-- The packet a row of the NI takes from an ACTIVE, clocked limb that carries its class, with no packet waiting in a receive buffer: as handed over by the limb, OFFSCHED where it comes
outside its stand's slots (R220, R223, R246). -/
def State.Takes (s : State) (r x : Rx) : Prop :=
  r.limb < 18 ∧ s.limbActive r.limb = true ∧ s.limbOn r.limb = true ∧ s.ni.rxBuf = [] ∧
  ((s.asHanded r).sched = true → s.limbCarries r.limb 0 = true) ∧ x = { s.asHanded r with off := s.offSched (s.asHanded r) }

/-- Every line that `n` bytes from `a` touch is without an upset and was written under the key `k` (R199, R201). -/
def State.Clean (s : State) (a n k : Nat) : Prop :=
  ∀ l, a / 64 ≤ l → l < a / 64 + linesOf a n → (s.line l).err = .clean ∧ (s.line l).key = k

/-- The `n` bytes of a stand at an address of a kind lie from `a` on in one piece: in clean HBM, in a bough buffer, or in a channel area (R183, R238, R282). -/
def State.RangeAt (s : State) (st kind channel addr n a : Nat) : Prop :=
  (kind = 0 ∧ s.inBounds st addr n = true ∧ s.translate st addr = some a ∧ s.Clean a n (s.keyAt a)) ∨
  (kind = 1 ∧ a = s.bbufPlace st addr) ∨ (kind = 3 ∧ a = s.chanAt channel addr)

/-- The body of the CREDIT flit that returns one best-effort and management credit of these (R215, R250). -/
def creditFlit (be mg : Nat) : List Byte := (List.range 191).map (Config.creditBody be mg)

/-- The registers of which a warm reset keeps a part (R424). -/
def warmParts : List Nat :=
  [RING_CFG, RING_STATUS, HBM_KEY_STATUS, HBM_STATUS, CLK_STATUS, MBX_RED_STATUS, ID_BOOT, ID_RESET_COUNT, MBX_REQ_STATE 17]
    ++ (List.range 18).map LIMB_TRAINED ++ (List.range 144).map TWIG_STATUS

/-- What a warm reset with a cause leaves of `s` (R326, R422, R424): the registers it keeps, the contents of HBM, of leaf SRAM and of the I3C mailbox,
the fuses; every other register at its reset value, and no work of any kind. -/
def State.WarmFrom (s t : State) (cause : Nat) : Prop :=
  (∀ a, a ∉ warmParts → t.rd a = if warmKeeps a then s.rd a else regReset a) ∧
  (∀ a, a < mbxAt 0 ∨ inI3cMailbox a = true → Memory.read t.mem a = Memory.read s.mem a) ∧
  (s.transferring = false → ∀ a, inFlash a = true → Memory.read t.mem a = Memory.read s.mem a) ∧
  t.fuses = s.fuses ∧ t.cmds = [] ∧ t.kops = [] ∧ t.stands = [] ∧ t.pcie.link = false ∧
  t.fld ID_RESET_COUNT_warm_count = min ID_RESET_COUNT_warm_count.max (s.fld ID_RESET_COUNT_warm_count + 1) ∧
  t.fld ID_BOOT_path = 2 ∧ t.fld ID_BOOT_stage = 1 ∧ t.flag ID_BOOT_done = false ∧ t.fld ID_BOOT_last_cause = cause % 8

/-- The bytes of the response slot that the holder of the control token writes for a request (R330). -/
def State.response (t : State) (r : Req) : List Byte := t.bytes (rspSlotAt r.mbx r.count (t.token - 1)) 64

/-- The status of that response (R331, bytes 18 and 19). -/
def State.responseStatus (t : State) (r : Req) : Nat := bytesAt (t.response r) 18 2

/-- `t` answers the request `r` of `s` with the reply `x` in a version (R330 to R333): cut to the limit of its mailbox, an indirect body in the buffer it
names; `r` has left intake. -/
def State.AnswersIn (s t : State) (r : Req) (x : Reply) (ver : Nat × Nat) : Prop :=
  let y := x.fit (t.rspLimit r) ver
  t.response r = t.stampSlot t.token (y.slot r ver) ∧ (bitOf r.flags 0 = true → t.bytes r.buffer y.body.length = y.body) ∧
  t.hw.intake = s.hw.intake.erase r ∧ t.hw.reserve = s.hw.reserve.erase r

/-- The same in the version of its session (R341, R342). -/
def State.Answers (s t : State) (r : Req) (x : Reply) : Prop := s.AnswersIn t r x (t.rspVersion r)

/-- The registers a response moves. -/
def rspRegs : List Nat := [MBX_EVENT, MBX_LOAD_STATUS] ++ (List.range 18).map MBX_REQ_STATE

/-- `t` answers the request `r` with `x` and has no other effect: of memory only the mailboxes' windows, of the registers only those of the mailboxes. -/
def State.OnlyAnswers (s t : State) (r : Req) (x : Reply) : Prop :=
  s.Answers t r x ∧ s.MailboxesOnly t ∧ s.SameRegsBut t rspRegs ∧
  t = { s with regs := t.regs, mem := t.mem, hw := t.hw, out := t.out, i3c := t.i3c, free := t.free }

/-- `r`, of opcode `op`, is the request served next, and passes what its opcode checks first (R334, R359, R361, R362): the size and the reserved places of
its layout, its stand, and the request its stand has in hand. -/
def State.Serves (s : State) (r : Req) (op size : Nat) (reserved : List (Nat × Nat)) (needStand serial : Bool) : Prop :=
  s.serving? op = some r ∧ r.mbx < 18 ∧ (s.takeReq r).commonCheck r size reserved needStand serial = none

/-- An opcode's command with its code, the bytes of its request's layout, the reserved places among them, and whether it names a stand and waits for the request
its stand has in hand (13_mailbox_opcodes.md, R361, R362). HELLO and CLOSE check otherwise. -/
structure OpcodeRow where
  cmd       : Instr
  op        : Nat
  size      : Nat
  reserved  : List (Nat × Nat)
  needStand : Bool
  serial    : Bool

/-- The opcodes that share their first checks; `unwraps` and `chk` are operands of two of them. -/
def opcodeRows (unwraps : Bool) (chk : HeaderCheck) : List OpcodeRow :=
  [⟨.status, 0x0102, 0, [], false, false⟩, ⟨.standCreate, 0x0201, 128, recordReserved, true, true⟩,
   ⟨.standModify, 0x0202, 128, recordReserved, true, true⟩, ⟨.standTeardown, 0x0203, 0, [], true, true⟩,
   ⟨.standReset, 0x0204, 0, [], true, false⟩, ⟨.standQuery, 0x0205, 0, [], true, true⟩, ⟨.precisionConsent, 0x0206, 1, [], true, true⟩,
   ⟨.pwrEnvelope, 0x0301, 5, [], false, true⟩, ⟨.pwrState, 0x0302, 1, [], false, true⟩, ⟨.pwrQuery, 0x0303, 0, [], false, true⟩,
   ⟨.ringConfig, 0x0401, 5, [], false, true⟩, ⟨.sscConfig, 0x0402, 2, [], false, true⟩, ⟨.clockQuery, 0x0403, 0, [], false, true⟩] ++
  [⟨.nodeSet, 0x0501, 6, [], false, false⟩, ⟨.rankWrite, 0x0502, 4088, [], true, true⟩, ⟨.rankRead, 0x0503, 4, [], false, true⟩,
   ⟨.fslotSet, 0x0504, 16, [], true, true⟩, ⟨.mcastSet, 0x0505, 16, [], false, false⟩,
   ⟨.limbKeyLoad unwraps, 0x0506, 56, [(5, 3), (14, 2)], false, false⟩, ⟨.transportKey, 0x0507, 1576, [], false, false⟩,
   ⟨.congRead, 0x0508, 4, [], false, false⟩, ⟨.chanBind, 0x0601, 7, [], true, true⟩, ⟨.chanUnbind, 0x0602, 1, [], false, false⟩,
   ⟨.foldSched, 0x0603, 64, [(1, 1)], false, false⟩, ⟨.trigQuota, 0x0604, 4, [], true, true⟩, ⟨.chanCrc, 0x0605, 2, [], false, false⟩,
   ⟨.chanQuery, 0x0606, 1, [], false, false⟩] ++
  [⟨.counterRead, 0x0701, 6, [(1, 1)], false, false⟩, ⟨.counterSelect, 0x0702, 4096, [(1, 1)], false, false⟩,
   ⟨.traceSet, 0x0703, 1, [], true, false⟩, ⟨.frost, 0x0704, 9, [], false, false⟩, ⟨.fwChainSet, 0x0801, 5, [], false, false⟩,
   ⟨.fwHeader chk, 0x0802, 4096, [], false, false⟩, ⟨.fwPiece, 0x0803, 4096, [(12, 4)], false, false⟩,
   ⟨.fwStatus, 0x0804, 0, [], false, false⟩, ⟨.fwActivate, 0x0805, 0, [], false, false⟩, ⟨.fwAbort, 0x0806, 0, [], false, false⟩,
   ⟨.fwPolicy, 0x0807, 1, [], false, false⟩] ++
  [⟨.identity, 0x0901, 0, [], false, false⟩, ⟨.identityRecord, 0x0902, 4, [], false, false⟩, ⟨.calSet, 0x0903, 12, [], false, false⟩,
   ⟨.calRead, 0x0904, 0, [], false, false⟩, ⟨.logRead, 0x0905, 6, [], false, false⟩, ⟨.locate, 0x0906, 4, [(1, 1)], false, false⟩,
   ⟨.redStatus, 0x0A01, 0, [], false, false⟩, ⟨.swapDrill, 0x0A02, 2, [], false, false⟩, ⟨.leafRemap, 0x0A03, 2, [], false, false⟩,
   ⟨.leafRestore, 0x0A04, 2, [], false, false⟩, ⟨.csrRead, 0x0B01, 4096, [(2, 6)], false, false⟩,
   ⟨.csrWrite, 0x0B02, 4088, [(2, 6)], false, false⟩, ⟨.dumpRead, 0x0B03, 12, [], false, false⟩, ⟨.dumpTrigger, 0x0B04, 0, [], false, false⟩]

end Sys2Proof.Machine
end

