-- ==== Sys2Proof/Certificates/Slice0/Obligations.lean ====
section
/-! DEFINITION. The statements for the provers: what the commands of the block do, by the numbered rules of the spec. `Ends c s P` says that
exec answers a next state for the command `c` in `s`, and that `P` holds of it. -/

open Sys2Proof Sys2Proof.Machine

/-! ### The block as a whole -/

/-- The step of the block (95): it takes the command at the front of the queue and runs it whole on the state with the queue's rest; with no command waiting it idles. That it
idles is the model's choice (log entry 1). -/
def Obligations.StepRunsTheFrontCommand : Prop :=
  ∀ (s : State) (c : Instr) (rest : List Instr),
    (s.pending = c :: rest → step s = exec c { s with pending := rest }) ∧ (s.pending = [] → step s = .next s)

/-- Every command answers a next state, and leaves the queue of waiting commands as it is. That a command whose rule's condition does not hold changes nothing is the model's
choice (log entry 14). -/
def Obligations.EveryCommandCompletesAndKeepsTheQueue : Prop :=
  ∀ (c : Instr) (s : State), Ends c s fun t => t.pending = s.pending

/-- After reset the tables are in form, VIN and VAUX are there, no token is held, no stand exists and no limb is ACTIVE, every register holds its reset value and every byte of memory that nothing
has written its value; PF0 and the VFs carry the PCIe identity (R481) and PF0 its SR-IOV capability (R482). The values of the flash as shipped are the model's choice (log entry 15). -/
def Obligations.ResetState : Prop :=
  State.reset.Canonical ∧ (∀ a, State.reset.rd a = regReset a ∧ State.reset.liveRd a = regReset a) ∧
  (∀ a, Memory.read State.reset.mem a = memDefault a) ∧ State.reset.pending = [] ∧ State.reset.token = 0 ∧ State.reset.period = 1 ∧
  State.reset.boot.vin = true ∧ State.reset.serving = false ∧ (∀ st, st < 16 → State.reset.standState st = 0) ∧
  (∀ l, l < 18 → State.reset.limbActive l = false) ∧
  State.reset.functionId 0 = ⟨0x1F64#16, 0x4608#16, 0xB1#8, 0x120000#24, 0x1F64#16, 0x4608#16⟩ ∧
  (∀ st, st < 16 → State.reset.functionId (st + 1) = ⟨0x1F64#16, 0x4609#16, 0xB1#8, 0x120000#24, 0x1F64#16, 0x4609#16⟩) ∧
  State.reset.pcie.sriov = ⟨16, 16, 1, 1, 4096⟩

/-- Every step keeps the tables that hold the registers, the values in force and the bytes of memory in canonical form, so that equal contents are equal data. -/
def Obligations.EveryStepKeepsTheTablesCanonical : Prop :=
  ∀ s t : State, s.Canonical → step s = .next t → t.Canonical

/-- The fuses (R437, R452): no step changes the identity the fuse bank holds, and the anti-rollback floor never falls. -/
def Obligations.FusedIdentityIsFixedAndTheFloorNeverFalls : Prop :=
  ∀ s t : State, step s = .next t →
    t.fuses.serial = s.fuses.serial ∧ t.fuses.substrate = s.fuses.substrate ∧ t.fuses.dies = s.fuses.dies ∧ t.fuses.spares = s.fuses.spares ∧
    t.fuses.stackIds = s.fuses.stackIds ∧ s.fuses.floor ≤ t.fuses.floor

/-! ### The I3C management port (19) -/

/-- ENTDAA, SETNEWDA and RSTDAA (R490, R492, *Supported CCCs*): the dynamic address is taken by the winner, changed while there is
one, and given up; only ID_I3C and what the port drives change. ENEC, DISEC, SETMWL and SETMRL (*Supported CCCs*): each sets what it names and nothing else but the I3C mode flag. The CCCs that read (*Supported CCCs*, R491): each answers its bytes and changes nothing but the I3C mode flag. The order of the bytes
of GETSTATUS, GETMWL and GETMRL is the model's choice (log entry 57). -/
def Obligations.I3cCommandCodes : Prop :=
  (∀ (s : State) (addr : Nat), s.boot.vaux = true →
    (s.flag ID_I3C_dyn_valid = false →
      Ends (.entdaa true addr) s fun t =>
        t.flag ID_I3C_dyn_valid = true ∧ t.fld ID_I3C_dyn_addr = addr % 128 ∧ t.flag ID_I3C_i2c_mode = false ∧
        t.out = .i3c (s.pidBytes ++ [0x06#8, 0x00#8]) :: s.out ∧ s.SameRegsBut t [ID_I3C] ∧
        t = { s with regs := t.regs, out := t.out }) ∧
    (∀ win, win = false ∨ s.flag ID_I3C_dyn_valid = true →
      Ends (.entdaa win addr) s fun t =>
        t.flag ID_I3C_dyn_valid = s.flag ID_I3C_dyn_valid ∧ t.fld ID_I3C_dyn_addr = s.fld ID_I3C_dyn_addr ∧ s.OnlyRegs t [ID_I3C]) ∧
    (s.flag ID_I3C_dyn_valid = true →
      Ends (.setnewda addr) s fun t =>
        t.flag ID_I3C_dyn_valid = true ∧ t.fld ID_I3C_dyn_addr = addr % 128 ∧ s.OnlyRegs t [ID_I3C]) ∧
    Ends .rstdaa s fun t =>
      t.flag ID_I3C_dyn_valid = false ∧ t.fld ID_I3C_dyn_addr = 0 ∧ t.flag ID_I3C_i2c_mode = true ∧ s.OnlyRegs t [ID_I3C]) ∧
  (∀ (s : State) (ibi hotJoin : Bool) (n : Nat), s.boot.vaux = true →
    (Ends (.enec ibi hotJoin) s fun t =>
      t.flag ID_I3C_ibi_en = (ibi || s.flag ID_I3C_ibi_en) ∧ t.flag ID_I3C_hj_en = (hotJoin || s.flag ID_I3C_hj_en) ∧
      t.fld ID_I3C_dyn_addr = s.fld ID_I3C_dyn_addr ∧ s.OnlyRegs t [ID_I3C]) ∧
    (Ends (.disec ibi hotJoin) s fun t =>
      t.flag ID_I3C_ibi_en = (!ibi && s.flag ID_I3C_ibi_en) ∧ t.flag ID_I3C_hj_en = (!hotJoin && s.flag ID_I3C_hj_en) ∧
      t.fld ID_I3C_dyn_addr = s.fld ID_I3C_dyn_addr ∧ s.OnlyRegs t [ID_I3C]) ∧
    (Ends (.setmwl n) s fun t =>
      (65 ≤ n → t.i3c.mwl = n) ∧ (n < 65 → t.i3c.mwl = s.i3c.mwl) ∧ t.i3c.mrl = s.i3c.mrl ∧ s.SameRegsBut t [ID_I3C] ∧
      t = { s with regs := t.regs, i3c := t.i3c }) ∧
    Ends (.setmrl n) s fun t =>
      (65 ≤ n → t.i3c.mrl = n) ∧ (n < 65 → t.i3c.mrl = s.i3c.mrl) ∧ t.i3c.mwl = s.i3c.mwl ∧ s.SameRegsBut t [ID_I3C] ∧
      t = { s with regs := t.regs, i3c := t.i3c }) ∧
  (∀ s : State, s.boot.vaux = true →
    let answers (c : Instr) (bs : List Byte) : Prop :=
      Ends c s fun t => t.out = .i3c bs :: s.out ∧ s.SameRegsBut t [ID_I3C] ∧ t = { s with regs := t.regs, out := t.out }
    answers .getpid (leBytes 6 (s.fld ID_I3C_pid)).reverse ∧ answers .getbcr [0x06#8] ∧ answers .getdcr [0x00#8] ∧
    answers .getstatus [0x00#8, if s.i3c.rsp = [] ∧ s.i3c.evt = [] then 0x00#8 else 0x01#8] ∧
    answers .getmwl [BitVec.ofNat 8 (s.i3c.mwl / 256), BitVec.ofNat 8 s.i3c.mwl] ∧
    answers .getmrl [BitVec.ofNat 8 (s.i3c.mrl / 256), BitVec.ofNat 8 s.i3c.mrl])

/-- The private frames REQ, RSP, EVT and REG_RD (R495, R496): a request slot enters the I3C mailbox unless the previous request waits for
its response, the oldest unread pair and event are read once, and a named register is read. I3C_REG_WR, HOT_JOIN_REQUEST and IBI_RAISE (R492, R496, R497): a register write acts as PF0's, Hot-Join is raised once without an
address, and the in-band interrupt carries the causes noted and clears them. -/
def Obligations.I3cFramesAndInterrupts : Prop :=
  (∀ s : State, s.boot.vaux = true →
    (∀ slot : List Byte, slot.length = 64 → s.i3c.busy = false →
      Ends (.i3cReq slot) s fun t =>
        t.bytes (mbxAt 17 + 0x1000) 64 = slot ∧ s.SameBytesBut t (mbxAt 17 + 0x1000) 64 ∧ t.i3c = { s.i3c with busy := true } ∧
        t.fld (MBX_REQ_STATE_tail_seen 17) = (s.fld (MBX_REQ_STATE_tail_seen 17) + 1) % 65536 ∧
        t.out = .i3c [0x00#8] :: s.out ∧ s.SameRegsBut t [MBX_REQ_STATE 17]) ∧
    (∀ slot : List Byte, slot.length = 64 → s.i3c.busy = true →
      Ends (.i3cReq slot) s fun t => t = { s with out := .i3c [0x02#8] :: s.out }) ∧
    (∀ x rest, s.i3c.rsp = x :: rest →
      Ends .i3cRsp s fun t =>
        t.out = .i3c (0x01#8 :: x) :: s.out ∧ t.i3c = { s.i3c with rsp := rest } ∧
        t.fld (MBX_REQ_STATE_retire_seen 17) = s.fld (MBX_REQ_STATE_head 17) ∧
        s.SameRegsBut t [MBX_REQ_STATE 17, MBX_REQ_RETIRE 17] ∧ t.mem = s.mem) ∧
    (∀ x rest, s.i3c.evt = x :: rest →
      Ends .i3cEvt s fun t =>
        t.out = .i3c (0x01#8 :: x) :: s.out ∧ t.i3c = { s.i3c with evt := rest } ∧
        s.SameRegsBut t [MBX_EVT_HEAD 17] ∧ t.mem = s.mem) ∧
    (∀ sel a, i3cRegister sel = some a → s.boot.vin = true →
      Ends (.i3cRegRd sel) s fun t => t = { s with out := .i3c (0x01#8 :: leBytes 8 (s.readReg a).toNat) :: s.out })) ∧
  (∀ s : State, s.boot.vaux = true →
    (∀ sel a v, i3cRegister sel = some a → s.boot.vin = true →
      Ends (.i3cRegWr sel v) s fun t => t = { s.writeFrom .i3c a 8 v with out := .i3c [0x00#8] :: (s.writeFrom .i3c a 8 v).out }) ∧
    (s.flag ID_I3C_hj_en = true → s.flag ID_I3C_dyn_valid = false → s.i3c.hotJoin = false →
      Ends .hotJoinRequest s fun t =>
        t = { s with i3c := { s.i3c with hotJoin := true }, out := .hotJoin :: s.out } ∧
        Ends .hotJoinRequest t fun u => u = t) ∧
    (s.flag ID_I3C_ibi_en = true → s.flag ID_I3C_dyn_valid = true → s.i3c.ibi ≠ 0 →
      Ends .ibiRaise s fun t =>
        t = { s with i3c := { s.i3c with ibi := 0 }, out := .ibi s.i3c.ibi :: s.out } ∧ Ends .ibiRaise t fun u => u = t))

/-! ### The PCIe endpoint (19) -/

/-- PERST_N, a hot reset and PME_TURN_OFF reach the endpoint only (R420, R484, R486): every register but PWR_WAKE, every byte and
every part of the state but the endpoint's stay as they are. The link trains where the endpoint is released, clocked and out of PERST_N, at a width and a rate of R481; which of them is free
(log entry 16). PMCSR_WRITE (R486, R488) sets the power state and PME_En and clears PME_Status. PM_PME_SEND (R488): the message is sent only if PF0 is still in D3hot with PME_En set; otherwise the wake ends as collided. -/
def Obligations.EndpointResetsAndTheWakeMessage : Prop :=
  (∀ s : State,
    let only (t : State) : Prop := s.SameRegsBut t [PWR_WAKE] ∧ t = { s with regs := t.regs, pcie := t.pcie, free := t.free }
    let trains (t : State) : Prop :=
      (t.pcie.link = true ↔ s.powered = true ∧ s.boot.endpoint = true ∧ t.pcie.perst = false ∧ bitOf s.gates 14 = true ∧
        s.flag CLK_STATUS_on_iosc = false) ∧
      (t.pcie.link = true → t.pcie.width ∈ [16, 8, 4, 2, 1] ∧ t.pcie.rate ∈ linkRates)
    (s.pinsLive = true → s.pcie.perst = false →
      Ends .perstNAssert s fun t =>
        t.pcie.perst = true ∧ t.pcie.link = false ∧ t.pcie.vfEnable = false ∧ t.pcie.numVfs = 0 ∧ t.pcie.d3 = false ∧ only t) ∧
    (s.pinsLive = true → s.pcie.perst = true →
      Ends .perstNDeassert s fun t =>
        t.pcie.perst = false ∧ t.flag PWR_WAKE_wake_n = false ∧ trains t ∧ only t) ∧
    (s.pcie.link = true ∨ s.pcie.l2 = true →
      Ends .pcieHotReset s fun t =>
        t.pcie.vfEnable = false ∧ t.pcie.numVfs = 0 ∧ t.pcie.d3 = false ∧ t.pcie.l2 = false ∧ t.pcie.perst = s.pcie.perst ∧ trains t ∧
        t.regs = s.regs ∧ only t) ∧
    (s.pcie.link = true → Ends .pmeTurnOff s fun t => t.pcie.link = false ∧ t.pcie.l2 = true ∧ t.regs = s.regs ∧ only t) ∧
    (∀ d3 en clr, s.pcie.link = true →
      Ends (.pmcsrWrite d3 en clr) s fun t =>
        t.pcie.d3 = d3 ∧ t.pcie.pmeEn = en ∧ t.pcie.pmeStatus = (s.pcie.pmeStatus && !clr) ∧ t.pcie.link = true ∧ t.regs = s.regs ∧ only t)) ∧
  (∀ s : State, s.pcie.pmeDue = true → s.pcie.link = true →
    (s.pcie.d3 = true → s.pcie.pmeEn = true →
      Ends .pmPmeSend s fun t =>
        t.out = .pme :: s.out ∧ t.pcie = { s.pcie with pmeDue := false, pmeStatus := true } ∧ t.flag PWR_WAKE_pme_sent = true ∧
        s.SameRegsBut t [PWR_WAKE] ∧ t.mem = s.mem) ∧
    (s.pcie.d3 = false ∨ s.pcie.pmeEn = false →
      Ends .pmPmeSend s fun t =>
        t.out = s.out ∧ t.pcie = { s.pcie with pmeDue := false } ∧ t.flag PWR_WAKE_collided = true ∧
        s.SameRegsBut t [PWR_WAKE] ∧ t.mem = s.mem))

/-! ### Supplies, resets and bring-up (15, 16) -/

/-- VIN_APPLIED (R395, R419): a cold reset, counted, from which a cold bring-up starts at stage 0. VIN_LOST and HOLDUP_COMMIT_DONE (R419, R457, R500): the package goes off with its always-on registers, fuses and flash; the hold-up store takes up
an activation's commit only with refuse_holdup set, HOLD_N asserted until it is done. VAUX_RISE, VAUX_LOSS and HOLDUP_CHARGED (R326, R397, R489, R490): the always-on domain, the I3C mailbox in it, starts at its reset values with its
fuses read, and loses them; the store reports its charge. -/
def Obligations.SupplyEvents : Prop :=
  (∀ s : State, s.boot.vaux = true →
    Ends .vinApplied s fun t =>
      t.boot.vin = true ∧ t.fld ID_RESET_COUNT_warm_count = 0 ∧
      t.fld ID_RESET_COUNT_cold_count = min ID_RESET_COUNT_cold_count.max (s.fld ID_RESET_COUNT_cold_count + 1) ∧
      t.fld ID_BOOT_path = 1 ∧ t.fld ID_BOOT_stage = 0 ∧ t.flag ID_BOOT_done = false ∧
      s.ColdFrom t [ID_BOOT, ID_RESET_COUNT]) ∧
  (∀ s : State,
    (s.boot.vin = true →
      Ends .vinLost s fun t =>
        let saved := s.hw.pausing && s.fw.activate && s.flag FLASH_POLICY_refuse_holdup
        t.boot.vin = false ∧ t.pwrState = 4 ∧ t.flag PWR_WAKE_wake_n = false ∧ t.pins.thermtrip = false ∧
        t.pins.hold = saved ∧ t.boot.holdup = (if saved then some (s.rd RING_TIME).toNat else none) ∧
        (∀ a, a ∉ [PWR_STATUS, PWR_WAKE, MBX_REQ_STATE 17] → t.rd a = if alwaysOn a then s.rd a else regReset a) ∧
        (∀ a, inFlash a = false → Memory.read t.mem a = if inI3cMailbox a then Memory.read s.mem a else memDefault a) ∧
        (s.transferring = false → s.hw.pausing = false → ∀ a, inFlash a = true → Memory.read t.mem a = Memory.read s.mem a) ∧
        t.fuses = s.fuses ∧ t.cmds = [] ∧ t.leaves = []) ∧
    ∀ time, s.boot.holdup = some time →
      Ends .holdupCommitDone s fun t =>
        t.boot = { s.boot with holdup := none } ∧ t.pins = { s.pins with hold := false } ∧
        t.mem = (s.activateBank s.inactiveBank 3 3 2 time).mem ∧ t = { s with boot := t.boot, pins := t.pins, mem := t.mem } ∧
        Ends .holdupCommitDone t fun u => u = t) ∧
  (∀ s : State,
    (Ends .vauxRise s fun t =>
      t.boot = { s.boot with vaux := true } ∧ t.i3c = {} ∧
      t.rd (ID_SERIAL 0) = BitVec.ofNat 64 (bytesAt s.fuses.serial 0 8) ∧ t.rd (ID_SERIAL 1) = BitVec.ofNat 64 (bytesAt s.fuses.serial 8 8) ∧
      t.fld ID_I3C_pid = (0x0BE7 * 2 ^ 33 + crc32c (padTo 16 s.fuses.serial)) % 2 ^ 48 ∧ t.flag ID_I3C_dyn_valid = false ∧
      (∀ a, a ∉ [ID_SERIAL 0, ID_SERIAL 1, ID_SERIAL 2, ID_I3C] → t.rd a = if alwaysOn a then regReset a else s.rd a) ∧
      (∀ a, Memory.read t.mem a = if inI3cMailbox a then memDefault a else Memory.read s.mem a) ∧
      t = { s with regs := t.regs, mem := t.mem, boot := t.boot, hw := t.hw, i3c := t.i3c }) ∧
    (s.boot.vaux = true →
      Ends .vauxLoss s fun t =>
        t.boot = { s.boot with vaux := false } ∧ t.i3c = {} ∧ t.pins = {} ∧
        (∀ a, t.rd a = if alwaysOn a then regReset a else s.rd a) ∧
        (∀ a, Memory.read t.mem a = if inI3cMailbox a then memDefault a else Memory.read s.mem a) ∧
        t = { s with regs := t.regs, mem := t.mem, boot := t.boot, hw := t.hw, i3c := t.i3c, pins := t.pins }) ∧
    (s.boot.vin = true →
      Ends .holdupCharged s fun t =>
        t.fld PWR_HOLDUP_charge = s.fld PWR_HOLDUP_commit_threshold ∧ t.flag PWR_HOLDUP_holdup_ok = true ∧ s.OnlyRegs t [PWR_HOLDUP]))

/-- WARM_RST_N_ASSERT, WARM_RST_N_DEASSERT, ID_RESET_WRITE and ID_RESET_EFFECT (R421, R422, R424): a warm reset that takes effect after a bring-up
has completed keeps what R424 names, and the pin holds the package in reset. A warm reset before any bring-up has completed is a cold reset (R423): it starts at stage 0 and keeps the always-on registers, the flash
and the fuses only. -/
def Obligations.WarmResets : Prop :=
  (∀ s : State,
    (s.pinsLive = true → s.boot.warmPin = false → s.boot.everDone = true →
      Ends .warmRstNAssert s fun t => s.WarmFrom t 1 ∧ t.boot.warmPin = true ∧ t.powered = false) ∧
    (s.boot.warmPin = true →
      Ends .warmRstNDeassert s fun t => t = { s with boot := { s.boot with warmPin := false } }) ∧
    (∀ v : Word, bitsOf v.toNat 63 48 = 0x5752 → v.getLsbD 0 = true → s.boot.vin = true →
      (s.pcie.d3 = false → Ends (.idResetWrite .pf0 v) s fun t => t = { s with boot := { s.boot with idReset := s.boot.idReset ++ [2] } }) ∧
      (Ends (.idResetWrite .i3c v) s fun t => t = { s with boot := { s.boot with idReset := s.boot.idReset ++ [3] } }) ∧
      (Ends (.idResetWrite .csrWrite v) s fun t => t = { s with boot := { s.boot with idReset := s.boot.idReset ++ [4] } })) ∧
    (∀ v : Word, bitsOf v.toNat 63 48 ≠ 0x5752 ∨ v.getLsbD 0 = false → ∀ o, o = .pf0 ∨ o = .i3c ∨ o = .csrWrite →
      Ends (.idResetWrite o v) s fun t => t = s) ∧
    ∀ cause rest, s.boot.idReset = cause :: rest → s.boot.everDone = true →
      Ends .idResetEffect s fun t => s.WarmFrom t cause ∧ t.boot.idReset = rest) ∧
  (∀ s : State, s.boot.everDone = false →
    let cold (t : State) (cause : Nat) : Prop :=
      s.ColdFrom t [ID_BOOT, ID_RESET_COUNT] ∧ t.fld ID_BOOT_path = 1 ∧ t.fld ID_BOOT_stage = 0 ∧
      t.fld ID_BOOT_last_cause = cause % 8 ∧ t.boot.cold = true ∧
      t.fld ID_RESET_COUNT_warm_count = min ID_RESET_COUNT_warm_count.max (s.fld ID_RESET_COUNT_warm_count + 1)
    (s.pinsLive = true → s.boot.warmPin = false → Ends .warmRstNAssert s fun t => cold t 1 ∧ t.boot.warmPin = true) ∧
    (∀ cause rest, s.boot.idReset = cause :: rest → Ends .idResetEffect s fun t => cold t cause ∧ t.boot.idReset = rest))

/-- REGULATION_UP, REF_EDGES_PRESENT, IOSC_TRIM_DONE and MONITOR_WINDOWS_PASSED (R33, R58, R426): stage 0 ends, and the steps of R33 run in order, the last once 16 windows in a row have
passed; with clk_lock set the trim and mon_en stay as they are. TAPROOT_STAGE_DONE, HEARTWOOD_READY, TOKEN_B_FALLBACK and BRINGUP_STAGE_TIMEOUT (R426, R429 to R431): with a bootable bank chosen stage 2 starts with the verified
images, without one the stage fails into Safe Hold and recovery; A takes the token first and B only without A; one of stages 1 to 3 that runs out of its bound fails into Safe Hold with a cause of
its own, but stage 1 waits for R33 without one. -/
def Obligations.TaprootBringsUpTheFirstHolder : Prop :=
  (∀ s : State, s.booting = true →
    (s.stage = 0 → Ends .regulationUp s fun t => t.stage = 1 ∧ s.OnlyRegs t [ID_BOOT]) ∧
    (s.stage = 1 → s.clk.r33 = .waitEdges →
      Ends .refEdgesPresent s fun t =>
        t.flag CLK_STATUS_ref_valid = true ∧ t.clk = { s.clk with r33 := .trimming } ∧ s.SameRegsBut t [CLK_STATUS] ∧
        t = { s with regs := t.regs, clk := t.clk }) ∧
    (∀ trim, s.clk.r33 = .trimming →
      Ends (.ioscTrimDone trim) s fun t =>
        t.flag CLK_STATUS_iosc_trimmed = true ∧ t.flag CLK_STATUS_mon_running = t.flag CLK_MON_CFG_mon_en ∧
        (s.flag CLK_MON_CFG_clk_lock = false → t.flag CLK_MON_CFG_mon_en = true ∧ t.fld CLK_IOSC_TRIM_trim = trim % 2 ^ (CLK_IOSC_TRIM_trim.hi + 1 - CLK_IOSC_TRIM_trim.lo)) ∧
        (s.flag CLK_MON_CFG_clk_lock = true → t.rd CLK_MON_CFG = s.rd CLK_MON_CFG ∧ t.rd CLK_IOSC_TRIM = s.rd CLK_IOSC_TRIM) ∧
        t.clk = { s.clk with r33 := .windows, windows := 0 } ∧ s.SameRegsBut t [CLK_STATUS, CLK_MON_CFG, CLK_IOSC_TRIM] ∧
        t = { s with regs := t.regs, clk := t.clk }) ∧
    (s.clk.r33 = .windows → 16 ≤ s.clk.windows →
      Ends .monitorWindowsPassed s fun t =>
        t.clk = { s.clk with r33 := .finished } ∧ t.boot = { s.boot with endpoint := true } ∧
        (t.pcie.link = true ↔ s.pcie.perst = false ∧ bitOf s.gates 14 = true ∧ s.flag CLK_STATUS_on_iosc = false) ∧
        t = { s with clk := t.clk, boot := t.boot, pcie := t.pcie, free := t.free }) ∧
    (s.clk.r33 = .windows → s.clk.windows < 16 → Ends .monitorWindowsPassed s fun t => t = s)) ∧
  (∀ s : State,
    (∀ c0 c1, s.booting = true → s.stage = 1 → s.clk.r33 = .finished → s.boot.cold = false → s.newestRecord = none →
      Ends (.taprootStageDone c0 c1) s fun t =>
        t.flag ID_BOOT_fail = true ∧ t.fld ID_BOOT_fail_cause = 1 ∧ t.safeHold = true ∧ t.flag FLASH_STATUS_recovery = true ∧ t.mem = s.mem) ∧
    (∀ c0 c1, s.booting = true → s.stage = 1 → s.clk.r33 = .finished → s.boot.cold = false →
      (∃ r, s.newestRecord = some r ∧ r.active = 0 ∧ r.state0 = 3 ∧ s.fuses.floor ≤ r.arb) →
      s.bytes (journalAt s.journal.half s.journal.page + 248) 8 = List.replicate 8 0#8 →
      c0 = ⟨true, true, true, true⟩ →
      Ends (.taprootStageDone c0 c1) s fun t =>
        t.stage = 2 ∧ t.boot.imgA = true ∧ t.boot.imgB = true ∧ t.fld FLASH_STATUS_active_bank = 0 ∧ t.safeHold = s.safeHold ∧
        t.fuses = s.fuses) ∧
    (s.powered = true → s.safeHold = false → 2 ≤ s.stage → s.boot.imgA = true → s.token = 0 → s.clk.ringOn = false →
      Ends (.heartwoodReady .a) s fun t =>
        t.token = 1 ∧ t.flag MBX_HEARTWOOD_a_running = true ∧ t.flag MBX_RED_STATUS_a_healthy = true ∧ t.fld MBX_RED_STATUS_lease_left = 16) ∧
    (s.powered = true → s.safeHold = false → 2 ≤ s.stage → s.boot.imgB = true →
      Ends (.heartwoodReady .b) s fun t =>
        t.token = s.token ∧ t.flag MBX_HEARTWOOD_b_running = true ∧ t.flag MBX_RED_STATUS_b_healthy = true ∧ t.mem = s.mem) ∧
    (s.powered = true → s.safeHold = false → s.token = 0 → s.healthy 2 = true → s.healthy 1 = false →
      Ends .tokenBFallback s fun t => t.token = 2 ∧ t.fld MBX_RED_STATUS_lease_left = 16 ∧ t.mem = s.mem) ∧
    ∀ cause, s.booting = true →
      let due := s.stage = 1 ∧ cause = 1 ∧ s.clk.r33 = .finished ∨ s.stage = 2 ∧ cause = 2 ∨ s.stage = 3 ∧ 3 ≤ cause ∧ cause ≤ 5
      (due →
        Ends (.bringupStageTimeout cause) s fun t =>
          t.flag ID_BOOT_fail = true ∧ t.fld ID_BOOT_fail_cause = cause ∧ t.safeHold = true ∧ t.token = 0 ∧ t.cmds = []) ∧
      (¬ due → Ends (.bringupStageTimeout cause) s fun t => t = s))

/-- CLOCK_STAGE_DONE and HBM_STAGE_DONE (R39, R204, R208, R426, R433): the clocks run at T4 with the ring counter at 0 and no knot set, and HBM comes up:
cold, with every line zero and the groups of failed stacks fenced; warm, out of self-refresh with its contents. LEAF_STAGE_START, LEAF_WAVE_ENABLE, LEAF_WAVE_SCAN_DONE and BRINGUP_COMPLETE (R426, R434 to R436, R452): the stage starts in a ring B once HBM and the
limbs have ended theirs, wave w enables the leaf clocks of its 18 twigs in step 2 of the guard band of ring B + 4w and has its scan in that of ring B + 4w + 64, which gives a twig without a bad position its map, and
completion, from the boundary that ends ring B + 92 (warm B + 63) on, raises the anti-rollback floor to the running image's. -/
def Obligations.BringupStagesCompleteInOrder : Prop :=
  (∀ s : State, s.booting = true →
    (s.stage = 3 →
      Ends .clockStageDone s fun t =>
        t.stage = 5 ∧ t.fld CLK_STATUS_leaf_mult = 6 ∧ t.tier = 4 ∧ t.clk.ringOn = true ∧ t.clk.slot = 0 ∧ t.rd RING_TIME = 0#64 ∧
        t.knots = [] ∧ t.mirrors = [] ∧ t.kops = [] ∧ t.mem = s.mem) ∧
    (∀ failed, 4 ≤ s.stage → s.boot.hbmDone = false → s.boot.cold = true →
      Ends (.hbmStageDone failed) s fun t =>
        t.boot = { s.boot with hbmDone := true } ∧ (∀ a, a < hbmTop → Memory.read t.mem a = 0#8) ∧
        (∀ a, hbmTop ≤ a → Memory.read t.mem a = Memory.read s.mem a) ∧
        (∀ g, g ∈ t.hbm.fenced ↔ g < 4 ∧ ∃ k, k < 3 ∧ bitOf failed (3 * g + k) = true) ∧
        (∀ k, k < 12 → (bitOf (t.fld HBM_STATUS_trained) k = true ↔ k / 3 ∉ t.hbm.fenced)) ∧
        s.SameRegsBut t [HBM_STATUS, ID_BOOT]) ∧
    (∀ failed, 4 ≤ s.stage → s.boot.hbmDone = false → s.boot.cold = false →
      Ends (.hbmStageDone failed) s fun t =>
        t.boot = { s.boot with hbmDone := true } ∧ t.mem = s.mem ∧ t.lines = s.lines ∧ t.fld HBM_STATUS_self_refresh = 0 ∧
        (∀ k, k < 12 → s.flag (HBM_SPARE_pc_pending k) = true → t.flag (HBM_SPARE_pc_used k) = true ∧ t.flag (HBM_SPARE_pc_pending k) = false) ∧
        s.SameRegsBut t (HBM_STATUS :: (List.range 12).map HBM_SPARE))) ∧
  (∀ s : State, s.booting = true →
    (s.stage = 5 → s.boot.hbmDone = true → s.clk.slot = 0 → (∀ l, l < 18 → s.limbState l = 0 ∨ 8 ≤ s.limbState l) →
      Ends .leafStageStart s fun t =>
        t.stage = 6 ∧ t.boot.leafRing = s.rings ∧ t.hbm.bbufDirty.length = 256 ∧ t.mem = s.mem ∧ t.leaves = s.leaves) ∧
    (∀ w, s.stage = 6 → w < 8 → s.boot.waves.contains w = false → s.inStep2 (s.boot.leafRing + 4 * w) = true →
      Ends (.leafWaveEnable w) s fun t =>
        t.boot = { s.boot with waves := w :: s.boot.waves } ∧
        (∀ i p, i < 18 → p < 33 → s.boot.cold = true ∨ s.isOos (w + 8 * i) p = false → (t.leaf (w + 8 * i) p).clock = true) ∧
        (∀ tw p, tw % 8 ≠ w → p < 33 → t.leaf tw p = s.leaf tw p) ∧
        (s.boot.cold = true → t.regs = s.regs ∧ t.mem = s.mem)) ∧
    (∀ w, s.boot.cold = true → s.boot.waves.contains w = true → s.boot.scanned.contains w = false → w < 8 →
      s.inStep2 (s.boot.leafRing + 4 * w + 64) = true →
      Ends (.leafWaveScanDone w []) s fun t =>
        t.boot = { s.boot with scanned := w :: s.boot.scanned } ∧
        (∀ i, i < 18 → s.fld (ID_FUSE_SPARE_bad_mask (w + 8 * i)) = 0 → s.fld (ID_FUSE_SPARE_fuse_spare (w + 8 * i)) = 0x3F →
          t.fld (TWIG_STATUS_spare_phys (w + 8 * i)) = 32) ∧
        (∀ a, a < sramAt 0 0 → Memory.read t.mem a = Memory.read s.mem a)) ∧
    (∀ ms, s.stage = 6 → s.boot.waves.length = 8 → s.boot.cold = false ∨ s.boot.scanned.length = 8 → s.clk.slot = 0 →
      s.boot.leafRing + (if s.boot.cold then 93 else 64) ≤ s.rings →
      Ends (.bringupComplete ms) s fun t =>
        t.flag ID_BOOT_done = true ∧ t.fld ID_BOOT_boot_ms = min (2 ^ 24 - 1) ms ∧ t.boot = { s.boot with everDone := true } ∧
        t.fuses = { s.fuses with floor := max s.fuses.floor (min 63 (s.fld FLASH_STATUS_active_arb)) } ∧ t.mem = s.mem))

/-! ### The clock monitor and the ring (02) -/

/-- MONITOR_WINDOW_END, EDGE_TIMEOUT and PLL_UNLOCK (R33, R59, R61 to R64, R511): a window within the limits is recorded and, in the last step of R33, counts toward its 16; a declared failure sets its
event bit, restarts R33 before the management PLL runs, and afterwards fails over into Safe Hold without epoch, ring counter or PCIe link. -/
def Obligations.ReferenceFailureFailsOver : Prop :=
  ∀ s : State, s.boot.vin = true → s.flag CLK_STATUS_mon_running = true →
    let fails (c : Instr) (ev : Fld) : Prop :=
      (s.clk.r33 ≠ .finished →
        Ends c s fun t =>
          t.flag ev = true ∧ t.clk = { s.clk with r33 := .waitEdges, windows := 0 } ∧ t.pwrState = s.pwrState ∧ t.pcie = s.pcie ∧ t.mem = s.mem) ∧
      (s.clk.r33 = .finished →
        Ends c s fun t =>
          t.flag ev = true ∧ t.safeHold = true ∧ t.flag CLK_STATUS_on_iosc = true ∧ t.epoch = false ∧ t.clk.ringOn = false ∧
          t.pcie.link = false ∧ t.flag MBX_CAL_STATUS_valid = false ∧ t.mem = s.mem)
    (∀ n, s.fld CLK_MON_CFG_pass_lo ≤ n → n ≤ s.fld CLK_MON_CFG_pass_hi →
      Ends (.monitorWindowEnd n) s fun t =>
        t.fld CLK_MON_COUNT_last_count = n ∧ t.fld CLK_MON_COUNT_min_count = min n (s.fld CLK_MON_COUNT_min_count) ∧
        t.fld CLK_MON_COUNT_max_count = max n (s.fld CLK_MON_COUNT_max_count) ∧ s.SameRegsBut t [CLK_MON_COUNT] ∧
        t.clk = (if s.clk.r33 = .windows then { s.clk with windows := s.clk.windows + 1 } else s.clk) ∧
        t = { s with regs := t.regs, clk := t.clk }) ∧
    (∀ n, n < s.fld CLK_MON_CFG_pass_lo ∨ s.fld CLK_MON_CFG_pass_hi < n → fails (.monitorWindowEnd n) CLK_EVENT_mon_fail) ∧
    fails .edgeTimeout CLK_EVENT_edge_loss ∧ fails .pllUnlock CLK_EVENT_pll_unlock

/-- SLOT_BOUNDARY (R39, R149, R151, R509): slot k starts and shows its first reference cycle. Where the ring does not admit, no command and no leaf changes by admission. Every sub-descriptor admitted stands behind the earlier work
of its leaf, starts no earlier than the slot and ends before slot 62. The segment of the only command in hand, eligible, without a wait or a fence, which fits the ring, is admitted as planned. GUARD_BAND (R24, R45 steps 1 and 2,
R52, R158): the band opens in slot 62, no leaf keeps a sub-descriptor, every register that commits as it stands holds its written value in force, and the lock of the standby PLLs is looked at. RING_BOUNDARY (R45 step 7, R46): the
ring number rises by one, reference cycle and slot return to 0, and the spread setting written takes effect. -/
def Obligations.SlotsGuardBandAndRingBoundary : Prop :=
  (∀ (s : State) (k : Nat), s.counting = true → k < 62 → s.clk.slot ≤ k →
    Ends (.slotBoundary k) s fun t =>
      t.clk.slot = k ∧ t.clk.rings = s.clk.rings ∧ t.clk.lclk0 = s.clk.lclk0 ∧
      (s.ni.rxBuf = [] → t.fld RING_TIME_ref_cycle = k * Config.slotRef s.period % 65536 ∧ t.ring = s.ring) ∧
      ((∀ st, st < 16 → (s.stand st).resetCause = none) →
        (s.admits = false → (∀ w p, (t.leaf w p).queue = (s.leaf w p).queue) ∧ t.cmds = s.cmds) ∧
        (∀ w p, ∃ new, (t.leaf w p).queue = (s.leaf w p).queue ++ new ∧
          ∀ r ∈ new, s.clk.lclk0 + k * s.slotLen ≤ r.start ∧ r.stop ≤ s.clk.lclk0 + 62 * s.slotLen ∧ r.ran = false) ∧
        ∀ (c : Cmd) (b : Nat) (plan : List (Nat × List Byte × Nat × Nat)), s.admits = true → s.cmds = [c] → s.kops = [] →
          c.stand < 16 → c.queue < 4 → b < 4 → c.boughs = [b] → c.deferred = [] → dFlag c.desc 1 = false → dFlag c.desc 3 = false →
          s.flag (CQ_STATE_halted c.stand c.queue) = false → s.evaluates b c.stand = true → c.eligible b ≤ s.rings * 64 + k →
          (∀ x ∈ c.segment b, s.parked (x.1 / 32) = false ∧ ∃ w p, s.leafPlace x.1 = some (w, p) ∧ (s.leaf w p).queue.length < 4) →
          s.planSegment c (k * s.slotLen) (c.segment b) = some plan →
          ∀ x ∈ plan, ∀ w p, s.leafPlace x.1 = some (w, p) →
            ∃ r ∈ (t.leaf w p).queue, r.stand = c.stand ∧ r.queue = c.queue ∧ r.uid = c.uid ∧ r.sub = x.2.1 ∧
              r.start = s.clk.lclk0 + x.2.2.1 ∧ r.stop = s.clk.lclk0 + x.2.2.2)) ∧
  (∀ s : State, s.counting = true → s.clk.band = 0 →
    Ends .guardBand s fun t =>
      t.clk.slot = max 62 s.clk.slot ∧ t.clk.rings = s.clk.rings ∧ t.clk.band = 2 ∧ t.clk.lockSeen = s.clk.standbyLocked ∧ t.ring = s.ring ∧
      (∀ w p, w < 144 → p < 33 → (s.slotOf w p).isSome = true → (t.leaf w p).queue = []) ∧
      (∀ a ∈ [NI_NODE, NI_CFG, TRC_STAND_EN] ++ (List.range 18).map LIMB_KEY_MAP ++ (List.range 16).map NI_FSLOT_MASK ++
          (List.range 16).map NI_RANK_GRANT ++ (List.range 16).map COLL_STAND_QUOTA ++
          (List.range 16).map STAND_MEM_SLOTS ++ (List.range 16).map STAND_SEED, t.liveRd a = s.rd a) ∧
      (∀ l i, l < 18 → i < 16 → t.liveRd (PERF_LIMB_SEL l i) = s.rd (PERF_LIMB_SEL l i)) ∧
      (∀ i, i < 65536 → t.liveRd (NI_RANK_ENTRY i) = s.rd (NI_RANK_ENTRY i)) ∧
      (∀ g, g < 4096 → t.liveRd (NI_MCAST_GROUP g) = s.rd (NI_MCAST_GROUP g)) ∧
      (s.pwr.stateReq = none → s.pwrState = 0 → t.liveRd CLK_GATE_RUN = s.rd CLK_GATE_RUN) ∧
      (s.fw.activate = true → t.hw.pausing = true)) ∧
  (∀ s : State, s.counting = true → 62 ≤ s.clk.slot →
    Ends .ringBoundary s fun t =>
      t.ring = (s.ring + 1) % 2 ^ 48 ∧ (s.ni.rxBuf = [] → t.fld RING_TIME_ref_cycle = 0) ∧ t.clk.slot = 0 ∧ t.clk.band = 0 ∧
      t.clk.rings = s.clk.rings + 1 ∧ t.clk.establishing = false ∧ t.clk.refTotal = s.clk.refTotal + Config.ringRef s.period ∧
      t.fld CLK_SSC_CFG_cur_depth = s.fld CLK_SSC_CFG_ssc_depth ∧ t.fld CLK_SSC_CFG_cur_div = s.fld CLK_SSC_CFG_ssc_div ∧
      t.period = s.period ∧ t.epoch = s.epoch)

/-- SYNC_PULSE (R35 to R37, R43, R63): a single high sample, a pulse not armed, or one in the reference cycle in which a reference failure is declared, is counted as ignored; an armed pulse is refused while work
is in hand; an accepted one establishes the epoch in ring 0 with the period written, and does not move the calendar. -/
def Obligations.SyncPulseAcceptance : Prop :=
  ∀ (s : State) (n : Nat), s.counting = true →
    (n = 1 ∨ 2 ≤ n ∧ s.epoch = true ∧ s.flag RING_CFG_sync_arm = false →
      Ends (.syncPulse ⟨n, false⟩) s fun t =>
        t.fld RING_STATUS_sync_ignored = min 65535 (s.fld RING_STATUS_sync_ignored + 1) ∧ t.epoch = s.epoch ∧ s.OnlyRegs t [RING_STATUS]) ∧
    (1 ≤ n →
      Ends (.syncPulse ⟨n, true⟩) s fun t =>
        t.fld RING_STATUS_sync_ignored = min 65535 (s.fld RING_STATUS_sync_ignored + 1) ∧ t.epoch = s.epoch ∧ s.OnlyRegs t [RING_STATUS]) ∧
    (2 ≤ n → s.epoch = true → s.flag RING_CFG_sync_arm = true → s.drained = false →
      Ends (.syncPulse ⟨n, false⟩) s fun t =>
        t.flag RING_EVENT_resync_refused = true ∧ t.flag RING_STATUS_resync_refused = true ∧ t.flag RING_CFG_sync_arm = false ∧
        t.epoch = true ∧ t.rd RING_TIME = s.rd RING_TIME ∧ t.clk = s.clk ∧ t.cmds = s.cmds ∧ s.MailboxesOnly t) ∧
    (2 ≤ n → s.epoch = false ∨ s.flag RING_CFG_sync_arm = true ∧ s.drained = true → 0 < s.refNow →
      Ends (.syncPulse ⟨n, false⟩) s fun t =>
        t.epoch = true ∧ t.fld RING_STATUS_epoch_src = 1 ∧ t.period = s.fld RING_CFG_period_pending ∧
        t.flag RING_STATUS_sync_long = decide (8 < n) ∧ (s.hw.admin = [] → t.flag RING_CFG_sync_arm = false) ∧ t.clk.rings = s.clk.rings + 1 ∧
        t.clk.slot = 0 ∧ t.clk.band = 0 ∧ t.clk.establishing = true ∧ (s.ni.rxBuf = [] → t.rd RING_TIME = 1#64 ∧ t.refNow = s.refNow))

/-! ### The two Heartwoods (14) -/

/-- SAFE_HOLD_ENTER (R387): every leaf stops with its commands, trained limbs go to HOLD, the package is at T4 with no token holder and the mailboxes
with the hardware responder; memory stays. -/
def Obligations.SafeHoldStopsTheDataPath : Prop :=
  ∀ s : State, s.powered = true →
    (s.safeHold = false →
      Ends .safeHoldEnter s fun t =>
        t.safeHold = true ∧ t.tier = 4 ∧ t.token = 0 ∧ t.cmds = [] ∧ (∀ w p, (t.leaf w p).queue = [] ∧ (t.leaf w p).clock = false) ∧
        (∀ l, l < 18 → t.limbState l = if 1 ≤ s.limbState l ∧ s.limbState l ≤ 8 then 9 else s.limbState l) ∧
        (∀ m, m < 18 → t.flag (MBX_FN_STATUS_hw_responder m) = true) ∧ t.flag MBX_RED_STATUS_safe_hold = true ∧
        t.fld MBX_RED_STATUS_last_cause = 7 ∧ t.rd MBX_RED_LAST = s.rd RING_TIME ∧ t.pins.alert = true ∧ t.mem = s.mem ∧ t.fuses = s.fuses) ∧
    (s.safeHold = true → Ends .safeHoldEnter s fun t => t = s)

/-- LEASE_EXPIRE, SURRENDER, CORE_WATCHDOG_EXPIRE, SELF_DIAG_FAIL and MIRROR_SYNC_TIMEOUT (R373, R376): a holder that fails leaves the token for the cause named,
which it keeps until it moves; a standby is reset and receives no planned transfer. TOKEN_MOVE (R373, R376, R377): the token passes to the other Heartwood if it is healthy, with the takeover counted and its cause and time recorded;
otherwise the package enters Safe Hold. The data path is not touched by a move. Expiry and move are at a ring boundary outside the activation pause (R454) and do nothing elsewhere. -/
def Obligations.FailingHeartwoodAndTheToken : Prop :=
  (∀ s : State, s.clk.slot ≠ 0 ∨ s.hw.pausing = true →
    Ends .leaseExpire s (fun t => t = s) ∧ (∀ h, Ends (.coreWatchdogExpire h) s fun t => t = s) ∧ ∀ ok, Ends (.tokenMove ok) s fun t => t = s) ∧
  (∀ s : State, s.powered = true → s.token = 1 ∨ s.token = 2 → s.safeHold = false →
    let leaves (c : Instr) (cause : Nat) : Prop :=
      Ends c s fun t =>
        t.hw = { s.hw with leave := some cause } ∧ t.healthy s.token = false ∧ t.healthy (otherNo s.token) = s.healthy (otherNo s.token) ∧
        t.token = s.token ∧ t.mem = s.mem ∧ t.cmds = s.cmds
    let standbyFails (c : Instr) : Prop :=
      Ends c s fun t =>
        t.hw = { s.hw with planned := none } ∧ t.healthy (otherNo s.token) = false ∧ t.healthy s.token = s.healthy s.token ∧
        t.token = s.token ∧ t.mem = s.mem ∧ t.cmds = s.cmds
    (s.clk.slot = 0 → s.hw.pausing = false → Ends .leaseExpire s fun t =>
      t.hw = { s.hw with leave := some 3 } ∧ t.fld MBX_RED_STATUS_lease_left = 0 ∧ s.SameRegsBut t [MBX_RED_STATUS] ∧
      t = { s with regs := t.regs, hw := t.hw }) ∧
    (s.flag MBX_RED_STATUS_takeover_running = false → leaves .surrender 1) ∧
    (∀ h, sideNo h = s.token → s.flag MBX_RED_STATUS_takeover_running = false → s.hw.pausing = false → s.clk.slot = 0 →
      leaves (.coreWatchdogExpire h) 2) ∧
    (∀ h, sideNo h = s.token → s.flag MBX_RED_STATUS_takeover_running = false → leaves (.selfDiagFail h) 1) ∧
    (s.hw.drill = none → s.healthy s.token = true →
      (∀ h, sideNo h ≠ s.token → s.hw.pausing = false → s.clk.slot = 0 → standbyFails (.coreWatchdogExpire h)) ∧
      (∀ h, sideNo h ≠ s.token → standbyFails (.selfDiagFail h)) ∧ standbyFails .mirrorSyncTimeout)) ∧
  (∀ (s : State) (cause : Nat) (ok : Bool), s.powered = true → s.token = 1 ∨ s.token = 2 → s.hw.leave = some cause → cause < 16 → s.clk.slot = 0 → s.hw.pausing = false →
    (s.healthy (otherNo s.token) = true →
      Ends (.tokenMove ok) s fun t =>
        t.token = otherNo s.token ∧ t.healthy s.token = false ∧ t.healthy (otherNo s.token) = true ∧
        t.flag MBX_RED_STATUS_takeover_running = true ∧ t.fld MBX_RED_STATUS_last_cause = cause ∧
        t.fld MBX_RED_STATUS_takeovers = min 65535 (s.fld MBX_RED_STATUS_takeovers + 1) ∧ t.rd MBX_RED_LAST = s.rd RING_TIME ∧
        t.hw = { s.hw with leave := none, planned := none, drill := none, takeoverRings := 0, holdDue := s.hw.holdDue || !ok } ∧
        t = { s with regs := t.regs, hw := t.hw }) ∧
    (s.healthy (otherNo s.token) = false → s.safeHold = false →
      Ends (.tokenMove ok) s fun t => t.safeHold = true ∧ t.token = 0 ∧ t.cmds = []))

/-- PLANNED_TRANSFER and REVERSION (R380, R381): B plans a transfer once A was healthy at 256 boundaries, and a planned transfer, at its boundary (a
renewal boundary where it is B's reversion), moves the token without a takeover; a failed actuator test makes the new holder unhealthy and the token due to return. TAKEOVER_COMPLETE, CROSSLINK_ERROR and CALENDAR_END (R358, R375, R377): a takeover ends, at a boundary after that of the move, with no record left and no transfer in progress; a crosslink error makes Safe
Hold due; the calendar stops at its last microsecond. MIRROR_RECORD_RECEIVE and MIRROR_DONE_RECEIVE (R336): the standby holds the oldest record it did not hold, and writes its slot of the oldest pair
whose writes are done. -/
def Obligations.TransfersTakeoverAndTheStandby : Prop :=
  (∀ s : State,
    (s.token = 2 → 256 ≤ s.fld MBX_RED_STATUS_a_health_rings → s.healthy 1 = true → s.transferring = false → s.fw.activate = false →
      s.hw.planned = none →
      Ends .reversion s fun t => t = { s with hw := { s.hw with planned := some 4, plannedFrom := s.clk.rings + 1 } }) ∧
    (∀ ok, s.clk.slot ≠ 0 ∨ s.hw.pausing = true ∨ s.clk.rings < s.hw.plannedFrom ∨ s.hw.planned = some 4 ∧ s.token = 2 ∧ s.ring % 4 ≠ 0 →
      Ends (.plannedTransfer ok) s fun t => t = s) ∧
    ∀ cause, s.powered = true → s.token = 1 ∨ s.token = 2 → s.hw.planned = some cause → cause < 16 → s.healthy (otherNo s.token) = true →
      s.hw.drill = none → s.clk.slot = 0 → s.hw.pausing = false → s.hw.plannedFrom ≤ s.clk.rings → cause ≠ 4 ∨ s.token = 1 ∨ s.ring % 4 = 0 →
      (Ends (.plannedTransfer true) s fun t =>
        t.token = otherNo s.token ∧ t.fld MBX_RED_STATUS_last_cause = cause ∧ t.hw = { s.hw with planned := none } ∧
        t.fld MBX_RED_STATUS_takeovers = s.fld MBX_RED_STATUS_takeovers ∧ t.healthy s.token = s.healthy s.token ∧
        t = { s with regs := t.regs, hw := t.hw }) ∧
      (s.healthy s.token = true →
        Ends (.plannedTransfer false) s fun t =>
          t.token = otherNo s.token ∧ t.healthy (otherNo s.token) = false ∧
          t.hw = { s.hw with planned := some cause, plannedFrom := s.clk.rings + 1 } ∧
          t = { s with regs := t.regs, hw := t.hw })) ∧
  (∀ s : State,
    (s.flag MBX_RED_STATUS_takeover_running = true → s.safeHold = false → s.hw.holdDue = false → s.clk.slot = 0 → 1 ≤ s.hw.takeoverRings →
      Ends .takeoverComplete s fun t =>
        t.flag MBX_RED_STATUS_takeover_running = false ∧ t.hw.records = [] ∧ t.hw.takeoverRings = 0 ∧ t.fw.activate = false ∧
        t.transferring = false ∧ t.obs.dump = none ∧ t.token = s.token ∧ t.cmds = s.cmds ∧ t.knots = s.knots ∧ t.ni.txq = s.ni.txq) ∧
    (s.powered = true → s.safeHold = false →
      Ends .crosslinkError s fun t => t = { s with hw := { s.hw with holdDue := true } }) ∧
    (s.flag MBX_CAL_STATUS_valid = true →
      Ends .calendarEnd s fun t =>
        t.flag MBX_CAL_STATUS_at_end = true ∧ t.calendarUs = calendarEndUs ∧ t.flag MBX_CAL_STATUS_valid = true ∧
        s.SameRegsBut t [MBX_CAL_STATUS] ∧ t = { s with regs := t.regs, hw := t.hw })) ∧
  (∀ s : State,
    (∀ r rest, s.hw.records = r :: rest → r.held = false →
      Ends .mirrorRecordReceive s fun t =>
        t.hw.records.head? = some { r with held := true } ∧ t.hw.records.length = s.hw.records.length ∧ t = { s with hw := t.hw }) ∧
    (∀ r rest, s.hw.records = r :: rest → r.held = true → r.done = true → s.token = 1 ∨ s.token = 2 → s.healthy (otherNo s.token) = true →
      r.slot.length = 64 →
      Ends .mirrorDoneReceive s fun t =>
        t.hw = { s.hw with records := rest } ∧
        t.bytes (rspSlotAt r.mbx r.count (otherNo s.token - 1)) 64 = s.stampSlot (otherNo s.token) r.slot ∧
        s.SameBytesBut t (rspSlotAt r.mbx r.count (otherNo s.token - 1)) 64 ∧ t = { s with hw := t.hw, mem := t.mem }))

/-! ### HBM (07) -/

/-- HBM_REGION_WRITE and HBM_RESERVE_WRITE (R191, R209, R433): an accepted write is recorded and changes nothing in force; one that overlaps another region, names the dump granule or a
fenced group, or lies out of range sets overlap_rejected and changes nothing else; a write of HBM_RESERVE with valid 0 is always accepted; one that would move a valid region of an
ACTIVE stand that is not quiescent is not carried out. GRANULE_FILL_START, GRANULE_FILL_DONE and REGION_BECOMES_VALID (R206, R207): one fill runs
per group, its end leaves the granule holding zeros under the entering stand's key and every other byte as it was, and in step 2 of a guard band a region whose granules are all filled is in force as it was committed. PATROL_SCRUB_LINE
and ROW_COPY_DONE (R201 to R204): scrubbing a line with a correctable error writes it back clean and counts it, an uncorrectable one stays and is counted; a finished copy leaves the correctable lines of its row clean. No byte of
HBM changes. -/
def Obligations.HbmRegionsFillsAndScrub : Prop :=
  (∀ (s : State) (st r : Nat) (v : Word), st < 16 → r < 4 →
    let base := bitsOf v.toNat 9 0
    let limit := bitsOf v.toNat 25 16
    (s.regionRejected st r v = false → s.regionBusy st r v = true → Ends (.hbmRegionWrite st r v) s fun t => t = s) ∧
    (s.regionBusy st r v = true ↔
      v.getLsbD 63 = true ∧ s.flag (HBM_REGION_valid st r) = true ∧ base ≠ s.fld (HBM_REGION_base st r) ∧ s.standState st = 2 ∧
        s.quiescent st = false) ∧
    (s.regionRejected st r v = false → s.regionBusy st r v = false →
      Ends (.hbmRegionWrite st r v) s fun t =>
        regionWord (t.rd (HBM_REGION st r)) = regionWord v ∧ t.flag (HBM_REGION_pending st r) = s.flag (HBM_REGION_pending st r) ∧
        s.OnlyRegs t [HBM_REGION st r]) ∧
    (s.regionRejected st r v = true →
      Ends (.hbmRegionWrite st r v) s fun t => t.flag HBM_EVENT_overlap_rejected = true ∧ s.OnlyRegs t [HBM_EVENT]) ∧
    (limit < base ∨ 575 < limit → s.regionRejected st r v = true) ∧
    (∀ st' r' w, st' < 16 → r' < 4 → (st', r') ≠ (st, r) → w ∈ s.regionWords st' r' → v.getLsbD 63 = true → w.getLsbD 63 = true →
      bitsOf w.toNat 9 0 ≤ limit → base ≤ bitsOf w.toNat 25 16 → s.regionRejected st r v = true) ∧
    (∀ g, v.getLsbD 63 = true → g ≤ 575 → base ≤ g → g ≤ limit → s.isDumpGranule g = true ∨ granuleGroup g ∈ s.hbm.fenced →
      s.regionRejected st r v = true)) ∧
  (∀ (s : State) (v : Word),
    let g := bitsOf v.toNat 9 0
    (v.getLsbD 63 = true → g ≤ 575 → s.granuleTaken g = false → granuleGroup g ∉ s.hbm.fenced →
      Ends (.hbmReserveWrite v) s fun t =>
        t.flag HBM_RESERVE_valid = true ∧ t.fld HBM_RESERVE_granule = g ∧ t.isDumpGranule g = true ∧ s.OnlyRegs t [HBM_RESERVE]) ∧
    (v.getLsbD 63 = true → g ≤ 575 → s.granuleTaken g = true ∨ granuleGroup g ∈ s.hbm.fenced →
      Ends (.hbmReserveWrite v) s fun t => t.flag HBM_EVENT_overlap_rejected = true ∧ s.OnlyRegs t [HBM_EVENT]) ∧
    (v.getLsbD 63 = true → 575 < g → Ends (.hbmReserveWrite v) s fun t => t = s) ∧
    (v.getLsbD 63 = false →
      Ends (.hbmReserveWrite v) s fun t => t.flag HBM_RESERVE_valid = false ∧ t.fld HBM_RESERVE_granule = g ∧ s.OnlyRegs t [HBM_RESERVE])) ∧
  (∀ (s : State) (g st r : Nat),
    (s.hbm.waiting.find? (fun e => e.1 == g) = some (g, st) → s.hbmOn (granuleGroup g) = true →
      (∀ e ∈ s.hbm.filling, granuleGroup e.1 ≠ granuleGroup g) →
      Ends (.granuleFillStart g) s fun t =>
        t.hbm = { s.hbm with waiting := s.hbm.waiting.erase (g, st), filling := s.hbm.filling ++ [(g, st)] } ∧
        s.SameRegsBut t [HBM_FILL_STATUS] ∧ t = { s with regs := t.regs, hbm := t.hbm }) ∧
    (s.hbm.filling.find? (fun e => e.1 == g) = some (g, st) → s.hbmOn (granuleGroup g) = true → g < 576 →
      Ends (.granuleFillDone g) s fun t =>
        (∀ a, g * 2 ^ 30 ≤ a → a < (g + 1) * 2 ^ 30 → Memory.read t.mem a = 0#8) ∧ s.SameBytesBut t (g * 2 ^ 30) (2 ^ 30) ∧
        (∀ n, g * 2 ^ 24 ≤ n → n < (g + 1) * 2 ^ 24 → t.line n = { key := s.slotKey st, err := .clean }) ∧
        t.hbm.filling = s.hbm.filling.erase (g, st) ∧ t.hbm.waiting = s.hbm.waiting ∧ s.SameRegsBut t [HBM_FILL_STATUS]) ∧
    (st < 16 → r < 4 → s.clk.band = 2 → s.flag (HBM_REGION_pending st r) = true → s.wordFilling st (s.regionTarget st r) = false →
      Ends (.regionBecomesValid st r) s fun t =>
        t.liveRd (HBM_REGION st r) = s.regionTarget st r ∧ t.flag (HBM_REGION_pending st r) = false ∧
        s.SameRegsBut t [HBM_REGION st r] ∧ s.SameLiveBut t [HBM_REGION st r] ∧ t.hbm = { s.hbm with target := t.hbm.target } ∧
        t = { s with regs := t.regs, live := t.live, hbm := t.hbm }) ∧
    (s.clk.band ≠ 2 → Ends (.regionBecomesValid st r) s fun t => t = s)) ∧
  (∀ (s : State) (n : Nat),
    (∀ found, n < hbmTop / 64 → s.fld HBM_CFG_scrub_hours ≠ 0 → s.hbmOn (n * 64 / groupBytes) = true →
      let met := joinErr (s.line n).err found
      (met = .clean → Ends (.patrolScrubLine n found) s fun t => t.line n = s.line n ∧ t.regs = s.regs ∧ t.mem = s.mem) ∧
      (∀ sym, met = .single sym →
        Ends (.patrolScrubLine n found) s fun t =>
          t.line n = { s.line n with err := .clean } ∧ t.flag HBM_EVENT_corrected = true ∧ t.fld HBM_ECC_LAST_line_addr = n ∧
          t.fld (HBM_ECC_COUNT_corrected (hbmRow n).1) =
            min (HBM_ECC_COUNT_corrected (hbmRow n).1).max (s.fld (HBM_ECC_COUNT_corrected (hbmRow n).1) + 1) ∧ t.mem = s.mem) ∧
      (met = .uncorrectable →
        Ends (.patrolScrubLine n found) s fun t =>
          (t.line n).err = .uncorrectable ∧ t.flag HBM_EVENT_uncorrectable = true ∧ t.fld HBM_ECC_LAST_line_addr = n ∧ s.MailboxesOnly t)) ∧
    ∀ stack row, (stack, row) ∈ s.hbm.copying →
      Ends (.rowCopyDone stack row) s fun t =>
        t.hbm = { s.hbm with copying := s.hbm.copying.erase (stack, row) } ∧
        (∀ m sym, hbmRow m = (stack, row) → (s.line m).err = .single sym → t.line m = { s.line m with err := .clean }) ∧
        (∀ m, hbmRow m ≠ (stack, row) → t.line m = s.line m) ∧ t = { s with lines := t.lines, hbm := t.hbm })

/-- PF0_BAR0_ACCESS (R11, R184, R198): PF0 writes whole lines of HBM no stand holds and reads back what lines under its key hold; a granule that a stand
or the dump granule takes is refused, counted and read as zeros; a CSR is read through its window. Leaf SRAM of a twig assigned to a stand is refused and counted
(R99), any other is reached. VF_BAR0_ACCESS (R190, R193): a VF writes its own stand's HBM at the translated address, and an access out of its regions is discarded, read
as zeros and counted as a fault of the stand. No VF writes leaf SRAM, bough
buffers or channel areas through BAR0, and what it reads does not depend on leaf SRAM. -/
def Obligations.OwnerAndTenantBar0Access : Prop :=
  (∀ (s : State) (a n : Nat), s.powered = true → s.pcie.d3 = false → 0 < n → 
    (a + n ≤ hbmTop → s.refusedGranule a n = none →
      (∀ bs : List Byte, bs.length = n → a % 64 = 0 → n % 64 = 0 →
        Ends (.pf0Bar0Access a (.write bs) []) s fun t =>
          t.bytes a n = bs ∧ s.SameBytesBut t a n ∧ t.out = s.out ∧ s.SameRegsBut t []) ∧
      ((∀ m, a / 64 ≤ m → m ≤ (a + n - 1) / 64 → s.line m = { key := s.keyAt a, err := .clean }) →
        Ends (.pf0Bar0Access a (.read n) []) s fun t =>
          t.out = .data (s.bytes a n) false :: s.out ∧ t.mem = s.mem ∧ s.SameRegsBut t [])) ∧
    (∀ g, a + n ≤ hbmTop → s.refusedGranule a n = some g →
      Ends (.pf0Bar0Access a (.read n) []) s fun t =>
        t.out = .data (List.replicate n 0#8) false :: s.out ∧ t.flag HBM_EVENT_window_refused = true ∧
        t.fld HBM_WINDOW_REFUSED_last_granule = g ∧ t.mem = s.mem ∧ s.SameRegsBut t [HBM_WINDOW_REFUSED, HBM_EVENT]) ∧
    (∀ off, off < 0x1000000 → off % 8 = 0 →
      Ends (.pf0Bar0Access (0xC000000000 + off) (.read 8) []) s fun t =>
        t.out = .data (leBytes 8 (s.readReg off).toNat) false :: s.out ∧ t.mem = s.mem ∧ s.SameRegsBut t []) ∧
    (∀ off, off + n ≤ 0x48000000 →
      let window := 0xA000000000 + off
      let assigned := ∃ l, off / 2 ^ 18 ≤ l ∧ l ≤ (off + n - 1) / 2 ^ 18 ∧ (s.twigStand (l / 32)).isSome = true
      (assigned →
        (Ends (.pf0Bar0Access window (.read n) []) s fun t =>
          t.out = .data (List.replicate n 0#8) false :: s.out ∧ t.mem = s.mem ∧
          t.fld TWIG_WINDOW_REFUSED_count = min TWIG_WINDOW_REFUSED_count.max (s.fld TWIG_WINDOW_REFUSED_count + 1) ∧
          s.SameRegsBut t [TWIG_WINDOW_REFUSED]) ∧
        ∀ bs : List Byte, bs.length = n →
          Ends (.pf0Bar0Access window (.write bs) []) s fun t =>
            t.out = s.out ∧ t.mem = s.mem ∧
            t.fld TWIG_WINDOW_REFUSED_count = min TWIG_WINDOW_REFUSED_count.max (s.fld TWIG_WINDOW_REFUSED_count + 1) ∧
            s.SameRegsBut t [TWIG_WINDOW_REFUSED]) ∧
      (¬ assigned →
        (Ends (.pf0Bar0Access window (.read n) []) s fun t =>
          t.out = .data (s.windowRead off n) false :: s.out ∧ t.mem = s.mem ∧ s.SameRegsBut t []) ∧
        ∀ bs : List Byte, bs.length = n →
          Ends (.pf0Bar0Access window (.write bs) []) s fun t =>
            t.mem = (s.windowWrite off bs).mem ∧ t.out = s.out ∧ s.SameRegsBut t []))) ∧
  (∀ (s : State) (st a : Nat), s.powered = true → st < 16 → a < 2 ^ 42 → s.standState st = 2 →
    (∀ (bs : List Byte) p, 0 < bs.length → s.inBounds st a bs.length = true → s.translate st a = some p → p % 64 = 0 → bs.length % 64 = 0 →
      Ends (.vfBar0Access st a (.write bs) []) s fun t =>
        t.bytes p bs.length = bs ∧ s.SameBytesBut t p bs.length ∧ t.out = s.out ∧ s.SameRegsBut t []) ∧
    (∀ n, 0 < n → s.inBounds st a n = false →
      Ends (.vfBar0Access st a (.read n) []) s fun t =>
        t.out = .data (List.replicate n 0#8) false :: s.out ∧ t.fld (STAND_FAULT_last_cause st) = 1 ∧
        t.fld (STAND_FAULT_fault_count st) = min (STAND_FAULT_fault_count st).max (s.fld (STAND_FAULT_fault_count st) + 1) ∧ t.mem = s.mem) ∧
    (∀ op upsets, Ends (.vfBar0Access st a op upsets) s fun t => ∀ x, sramAt 0 0 ≤ x → x < mbxAt 0 → Memory.read t.mem x = Memory.read s.mem x) ∧
    ∀ n m, (∀ x, x < sramAt 0 0 ∨ bbufAt 0 ≤ x → Memory.read m x = Memory.read s.mem x) →
      Ends (.vfBar0Access st a (.read n) []) s fun t => Ends (.vfBar0Access st a (.read n) []) { s with mem := m } fun u => u.out = t.out)

/-! ### Twigs and leaves (03) -/

/-- TWIG_REMAP_WRITE, TWIG_RESTORE_WRITE, REMAP_APPLY and RESTORE_BIST_DONE (R87 to R90, R324): a remap waits for the next guard band, in whose step 2 the spare
serves the slot under the next epoch and the old position goes out of service; without a spare a dead slot is fenced; outside its guard band nothing happens. A restored position that
passes is zeroized in the next guard band and becomes the spare, one that fails stays out of service; only the token holder's writes count. -/
def Obligations.TwigRemapAndRestore : Prop :=
  ∀ (s : State) (w i p : Nat), w < 144 → i < 32 → p < 33 →
    (∀ v : Word, bitsOf v.toNat 15 8 = w → bitsOf v.toNat 5 0 = i → v.getLsbD 16 = false → s.flag TWIG_REMAP_busy = false →
      (let dead := bitOf (s.fld (TWIG_LEAF_FAULT_slot_fault w)) i
       ((s.spareOf w).isSome = true ∨ dead = true →
        Ends (.twigRemapWrite .csrWrite v) s fun t =>
          t.remap = some (w, i, dead, s.nextBand) ∧ t.flag TWIG_REMAP_busy = true ∧
          s.SameRegsBut t [TWIG_REMAP] ∧ t = { s with regs := t.regs, remap := t.remap }) ∧
       (s.spareOf w = none → dead = false →
        Ends (.twigRemapWrite .csrWrite v) s fun t =>
          t.fld TWIG_REMAP_result = 2 ∧ t.flag TWIG_REMAP_busy = false ∧ s.OnlyRegs t [TWIG_REMAP])) ∧
      (s.token ≠ 2 → Ends (.twigRemapWrite (.heartwood .b) v) s fun t => t = { s with hw := { s.hw with discardB := s.hw.discardB + 1 } })) ∧
    (∀ v : Word, bitsOf v.toNat 15 8 = w → bitsOf v.toNat 5 0 = p → v.getLsbD 16 = true → s.flag TWIG_REMAP_busy = false →
      s.isOos w p = true → s.spareOf w = none →
      Ends (.twigRestoreWrite .csrWrite v) s fun t =>
        t.restore = some (w, p, none) ∧ t.flag TWIG_REMAP_busy = true ∧ t.flag (TWIG_STATUS_restore_running w) = true ∧
        s.SameRegsBut t [TWIG_REMAP, TWIG_STATUS w] ∧ t = { s with regs := t.regs, restore := t.restore }) ∧
    (∀ dead r, s.remap = some (w, i, dead, r) →
      (s.inStep2 r = true → ∀ sp old, s.spareOf w = some sp → s.physOf w i = some old → sp < 33 → old < 33 → sp ≠ old →
        Ends .remapApply s fun t =>
          t.remap = none ∧ t.physOf w i = some sp ∧ t.spareOf w = none ∧ t.isOos w old = true ∧ (t.leaf w old).clock = false ∧
          (t.leaf w sp).clock = true ∧ (t.leaf w sp).stamp = t.slotEpoch w i ∧ t.flag TWIG_REMAP_busy = false ∧
          t.fld TWIG_REMAP_result = 1 ∧ s.MailboxesOnly t) ∧
      (s.inStep2 r = true → s.spareOf w = none → dead = true →
        Ends .remapApply s fun t =>
          t.remap = none ∧ t.physOf w i = none ∧ t.slotEpoch w i = 0 ∧ t.flag (TWIG_STATUS_degraded w) = true ∧
          t.flag TWIG_REMAP_busy = false ∧ t.fld TWIG_REMAP_result = 2 ∧ s.MailboxesOnly t) ∧
      (s.inStep2 r = false → Ends .remapApply s fun t => t = s)) ∧
    (s.restore = some (w, p, none) →
      (Ends (.restoreBistDone true) s fun t =>
        t.restore = some (w, p, some s.nextBand) ∧ t.flag (TWIG_STATUS_restore_running w) = false ∧ s.SameRegsBut t [TWIG_STATUS w] ∧
        t = { s with regs := t.regs, restore := t.restore }) ∧
      Ends (.restoreBistDone false) s fun t =>
        t.restore = none ∧ t.spareOf w = s.spareOf w ∧ t.isOos w p = s.isOos w p ∧ t.fld TWIG_REMAP_result = 5 ∧
        t.flag TWIG_REMAP_busy = false ∧ s.SameRegsBut t [TWIG_REMAP, TWIG_STATUS w] ∧ t = { s with regs := t.regs, restore := none }) ∧
    ∀ r, s.restore = some (w, p, some r) → s.inStep2 r = true →
      let t := s.restoreNow
      t.restore = none ∧ t.spareOf w = some p ∧ t.isOos w p = false ∧ t.fld TWIG_REMAP_result = 1 ∧ t.flag TWIG_REMAP_busy = false ∧
      (∀ k, k < 2 ^ 18 → Memory.read t.mem (sramAt w p + k) = 0#8) ∧ s.SameBytesBut t (sramAt w p) (2 ^ 18)

/-- ID_LEAF_RESET_WRITE, LEAF_RESET, LEAF_PACKET_AT_ROUTER, LEAF_FAULT_REPORT and TWIG_BBUF_REGION_WRITE (R84, R86, R94, R389, R425): a leaf reset asked for waits for the next
guard band, where it is carried out for a twig no stand holds or a slot with its fault bit set, and refused else; a stand's reset and a fault bit allow one at any time. It clears everything of the leaf but SRAM,
stamp and clock. The router discards a packet whose slot or epoch does not match; a fault sets its slot's bit, which Heartwood turns into a remap request under auto_remap; a region that would overlap
another is not written. -/
def Obligations.LeafResetRouterAndRegions : Prop :=
  ∀ (s : State) (w i : Nat), w < 144 → i < 32 →
    (∀ v : Word, bitsOf v.toNat 15 8 = w → bitsOf v.toNat 4 0 = i → s.flag ID_LEAF_RESET_busy = false → s.flag ID_BOOT_done = true →
      Ends (.idLeafResetWrite .csrWrite v) s fun t =>
        t.leafRst = some (w, i, s.nextBand) ∧ t.flag ID_LEAF_RESET_busy = true ∧ s.SameRegsBut t [ID_LEAF_RESET] ∧
        t = { s with regs := t.regs, leafRst := t.leafRst }) ∧
    (let fault := bitOf (s.fld (TWIG_LEAF_FAULT_slot_fault w)) i
     let reset (t : State) (p : Nat) : Prop :=
      t.leaf w p = { stamp := (s.leaf w p).stamp, clock := (s.leaf w p).clock, failed := (s.leaf w p).failed } ∧
      (∀ w' p', p < 33 → p' < 33 → (w', p') ≠ (w, p) → t.leaf w' p' = s.leaf w' p') ∧ t.mem = s.mem
     (∀ p r, p < 33 → s.leafRst = some (w, i, r) → s.inStep2 r = true → s.twigStand w = none ∨ fault = true → s.physOf w i = some p →
      Ends (.leafReset (w * 32 + i)) s fun t =>
        t.leafRst = none ∧ t.flag ID_LEAF_RESET_busy = false ∧ t.fld ID_LEAF_RESET_result = 1 ∧ reset t p ∧ s.SameRegsBut t [ID_LEAF_RESET]) ∧
     (∀ r, s.leafRst = some (w, i, r) → s.inStep2 r = true → (s.twigStand w).isSome = true → fault = false →
      Ends (.leafReset (w * 32 + i)) s fun t =>
        t.leafRst = none ∧ t.flag ID_LEAF_RESET_busy = false ∧ t.fld ID_LEAF_RESET_result = 2 ∧ t.leaves = s.leaves ∧ t.mem = s.mem ∧
        s.SameRegsBut t [ID_LEAF_RESET]) ∧
     (∀ p, p < 33 → s.leafRst = none → s.physOf w i = some p → fault = true ∨ (∃ st, s.twigStand w = some st ∧ s.standState st = 3) →
      Ends (.leafReset (w * 32 + i)) s fun t => reset t p ∧ t = { s with leaves := t.leaves })) ∧
    (∀ p stamp, p < 33 → stamp < 256 → s.slotOf w p = none ∨ (∃ j, s.slotOf w p = some j ∧ s.slotEpoch w j ≠ stamp) →
      Ends (.leafPacketAtRouter w p stamp) s fun t =>
        t.fld (TWIG_STALE_stale_count w) = min (TWIG_STALE_stale_count w).max (s.fld (TWIG_STALE_stale_count w) + 1) ∧
        t.fld (TWIG_STALE_last_phys w) = p ∧ t.fld (TWIG_STALE_last_epoch w) = stamp ∧ t.leaves = s.leaves ∧ s.MailboxesOnly t) ∧
    (∀ p j, p < 33 → s.slotOf w p = some j →
      Ends (.leafPacketAtRouter w p (s.slotEpoch w j)) s fun t => t = s) ∧
    (s.hwActs = false →
      Ends (.leafFaultReport (w * 32 + i)) s fun t =>
        bitOf (t.fld (TWIG_LEAF_FAULT_slot_fault w)) i = true ∧ t.mem = s.mem ∧ t.leaves = s.leaves ∧ s.SameRegsBut t [TWIG_LEAF_FAULT w]) ∧
    (s.hwActs = true →
      (s.flag MBX_RED_CFG_auto_remap = false ∨ s.flag TWIG_REMAP_busy = true →
        Ends (.leafFaultReport (w * 32 + i)) s fun t =>
          bitOf (t.fld (TWIG_LEAF_FAULT_slot_fault w)) i = true ∧ t.remap = s.remap ∧ t.leaves = s.leaves ∧ s.MailboxesOnly t) ∧
      (s.flag MBX_RED_CFG_auto_remap = true → s.flag TWIG_REMAP_busy = false →
        Ends (.leafFaultReport (w * 32 + i)) s fun t =>
          bitOf (t.fld (TWIG_LEAF_FAULT_slot_fault w)) i = false ∧ t.remap = some (w, i, true, s.nextBand) ∧ t.flag TWIG_REMAP_busy = true ∧
          t.leaves = s.leaves ∧ s.MailboxesOnly t)) ∧
    (∀ b st (v : Word), b < 4 → st < 16 →
      let lo := bitsOf v.toNat 5 0
      let hi := bitsOf v.toNat 13 8
      let meets := ∃ st' g, st' < 16 ∧ st' ≠ st ∧ lo ≤ g ∧ g ≤ hi ∧ bbufCovers (s.rd (TWIG_BBUF_REGION b st')) g = true
      (hi < lo ∨ (v.getLsbD 63 = true ∧ meets) →
        Ends (.twigBbufRegionWrite b st v) s fun t =>
          t.flag TWIG_BBUF_STATUS_overlap_rejected = true ∧ s.OnlyRegs t [TWIG_BBUF_STATUS]) ∧
      (lo ≤ hi → v.getLsbD 63 = false ∨ ¬ meets →
        Ends (.twigBbufRegionWrite b st v) s fun t =>
          t.rd (TWIG_BBUF_REGION b st) = bbufWord v ∧ s.OnlyRegs t [TWIG_BBUF_REGION b st]))

/-! ### Power (15) and clock gates (02) -/

/-- PWR_BRAKE_N_ASSERT, PWR_BRAKE_N_DEASSERT and PLL_LOCK (R51, R408, R409): the brake path sets the standby PLLs to T4, due in the guard band of this ring, and drops
pending upward steps; its release asks for a new commit; lock makes the standby set usable. UPWARD_STEP, VDD_LC_FALL and ENVELOPE_RECHOOSE (R400, R401, R406): in step 3 of its guard band a step due raises the
tier by one where its PLLs had reported lock by the start of slot 62, and waits for the next guard band where not, or leaves the precision tier, or unparks, and is counted off; the voltage falls
to that of the tier in the guard band after; a new choice is made in the ring after the change. What is not due changes nothing. -/
def Obligations.BrakeAndSequencerSteps : Prop :=
  (∀ s : State,
    (s.pinsLive = true → s.flag PWR_STATUS_brake = false →
      Ends .pwrBrakeNAssert s fun t =>
        t.flag PWR_STATUS_brake = true ∧ t.flag PWR_EVENT_brake_assert = true ∧ t.fld PWR_STATUS_steps_left = 0 ∧ t.pwr.base = none ∧
        (s.tier < 4 → t.pwr.downAt = some s.rings ∧ t.pwr.viaBrake = true ∧ t.clk.standby = some 4) ∧
        (s.tier = 4 → t.pwr.downAt = none ∧ t.clk = s.clk) ∧ t.tier = s.tier ∧ t.mem = s.mem ∧ t.cmds = s.cmds) ∧
    (s.pinsLive = true → s.flag PWR_STATUS_brake = true →
      Ends .pwrBrakeNDeassert s fun t =>
        t.flag PWR_STATUS_brake = false ∧ t.flag PWR_EVENT_brake_release = true ∧ t.pwr = { s.pwr with dirty := true } ∧
        t.clk = s.clk ∧ t.mem = s.mem) ∧
    (s.clk.standby.isSome = true →
      Ends .pllLock s fun t =>
        t.fld CLK_STATUS_standby_locked = 15 ∧ t.clk = { s.clk with standbyLocked := true } ∧ s.SameRegsBut t [CLK_STATUS] ∧
        t = { s with regs := t.regs, clk := t.clk }) ∧
    (s.clk.standby = none → Ends .pllLock s fun t => t = s)) ∧
  (∀ s : State, s.counting = true → s.clk.band = 3 →
    (∀ b, s.pwr.base = some b → s.fld PWR_STATUS_steps_left ≠ 0 → b + 4 * (s.pwr.stepsDone + 1) - 1 ≤ s.rings →
      let counted (t : State) : Prop :=
        t.fld PWR_STATUS_steps_left = s.fld PWR_STATUS_steps_left - 1 ∧ t.pwr = { s.pwr with stepsDone := s.pwr.stepsDone + 1 }
      (s.targetTier < s.tier → s.clk.lockSeen = true →
        Ends .upwardStep s fun t =>
          t.tier = s.tier - 1 ∧ t.fld CLK_STATUS_leaf_mult = Config.leafMult (s.tier - 1) ∧ counted t ∧
          t.clk = { s.clk with standby := none, standbyLocked := false, lockSeen := false } ∧ t.fld RING_LCLK_ring_lclk = 0 ∧
          s.MailboxesOnly t) ∧
      (s.targetTier < s.tier → s.clk.lockSeen = false → Ends .upwardStep s fun t => t = s) ∧
      (s.tier ≤ s.targetTier → s.flag PWR_STATUS_narrow = true → s.flag PWR_SEQ_narrow_req = false →
        Ends .upwardStep s fun t => t.flag PWR_STATUS_narrow = false ∧ counted t ∧ t.clk = s.clk ∧ s.MailboxesOnly t) ∧
      (s.tier ≤ s.targetTier → s.flag PWR_STATUS_narrow = false ∨ s.flag PWR_SEQ_narrow_req = true →
        Ends .upwardStep s fun t =>
          (∀ x, x < 144 → (t.parked x = true ↔ s.parked x = true ∧ x ∉ s.toUnpark.take (unparkLimit s.tier))) ∧ counted t ∧
          t.clk = s.clk ∧ t.mem = s.mem)) ∧
    ((∀ b, s.pwr.base = some b → s.fld PWR_STATUS_steps_left ≠ 0 → s.rings < b + 4 * (s.pwr.stepsDone + 1) - 1) →
      Ends .upwardStep s fun t => t = s) ∧
    (∀ r, s.pwr.vddDue = some r →
      (r ≤ s.rings → Ends .vddLcFall s fun t => t = { s with pwr := { s.pwr with vddTier := max s.pwr.vddTier s.tier, vddDue := none } }) ∧
      (s.rings < r → Ends .vddLcFall s fun t => t = s)) ∧
    (s.pwr.vddDue = none → Ends .vddLcFall s fun t => t = s)) ∧
  (∀ s : State, s.counting = true → s.clk.band = 2 →
    (Ends .upwardStep s fun t => t.clk.band = 3) ∧ Ends .vddLcFall s fun t => t.clk.band = 3) ∧
  (∀ s : State,
    (∀ r, s.pwr.rechoose = some r → r < s.rings → s.hwActs = true →
      Ends .envelopeRechoose s fun t =>
        let c := s.choose (s.fld PWR_ENVELOPE_target) (s.flag PWR_ENVELOPE_park_ok) (s.flag PWR_ENVELOPE_prec_ok)
        t.fld PWR_SEQ_tier_req = c.tier ∧ t.flag PWR_SEQ_narrow_req = c.narrow ∧
        (∀ x, x < 144 → (t.parkBit x = true ↔ x ∈ c.stands.flatMap s.twigsOf)) ∧
        t.pwr = { s.pwr with rechoose := none, dirty := true } ∧ s.SameRegsBut t [PWR_SEQ, PWR_PARK 0, PWR_PARK 1, PWR_PARK 2] ∧ t.mem = s.mem) ∧
    (∀ r, s.pwr.rechoose = some r → s.rings ≤ r → Ends .envelopeRechoose s fun t => t = s))

/-- THERMAL_SAMPLE (R196, R410, R412, R413): the readings are shown; a cool set changes nothing else; a die at 105 °C starts the limit with cap_tier T4 by the brake path; a
die at 115 °C trips THERMTRIP_N with its record, and every core and leaf clock stops. -/
def Obligations.ThermalLimitAndTrip : Prop :=
  ∀ (s : State) (dies : List Int) (stackTs : List Nat), s.powered = true → dies.length = 6 → stackTs.length = 12 →
    (∀ d ∈ dies, -640 ≤ d ∧ d < 2400) → (∀ k ∈ stackTs, k < 150) →
    ((∀ d ∈ dies, d < 105 * 16) → (∀ k ∈ stackTs, k ≤ 105) →
      Ends (.thermalSample dies stackTs) s fun t =>
        (∀ i, i < 6 → t.dieTemp i = dies.getD i 0) ∧ (∀ k, k < 12 → t.stackTemp k = stackTs.getD k 0) ∧ t.fld HBM_STATUS_hot = 0 ∧
        t.pwr = { s.pwr with fullSet := true } ∧ t.pins = s.pins ∧ t.mem = s.mem ∧
        s.SameRegsBut t [PWR_THERM0, PWR_THERM1, PWR_THERM_HBM 0, PWR_THERM_HBM 1, HBM_STATUS]) ∧
    (∀ d ∈ dies, 105 * 16 ≤ d → s.flag PWR_STATUS_limit = false →
      Ends (.thermalSample dies stackTs) s fun t =>
        t.flag PWR_STATUS_limit = true ∧ t.fld PWR_STATUS_cap_tier = 4 ∧ t.fld PWR_STATUS_steps_left = 0 ∧ t.pins.alert = true) ∧
    (∀ d ∈ dies, 115 * 16 ≤ d → s.pwr.trip = false →
      Ends (.thermalSample dies stackTs) s fun t =>
        t.pins.thermtrip = true ∧ t.pwr.trip = true ∧ t.flag PWR_TRIP_REC_valid = true ∧ t.flag PWR_EVENT_trip = true ∧
        ∀ b, t.coreOn b = false ∧ t.leavesOn b = false)

/-- PARK_MASK_WRITE, CLK_GATE_WRITE and DEEP_SLEEP_EXIT_DONE (R55 to R57, R405, R416): a mask that parks an ACTIVE stand without park_allowed is refused as a whole; a set
without both management domains is refused, a set of another state is only recorded, and that of run where no stand holds what it would gate; the exit from deep sleep restores the run state, and HBM serves from the next ring. -/
def Obligations.ParkMasksGatesAndDeepSleep : Prop :=
  ∀ s : State,
    (∀ q (v : Word), q < 3 →
      ((∃ i st, i < (if q = 2 then 16 else 64) ∧ bitOf v.toNat i = true ∧ s.twigStand (64 * q + i) = some st ∧ s.standState st = 2 ∧
          s.liveFlag (STAND_CFG_park_allowed st) = false) →
        Ends (.parkMaskWrite q v) s fun t => t.flag PWR_EVENT_park_rejected = true ∧ s.OnlyRegs t [PWR_EVENT]) ∧
      ((∀ x, x < 144 → s.twigStand x = none) →
        Ends (.parkMaskWrite q v) s fun t =>
          (∀ i, i < (if q = 2 then 16 else 64) → t.parkBit (64 * q + i) = bitOf v.toNat i) ∧ t.pwr = { s.pwr with dirty := true } ∧
          s.SameRegsBut t [PWR_PARK q] ∧ t = { s with regs := t.regs, pwr := t.pwr })) ∧
    (∀ g (v : Word), bitsOf v.toNat 18 17 = 0 →
      Ends (.clkGateWrite g v) s fun t => t.flag CLK_EVENT_gate_ignored = true ∧ s.OnlyRegs t [CLK_EVENT]) ∧
    (∀ g (v : Word), bitsOf v.toNat 18 17 ≠ 0 → g ≠ .run →
      Ends (.clkGateWrite g v) s fun t => t.rd (gateReg g) = v &&& 0x1FFFFF#64 ∧ s.OnlyRegs t [gateReg g]) ∧
    (∀ v : Word, bitsOf v.toNat 18 17 ≠ 0 →
      let clears := ∃ i, i < 14 ∧ bitOf (s.rd CLK_GATE_RUN).toNat i = true ∧ bitOf v.toNat i = false ∧ s.domainHeld i = true
      (clears → Ends (.clkGateWrite .run v) s fun t => t.flag CLK_EVENT_gate_ignored = true ∧ s.OnlyRegs t [CLK_EVENT]) ∧
      (¬ clears → Ends (.clkGateWrite .run v) s fun t => t.rd CLK_GATE_RUN = v &&& 0x1FFFFF#64 ∧ s.OnlyRegs t [CLK_GATE_RUN])) ∧
    (s.pwrState = 3 → s.pwr.deepExit = true →
      Ends .deepSleepExitDone s fun t =>
        t.pwrState = 0 ∧ t.fld HBM_STATUS_self_refresh = 0 ∧ t.liveRd CLK_GATE_RUN = s.rd CLK_GATE_RUN ∧
        t.clk = { s.clk with hbmFrom := s.rings + 1 } ∧ t.pwr = { s.pwr with deepExit := false, dirty := true } ∧ t.mem = s.mem)

/-! ### Limbs (08) -/

/-- LIMB_DETECT_DONE, LIMB_BASE_EQ_DONE, LIMB_FULL_EQ_DONE and LIMB_DESKEW_DONE (R210, R212, R218, R226, R229, R230): the stages of training follow in order; the capability record is sent, failed lanes add up to a
width, a cycle count beyond the class's limit fails, and with the management key loaded the check value is sent. -/
def Obligations.LimbTrainingStages : Prop :=
  ∀ (s : State) (l : Nat), l < 18 →
    (∀ pol rev failed, s.limbState l = 1 → failed % 256 ≠ 255 →
      Ends (.limbDetectDone l pol rev failed) s fun t =>
        t.limbState l = 2 ∧ (t.limb l).failed = failed % 256 ∧ t.flag (LIMB_STATUS_lane_reversed l) = rev ∧ t.mem = s.mem ∧
        ∀ k, k ≠ l → t.limb k = s.limb k ∧ (k < 18 → t.limbState k = s.limbState k)) ∧
    (∀ pol rev failed, s.limbState l = 1 → failed % 256 = 255 →
      Ends (.limbDetectDone l pol rev failed) s fun t =>
        t.limbState l = 10 ∧ t.fld (LIMB_STATUS_fail_cause l) = 1 ∧ bitOf (t.fld LIMB_GLOBAL_STATUS_failed) l = true ∧ s.MailboxesOnly t) ∧
    (∀ failed, s.limbState l = 2 →
      let all := (s.limb l).failed ||| failed % 256
      Ends (.limbBaseEqDone l failed) s fun t =>
        t.limbState l = 3 ∧ (t.limb l).failed = all ∧ t.mem = s.mem ∧
        s.SendsFlit t l 0x01
          { llp := 2 + bit (s.flag (LIMB_CFG_allow_llp2 l)), cls := 0, limb := l, node := s.liveFld NI_NODE_node_id,
            nodeEpoch := s.liveFld NI_NODE_node_epoch, domainTag := (s.limb l).tag, reach := s.limbReach l, period := s.period,
            epochValid := s.epoch, lanes := 255 - all : Cap }.body) ∧
    (∀ failed, s.limbState l = 4 →
      let width := widthOf ((s.limb l).failed ||| failed % 256)
      (width ≠ 0 →
        Ends (.limbFullEqDone l failed) s fun t => t.limbState l = 5 ∧ t.fld (LIMB_STATUS_width l) = width ∧ t.mem = s.mem) ∧
      (width = 0 →
        Ends (.limbFullEqDone l failed) s fun t => t.limbState l = 10 ∧ t.fld (LIMB_STATUS_fail_cause l) = 2 ∧ s.MailboxesOnly t)) ∧
    (∀ flight rtt, s.limbState l = 5 →
      let checked (t : State) : Prop :=
        t.limbState l = 6 ∧ t.mem = s.mem ∧ (s.flag (LIMB_KEY_VALID_mgmt_loaded l) = true → ∃ value, s.SendsFlit t l 0x05 value) ∧
        (s.flag (LIMB_KEY_VALID_mgmt_loaded l) = false → t.out = s.out ∧ t.limbs = s.limbs)
      (s.limbReach l ≠ 3 →
        (flight + 2 ≤ (if s.limbReach l = 1 then 8 else 24) →
          Ends (.limbDeskewDone l flight rtt) s fun t =>
            checked t ∧ t.fld (LIMB_TRAINED_c l) = flight + 2 ∧ t.fld (LIMB_TRAINED_rtt l) = 2 * (240 + (flight + 2)) + 16) ∧
        ((if s.limbReach l = 1 then 8 else 24) < flight + 2 →
          Ends (.limbDeskewDone l flight rtt) s fun t =>
            t.limbState l = 10 ∧ t.fld (LIMB_STATUS_fail_cause l) = 5 ∧ s.MailboxesOnly t)) ∧
      (s.limbReach l = 3 → rtt < 2 ^ 16 →
        Ends (.limbDeskewDone l flight rtt) s fun t =>
          checked t ∧ t.fld (LIMB_TRAINED_c l) = 0 ∧ t.fld (LIMB_TRAINED_rtt l) = rtt ∧ t.fld (LIMB_ELASTIC_occ_now l) = 40))

/-- CAP_RECEIVE, KEYCHECK_RECEIVE and LIMB_TRAINING_TIMEOUT (R30, R226 to R228, R230): LLP3 is taken wherever both ends offer it, LLP2 only where both allow it, and the limb goes on unless version, domain, period or
lanes fail; without the management key, or where the check fails, the
limb fails with KEY, with it becomes ACTIVE, or aligns its ring time first; a stage beyond its bound fails. LIMB_RETRAIN, LIMB_ENABLE_WRITE, HOLD_STATUS_SEND, STATUS_HOLD_RECEIVE, COMP_IDLE_SEND and LIMB_SIGNAL_LOSS (R210, R226, R235 to R237): a write of LIMB_CFG retrains the limb under what it
wrote, or turns it off; HOLD sends and records STATUS HOLD. -/
def Obligations.LimbConfigurationKeysAndHold : Prop :=
  (∀ (s : State) (l : Nat), l < 18 →
    (∀ c : Cap, s.limbState l = 3 →
      let failed := (s.limb l).failed ||| (255 - c.lanes % 256)
      let llp := if bitOf c.llp 1 then 3 else if bitOf c.llp 0 && s.flag (LIMB_CFG_allow_llp2 l) then 2 else 0
      let foreign := c.domainTag ≠ (s.limb l).tag ∨ c.reach ≠ s.limbReach l
      let fails (cause : Nat) : Prop :=
        Ends (.capReceive l c) s fun t => t.limbState l = 10 ∧ t.fld (LIMB_STATUS_fail_cause l) = cause ∧ s.MailboxesOnly t
      (llp = 0 → fails 3) ∧
      (llp ≠ 0 → s.limbReach l ≠ 3 → foreign → fails 4) ∧
      (llp ≠ 0 → s.limbReach l ≠ 3 → ¬ foreign → c.period ≠ s.period → fails 7) ∧
      (llp ≠ 0 → s.limbReach l = 3 ∨ (¬ foreign ∧ c.period = s.period) →
        (widthOf failed = 0 ∨ (llp = 2 ∧ failed % 256 ≠ 0) → fails 2) ∧
        (widthOf failed ≠ 0 → llp = 3 ∨ failed % 256 = 0 →
          Ends (.capReceive l c) s fun t =>
            t.limbState l = (if llp = 3 then 4 else 5) ∧ t.fld (LIMB_STATUS_llp l) = llp ∧ t.fld (LIMB_STATUS_width l) = widthOf failed ∧
            (t.limb l).cap = some c ∧
            (t.flag (LIMB_STATUS_same_domain l) = true ↔ c.domainTag = (s.limb l).tag ∧ c.period = s.period) ∧ t.mem = s.mem))) ∧
    (s.limbState l = 6 →
      let keyed := s.flag (LIMB_KEY_VALID_mgmt_loaded l) = true
      let aligns := s.fld (LIMB_STATUS_llp l) = 3 ∧ s.epoch = true ∧ ∃ c, (s.limb l).cap = some c ∧ c.epochValid = true
      (keyed → ¬ aligns →
        Ends (.keycheckReceive l true) s fun t => t.limbActive l = true ∧ t.mem = s.mem ∧ l ∉ t.ni.blocked) ∧
      (keyed → aligns → Ends (.keycheckReceive l true) s fun t => t.limbState l = 7 ∧ t.mem = s.mem) ∧
      ∀ v, v = false ∨ ¬ keyed →
        Ends (.keycheckReceive l v) s fun t => t.limbState l = 10 ∧ t.fld (LIMB_STATUS_fail_cause l) = 6 ∧ s.MailboxesOnly t) ∧
    (1 ≤ s.limbState l → s.limbState l ≤ 7 →
      Ends (.limbTrainingTimeout l) s fun t =>
        t.limbState l = 10 ∧ t.fld (LIMB_STATUS_fail_cause l) = 10 ∧ s.MailboxesOnly t)) ∧
  (∀ (s : State) (l : Nat), l < 18 →
    (∀ v : Word,
      let write := if v.getLsbD 1 then Instr.limbRetrain l v else Instr.limbEnableWrite l v
      let was := s.flag (LIMB_CFG_enable l)
      let trains := v.getLsbD 0 = true ∧ s.limbState l ≠ 9 ∧ (was = false ∨ v.getLsbD 1 = true) ∧ s.limbsMayTrain = true
      (trains → bitsOf v.toNat 9 8 ≠ 0 →
        Ends write s fun t =>
          t.rd (LIMB_CFG l) = v &&& 0xFF01#64 ∧ t.limbState l = 1 ∧ (t.limb l).cfg = v &&& 0xFF01#64 ∧ (t.limb l).failed = 0 ∧
          t.fld (LIMB_TRAINED_retrain_count l) = min 65535 (s.fld (LIMB_TRAINED_retrain_count l) + 1) ∧ t.mem = s.mem) ∧
      (trains → bitsOf v.toNat 9 8 = 0 →
        Ends write s fun t =>
          t.rd (LIMB_CFG l) = v &&& 0xFF01#64 ∧ t.limbState l = 0 ∧ t.limbReach l = 0 ∧ t.mem = s.mem) ∧
      (v.getLsbD 0 = false → was = true →
        Ends write s fun t =>
          t.limbState l = 0 ∧ t.rd (LIMB_CFG l) = v &&& 0xFF01#64 ∧ bitOf (t.fld LIMB_GLOBAL_STATUS_active) l = false ∧ t.mem = s.mem ∧
          ∀ k, k < 18 → k ≠ l → t.limbState k = s.limbState k) ∧
      (¬ trains → ¬ (v.getLsbD 0 = false ∧ was = true) →
        Ends write s fun t => t.rd (LIMB_CFG l) = v &&& 0xFF01#64 ∧ s.OnlyRegs t [LIMB_CFG l])) ∧
    (s.limbState l = 9 → s.limbOn l = true →
      (s.flag CLK_STATUS_on_iosc = false →
        Ends (.holdStatusSend l) s fun t =>
          s.SendsFlit t l 0x04 [9] ∧ t = { s with out := t.out, limbs := t.limbs, free := t.free }) ∧
      (s.flag CLK_STATUS_on_iosc = true → Ends (.holdStatusSend l) s fun t => t = s)) ∧
    (s.limbState l = 8 →
      (Ends (.statusHoldReceive l) s fun t =>
        t.flag (LIMB_EVENT_partner_hold l) = true ∧ (t.limb l).partnerHold = true ∧ t.limbState l = 8 ∧ t.mem = s.mem) ∧
      (s.limbReach l = 3 → s.limbOn l = true →
        Ends (.compIdleSend l) s fun t =>
          s.SendsFlit t l 0 [] ∧ t = { s with out := t.out, limbs := t.limbs, free := t.free }) ∧
      Ends (.limbSignalLoss l) s fun t =>
        (t.limb l).rxNak = true ∧ t.limbState l = 8 ∧ t = { s with limbs := t.limbs }) ∧
    (s.limbState l = 1 →
      Ends (.limbSignalLoss l) s fun t => t.limbState l = 10 ∧ t.fld (LIMB_STATUS_fail_cause l) = 1 ∧ s.MailboxesOnly t))

/-- FLIT_RECEIVE, NAK_RECEIVE and CREDIT_RECEIVE (R213, R216, R217, R219, R220, R223, R235, R250): a flit accepted on FEC and CRC names its group and, by its acknowledgement, releases the packets of the groups covered; a packet under a
key in force whose tag matches goes to the NI, any other is counted; a bad flit is answered with a counted nak after which others
are discarded; a type of no meaning is counted; the elastic stage of L3 drops a compensation flit above 40 and retrains the limb at its ends. A nak replays its group and every later one, and their operations are LATE, or retrains the limb at
retry_limit; credits return. MARKER_RECEIVE and KEY_OLD_GEN_EXPIRE (R38, R67, R224, R234): a marker gives its epoch to a package without one through the limb configured, one with retry set is not used, any other is compared with local ring
time, and ends a training; an old key generation ends two rings after the load. That a marker counts one disagreement is the model's choice (log entry 79). -/
def Obligations.LimbTrafficAndMarkers : Prop :=
  (∀ (s : State) (l : Nat), l < 18 → s.limbState l = 8 → s.limbOn l = true →
    (∀ f : Flit, s.limbReach l ≠ 3 ∨ (0 < f.occupancy ∧ f.occupancy < 80 ∧ (f.comp = false ∨ f.occupancy ≤ 40)) →
      (f.good = true → (s.limb l).rxNak = false ∨ (f.retry = true ∧ f.seq = ((s.limb l).rxGroup + 1) % 64 * 64) →
        let a := (s.limb l).groupOf f.ackGroup
        let accepted (P : State → Prop) : Prop :=
          Ends (.flitReceive l f) s fun t =>
            (t.limb l).rxNak = false ∧ (t.limb l).rxGroup = ((f.seq + 1) / 64 + 63) % 64 ∧ t.limbState l = 8 ∧ t.mem = s.mem ∧ P t
        (f.type = 1 → a < (s.limb l).acked →
          accepted fun t => t.ni = s.ni ∧ (t.limb l).handed = (s.limb l).handed ∧ (t.limb l).acked = (s.limb l).acked ∧ t.out = s.out) ∧
        (f.type = 1 → (s.limb l).acked ≤ a →
          accepted fun t =>
            (t.limb l).acked = a + 1 ∧ (t.limb l).replay = (s.limb l).replay.filter (fun e => a < e.last) ∧
            t.ni.txq = s.ni.txq.filter fun p => !(p.limb == l && p.sent && !p.lost && decide (p.group ≤ a))) ∧
        (f.type = 3 →
          accepted fun t => t.fld (LIMB_RETRY_crc_fail l) = min (LIMB_RETRY_crc_fail l).max (s.fld (LIMB_RETRY_crc_fail l) + 1) ∧
            (t.limb l).handed = (s.limb l).handed) ∧
        (f.type = 0 → s.limbCarries l f.vc = true → f.eop = false → accepted fun t =>
          (t.limb l).handed = (s.limb l).handed ∧ (t.limb l).rxKey = (if f.sop then f.key else (s.limb l).rxKey) ∧
          (t.limb l).rxLate = ((!f.sop && (s.limb l).rxLate) || f.retry)) ∧
        (f.type = 0 → s.limbCarries l f.vc = true → f.eop = true →
          let key := if f.sop then f.key else (s.limb l).rxKey
          let late := ((!f.sop && (s.limb l).rxLate) || f.retry) && s.fld (LIMB_STATUS_llp l) == 3
          (s.keyTaken l key = true → f.tagOk = true →
            accepted fun t => (t.limb l).handed = (s.limb l).handed ++ [{ late, index := key.1, vc := f.vc }]) ∧
          (s.keyTaken l key = false ∨ f.tagOk = false →
            accepted fun t => (t.limb l).handed = (s.limb l).handed ∧
              t.fld (LIMB_CRYPTO_auth_fail l) = min (LIMB_CRYPTO_auth_fail l).max (s.fld (LIMB_CRYPTO_auth_fail l) + 1) ∧
              t.fld (LIMB_CRYPTO_last_index l) = key.1 % 32 ∧ t.flag (LIMB_EVENT_auth_fail l) = true))) ∧
      (f.good = false → (s.limb l).rxNak = false →
        Ends (.flitReceive l f) s fun t =>
          (t.limb l).rxNak = true ∧ (t.limb l).rxGroup = (s.limb l).rxGroup ∧
          t.fld (LIMB_RETRY_naks l) = min (LIMB_RETRY_naks l).max (s.fld (LIMB_RETRY_naks l) + 1) ∧
          (f.fecUncorrectable = true → t.fld (LIMB_FEC_uncorrectable_cw l) =
            min (LIMB_FEC_uncorrectable_cw l).max (s.fld (LIMB_FEC_uncorrectable_cw l) + 1)) ∧
          (f.fecUncorrectable = false → t.fld (LIMB_RETRY_crc_fail l) = min (LIMB_RETRY_crc_fail l).max (s.fld (LIMB_RETRY_crc_fail l) + 1)) ∧
          t.ni = s.ni ∧ t.out = s.out ∧ t.mem = s.mem) ∧
      ((s.limb l).rxNak = true → f.good = false ∨ f.retry = false ∨ f.seq ≠ ((s.limb l).rxGroup + 1) % 64 * 64 →
        Ends (.flitReceive l f) s fun t => t.limbs = s.limbs ∧ t.ni = s.ni ∧ t.out = s.out ∧ t.mem = s.mem)) ∧
    (∀ f : Flit, s.limbReach l = 3 →
      (f.good = true → f.comp = true → 40 < f.occupancy → f.occupancy < 80 →
        Ends (.flitReceive l f) s fun t =>
          t.limbs = s.limbs ∧ t.fld (LIMB_ELASTIC_comp_drop l) = min (LIMB_ELASTIC_comp_drop l).max (s.fld (LIMB_ELASTIC_comp_drop l) + 1) ∧
          t.fld (LIMB_ELASTIC_occ_now l) = f.occupancy ∧ t.mem = s.mem) ∧
      (f.occupancy = 0 ∨ 80 ≤ f.occupancy → s.limbsMayTrain = true → s.fld (LIMB_CFG_reach l) ≠ 0 →
        Ends (.flitReceive l f) s fun t =>
          t.flag (LIMB_EVENT_elastic_fault l) = true ∧ t.limbState l = 1 ∧ t.fld (LIMB_STATUS_fail_cause l) = 9 ∧ s.MailboxesOnly t)) ∧
    (∀ g,
      let x := s.limb l
      let g' := x.groupOf g
      let n := if x.nakGroup = some g' then x.nakCount + 1 else 1
      (n < max 1 (s.fld (LIMB_CFG_retry_limit l)) →
        Ends (.nakReceive l g) s fun t =>
          (t.limb l).nakGroup = some g' ∧ (t.limb l).nakCount = n ∧ t.limbState l = 8 ∧ t.ni.txq = s.ni.txq ∧
          (x.partnerHold = false →
            t.out = ((x.replay.filter fun e => g' ≤ e.last).map fun e => e.out.again (e.before g') x.rxGroup x.rxNak).reverse ++ s.out) ∧
          t.ni.trigs = (s.ni.trigs.map fun o =>
            if s.ni.txq.any (fun p => p.limb == l && p.sent && !p.lost && !p.mgmt && decide (g' ≤ p.group) && p.stand == o.stand && p.index == o.index)
              then { o with flags := o.flags ||| 1 } else o) ∧ t.mem = s.mem) ∧
      (max 1 (s.fld (LIMB_CFG_retry_limit l)) ≤ n → s.limbsMayTrain = true → s.fld (LIMB_CFG_reach l) ≠ 0 →
        Ends (.nakReceive l g) s fun t =>
          t.limbState l = 1 ∧ t.fld (LIMB_STATUS_fail_cause l) = 8 ∧ (t.limb l).replay = [] ∧ (t.limb l).txNext = 4096 ∧
          (∀ p ∈ t.ni.txq, p.limb = l → p.sent = true → p.lost = true) ∧ s.MailboxesOnly t)) ∧
    (∀ be mg, Ends (.creditReceive l be mg) s fun t =>
      t.ni.beUsed.get 0 l = s.ni.beUsed.get 0 l - be ∧ t.ni.mgUsed.get 0 l = s.ni.mgUsed.get 0 l - mg ∧
      (∀ k, k ≠ l → t.ni.beUsed.get 0 k = s.ni.beUsed.get 0 k ∧ t.ni.mgUsed.get 0 k = s.ni.mgUsed.get 0 k) ∧ t = { s with ni := t.ni })) ∧
  (∀ (s : State) (l : Nat) (m : Marker) (off : Int), l < 18 → s.limbState l = 8 ∨ s.limbState l = 7 → s.fld (LIMB_STATUS_llp l) = 3 →
    s.limbOn l = true → s.clk.ringOn = true →
    (m.retry = true ∨ m.epochValid = false → Ends (.markerReceive l m off) s fun t => t = s) ∧
    (m.retry = false → m.epochValid = true →
      let there := ringAfter m.period (m.ringTime / 65536) (m.ringTime % 65536)
        (15 + (if s.limbReach l = 3 then s.fld (LIMB_ELASTIC_occ_now l) else s.fld (LIMB_TRAINED_c l)) / 16)
      let gives := s.epoch = false ∧ s.fld RING_CFG_epoch_limb = l ∧ s.flag (LIMB_STATUS_same_domain l) = true
      (gives → m.period ≤ 2 → m.ringTime / 65536 + 1 < 2 ^ 48 → m.ringTime % 65536 < Config.ringRef m.period →
        Ends (.markerReceive l m off) s fun t =>
          t.epoch = true ∧ t.fld RING_STATUS_epoch_src = 2 ∧ t.ring = there.1 ∧ t.fld RING_TIME_ref_cycle = there.2 ∧
          t.clk.establishing = true ∧ s.MailboxesOnly t) ∧
      (¬ gives →
        let agrees := m.period = s.period ∧ (s.ring * Config.ringRef s.period : Nat) + off = (there.1 * Config.ringRef m.period + there.2 : Nat)
        (s.limbReach l ≠ 3 → s.limbState l = 8 →
          (agrees → Ends (.markerReceive l m off) s fun t => t = s) ∧
          (¬ agrees →
            Ends (.markerReceive l m off) s fun t =>
              t.fld RING_SLIP_COUNT_disagree_count =
                min RING_SLIP_COUNT_disagree_count.max (s.fld RING_SLIP_COUNT_disagree_count + 1) ∧
              t.fld RING_SLIP_COUNT_last_limb = l ∧ t.flag RING_EVENT_disagree = true ∧
              (m.period ≠ s.period → t.flag RING_EVENT_period_mismatch = true) ∧ t.clk = { s.clk with slipDue := true } ∧
              s.SameRegsBut t [RING_SLIP_COUNT, RING_EVENT] ∧ t = { s with regs := t.regs, clk := t.clk })) ∧
        (s.limbReach l = 3 → s.limbState l = 8 → m.period = s.period →
          ((s.limb l).baseline = none →
            Ends (.markerReceive l m off) s fun t => (t.limb l).baseline = some off ∧ t = { s with limbs := t.limbs }) ∧
          (∀ b, (s.limb l).baseline = some b → s.fld RING_CFG_slip_thresh ≠ 0 →
            let q := (off - b).natAbs / s.fld RING_CFG_slip_thresh
            ((s.limb l).slipFloor < q →
              Ends (.markerReceive l m off) s fun t =>
                t.fld RING_SLIP_COUNT_slip_count = (s.fld RING_SLIP_COUNT_slip_count + 1) % 2 ^ 32 ∧ t.fld RING_SLIP_COUNT_last_limb = l ∧
                t.flag RING_EVENT_slip = true ∧ (t.limb l).slipFloor = q ∧ t.clk = { s.clk with slipDue := true }) ∧
            (q ≤ (s.limb l).slipFloor →
              Ends (.markerReceive l m off) s fun t => (t.limb l).slipFloor = q ∧ t = { s with limbs := t.limbs }))) ∧
        (s.limbState l = 7 →
          (m.period = s.period → Ends (.markerReceive l m off) s fun t => t.limbActive l = true ∧ t.mem = s.mem) ∧
          (m.period ≠ s.period →
            Ends (.markerReceive l m off) s fun t =>
              t.limbState l = 10 ∧ t.fld (LIMB_STATUS_fail_cause l) = 7 ∧ s.MailboxesOnly t))))) ∧
  (∀ (s : State) (l : Nat) k e, l < 18 → k < 17 → (s.limb l).keys.get {} k = e → e.old = true → e.loadRing + 2 ≤ s.rings →
    Ends (.keyOldGenExpire l k) s fun t =>
      (t.limb l).keys.get {} k = { e with old := false } ∧ (∀ j, j ≠ k → (t.limb l).keys.get {} j = (s.limb l).keys.get {} j) ∧
      t = { s with limbs := t.limbs })

/-! ### The engines of a leaf (03, 05) -/

/-- NOP, ACC_SAVE and ACC_RESTORE (R73, R144): NOP does nothing, a save writes 32 bytes per accumulator and leaves the accumulators, a restore sets all 512 from
memory and leaves memory. MATMUL (R71, R72, R118): with no_drain, which names one tile, the accumulators hold the dot products and memory stays; a drain rounds those of every tile to
the output and clears the accumulators as they are read. -/
def Obligations.MatrixAndAccumulatorCommands : Prop :=
  (∀ (s : State) (n w p : Nat) (r : SubRun) (rest : List SubRun), s.HeadIs n w p r rest →
    (r.opcode = 0x00 →
      Ends (.nop n) s fun t =>
        s.HeadRan t w p r rest ∧ (t.leaf w p).accs = (s.leaf w p).accs ∧ (t.leaf w p).attnO = (s.leaf w p).attnO ∧ t.mem = s.mem) ∧
    (r.opcode = 0x02 →
      Ends (.accSave n) s fun t =>
        s.HeadRan t w p r rest ∧ (t.leaf w p).accs = (s.leaf w p).accs ∧ s.SameBytesBut t (sramAt w p + sC r.sub) 16384 ∧
        ∀ i, i < 512 → t.bytes (sramAt w p + sC r.sub + 32 * i) 32 = ((s.leaf w p).accs.get {} i).toRecord r.narrow) ∧
    (r.opcode = 0x03 →
      Ends (.accRestore n) s fun t =>
        s.HeadRan t w p r rest ∧ t.mem = s.mem ∧
        ∀ i, i < 512 → (t.leaf w p).accs.get {} i = Acc.ofRecord r.narrow (s.bytes (sramAt w p + sA r.sub + 32 * i) 32))) ∧
  (∀ (s : State) (n w p : Nat) (r : SubRun) (rest : List SubRun), s.HeadIs n w p r rest → r.opcode = 0x01 →
    let P : Place := ⟨w, p, n, r⟩
    (sBit6 r.sub = true → sDimA r.sub = 1 → sDimB r.sub = 1 →
      Ends (.matmul n) s fun t =>
        s.HeadRan t w p r rest ∧ t.mem = s.mem ∧
        ∀ i j, i < 16 → j < 32 →
          (t.leaf w p).accs.get {} (i * 32 + j) = matDot r.narrow s.mem P.aArr P.bArr (sK r.sub) i j ((s.leaf w p).accs.get {} (i * 32 + j))) ∧
    (sBit6 r.sub = false →
      Ends (.matmul n) s fun t =>
        let cols := 32 * sDimB r.sub
        let sums := (List.range (16 * sDimA r.sub * cols)).map fun x =>
          matAcc r.narrow s.mem P.aArr P.bArr (sK r.sub) (s.leaf w p).accs (x / cols) (x % cols)
        let bs := (packArray (sOut r.sub) (P.rnd s) (sums.map (Acc.value r.narrow))).1
        s.HeadRan t w p r rest ∧ (∀ i, (t.leaf w p).accs.get {} i = {}) ∧ t.bytes (sramAt w p + sC r.sub) bs.length = bs ∧
        s.SameBytesBut t (sramAt w p + sC r.sub) (outRange (sC r.sub) (sOut r.sub) (16 * sDimA r.sub * cols)).2))

/-- VEC_MAP, VEC_SFU and VEC_REDUCE (R74, R75, R121, R506): each writes the results of its function, or the exact sum of each row rounded to FP32 under round_mode, as its output of as many elements, or rows, as it
has, and no other byte; round_mode applies to a store narrower than FP32. No accumulator of the leaf changes. -/
def Obligations.VectorCommandsWriteTheirOutput : Prop :=
  ∀ (s : State) (n w p : Nat) (r : SubRun) (rest : List SubRun), s.HeadIs n w p r rest →
    let P : Place := ⟨w, p, n, r⟩
    let a (i : Nat) : Nat := (P.aArr.load s.mem i).1
    let writes (c : Instr) (count : Nat) (value : Nat → Nat) : Prop :=
      let bs := (packArray (sOut r.sub) (if sOut r.sub = 9 then fun _ => Rnd.rne else P.rnd s) ((List.range count).map fun i => f32Val (value i))).1
      Ends c s fun t =>
        s.HeadRan t w p r rest ∧ (t.leaf w p).accs = (s.leaf w p).accs ∧ (t.leaf w p).attnM = (s.leaf w p).attnM ∧
        t.bytes (sramAt w p + sC r.sub) bs.length = bs ∧
        s.SameBytesBut t (sramAt w p + sC r.sub) (outRange (sC r.sub) (sOut r.sub) count).2
    (r.opcode = 0x10 → writes (.vecMap n) (sK r.sub) fun i =>
      let fn := sFunc r.sub
      (vecFn fn (a i) (if readsB 0x10 fn then (P.bArr.load s.mem i).1 else 0) (if fn = 2 then (P.cArr.load s.mem i).1 else 0)).1) ∧
    (r.opcode = 0x11 → writes (.vecSfu n) (sK r.sub) fun i => (sfu (sFunc r.sub) (a i)).1) ∧
    (r.opcode = 0x12 → writes (.vecReduce n) (sDimA r.sub) fun i =>
      (packIeee 9 (P.rnd s i) ((sumAcc r.narrow ((List.range (sK r.sub)).map fun j => a (i * sK r.sub + j))).value r.narrow)).1)

/-- ATTN_INIT, ATTN_TILE, ATTN_FINAL, ATTN_SAVE and ATTN_LOAD (R78 to R82): INIT sets every row to minus infinity, +0 and +0; a tile changes rows below dim_a only, each by the recurrence of R79 (`tileRow`); FINAL and SAVE leave
the state; SAVE writes 128 + 4 × rows × d bytes and LOAD reads the same layout. Of rows and columns the state has 16 and 256. -/
def Obligations.AttentionStreamingState : Prop :=
  ∀ (s : State) (n w p : Nat) (r : SubRun) (rest : List SubRun), s.HeadIs n w p r rest → sDimA r.sub ≤ 16 → sDimB r.sub ≤ 256 →
    let a := sramAt w p + sC r.sub
    let same (t : State) : Prop :=
      (t.leaf w p).attnM = (s.leaf w p).attnM ∧ (t.leaf w p).attnL = (s.leaf w p).attnL ∧ (t.leaf w p).attnO = (s.leaf w p).attnO
    (r.opcode = 0x20 →
      Ends (.attnInit n) s fun t =>
        s.HeadRan t w p r rest ∧ t.mem = s.mem ∧ ∀ i j, (t.leaf w p).am i = negInf ∧ (t.leaf w p).al i = 0 ∧ (t.leaf w p).ao i j = 0) ∧
    (r.opcode = 0x21 →
      Ends (.attnTile n) s fun t =>
        s.HeadRan t w p r rest ∧ t.mem = s.mem ∧ (t.leaf w p).accs = (s.leaf w p).accs ∧
        (∀ i, sDimA r.sub ≤ i → (t.leaf w p).am i = (s.leaf w p).am i ∧ (t.leaf w p).al i = (s.leaf w p).al i) ∧
        ∀ i, i < sDimA r.sub →
          let P : Place := ⟨w, p, n, r⟩
          let x := tileRow r.narrow s.mem P.aArr P.bArr (P.arr (sC r.sub) (sBFmt r.sub) (sBScale r.sub + sDimB r.sub)) (sFunc r.sub) (sDimB r.sub)
            (sTau r.sub) (fun c => sBit6 r.sub && decide (sQueryBase r.sub + i < sKeyBase r.sub + c)) (s.leaf w p) i
          (t.leaf w p).am i = x.m ∧ (t.leaf w p).al i = x.l ∧ ∀ j, j < sDimB r.sub → (t.leaf w p).ao i j = x.o.getD j 0) ∧
    (r.opcode = 0x22 →
      Ends (.attnFinal n) s fun t =>
        s.HeadRan t w p r rest ∧ same t ∧ s.SameBytesBut t a (outRange (sC r.sub) (sOut r.sub) (sDimA r.sub * sDimB r.sub)).2) ∧
    (r.opcode = 0x23 →
      Ends (.attnSave n) s fun t =>
        s.HeadRan t w p r rest ∧ same t ∧ s.SameBytesBut t a (128 + 4 * sDimA r.sub * sDimB r.sub) ∧
        (∀ i, i < 16 → t.bytes (a + 4 * i) 4 = leBytes 4 ((s.leaf w p).am i) ∧ t.bytes (a + 64 + 4 * i) 4 = leBytes 4 ((s.leaf w p).al i)) ∧
        ∀ i j, i < sDimA r.sub → j < sDimB r.sub →
          t.bytes (a + 128 + 4 * (i * sDimB r.sub + j)) 4 = leBytes 4 ((s.leaf w p).ao i j)) ∧
    (r.opcode = 0x24 →
      Ends (.attnLoad n) s fun t =>
        s.HeadRan t w p r rest ∧ t.mem = s.mem ∧
        (∀ i, i < 16 →
          (t.leaf w p).am i = ofLe (s.bytes (sramAt w p + sA r.sub + 4 * i) 4) ∧
          (t.leaf w p).al i = ofLe (s.bytes (sramAt w p + sA r.sub + 64 + 4 * i) 4)) ∧
        ∀ i j, i < sDimA r.sub → j < sDimB r.sub →
          (t.leaf w p).ao i j = ofLe (s.bytes (sramAt w p + sA r.sub + 128 + 4 * (i * sDimB r.sub + j)) 4))

/-- MOVE_LOCAL and MOVE_REMOTE (R76, R97, R109, R145, R147, R190): a move copies its bytes, or under align the words and scale bytes of their groups, the source read whole before the destination is written: between leaf
SRAM and SRAM, or the strided runs, in order, of the stand's bough buffer, of its leaves' window, or of clean lines of its HBM. It changes no byte outside its destination. -/
def Obligations.DataMoverCopiesBytes : Prop :=
  ∀ (s : State) (n w p : Nat) (r : SubRun) (rest : List SubRun), s.HeadIs n w p r rest →
    let here (o : Nat) : Nat := sramAt w p + o
    let lands (t : State) (source : List Byte) : Prop :=
      let bs := (moved r.sub source).1
      s.HeadRan t w p r rest ∧ t.bytes (here (sC r.sub)) bs.length = bs ∧ s.SameBytesBut t (here (sC r.sub)) bs.length
    (r.opcode = 0x30 → Ends (.moveLocal n) s fun t => lands t (s.bytes (here (sA r.sub)) (sBytes r.sub))) ∧
    (r.opcode = 0x31 →
      let bbuf (a : Nat) : Nat := s.bbufPlace r.stand a
      (sStore r.sub = false →
        (sKind r.sub = 1 →
          Ends (.moveRemote n []) s fun t => lands t ((sRuns r.sub).flatMap fun a => s.bytes (bbuf a) (sCount0 r.sub))) ∧
        (sKind r.sub = 2 →
          Ends (.moveRemote n []) s fun t => lands t ((sRuns r.sub).flatMap fun a => s.windowRead a (sCount0 r.sub))) ∧
        (sKind r.sub = 0 →
          (∀ a ∈ sRuns r.sub, s.inBounds r.stand a (sCount0 r.sub) = true ∧ ∀ q, s.translate r.stand a = some q →
            ∀ m, q / 64 ≤ m → m ≤ (q + sCount0 r.sub - 1) / 64 → s.line m = { key := s.keyAt q, err := .clean }) →
          Ends (.moveRemote n []) s fun t =>
            lands t ((sRuns r.sub).flatMap fun a => s.bytes ((s.translate r.stand a).getD 0) (sCount0 r.sub)))) ∧
      (sStore r.sub = true → sKind r.sub = 1 →
        Ends (.moveRemote n []) s fun t =>
          s.HeadRan t w p r rest ∧
          (∀ x, (∀ a ∈ sRuns r.sub, x < bbuf a ∨ bbuf a + sCount0 r.sub ≤ x) → Memory.read t.mem x = Memory.read s.mem x) ∧
          (sCount1 r.sub = 1 → sCount2 r.sub = 1 →
            t.bytes (bbuf (sRemote r.sub)) (sCount0 r.sub) = s.bytes (here (sC r.sub)) (sCount0 r.sub))))

/-- The anchor of a long accumulator (R504): it stays within 0 to 255 over every contribution of magnitude exponent −564 to 459 and every partial; at 255 no rise takes place, the
sign sets pinf or ninf, and from then on no finite contribution is added. A contribution that does not need a growth rise or a larger anchor moves the sum by itself, exactly where no bit is lost (R114). -/
def Obligations.AnchorStaysInRange : Prop :=
  (∀ (narrow : Bool) (a : Acc) (neg : Bool) (m : Nat) (e : Int), a.anchor ≤ 255 → 0 < m →
    -564 ≤ e + (Nat.log2 m : Nat) → e + (Nat.log2 m : Nat) < 460 → (a.addFin narrow neg m e).anchor ≤ 255) ∧
  (∀ a b : Acc, a.anchor ≤ 255 → b.anchor ≤ 255 → (a.addXp b).anchor ≤ 255) ∧
  (∀ (a : Acc) (neg : Bool), a.anchor = 255 →
    (a.raise neg).acc = a.acc ∧ (a.raise neg).anchor = 255 ∧ (a.raise neg).pinf = (a.pinf || !neg) ∧ (a.raise neg).ninf = (a.ninf || neg) ∧
    ∀ narrow n m e, ((a.raise neg).addFin narrow n m e) = a.raise neg) ∧
  ∀ (narrow : Bool) (a : Acc) (neg : Bool) (m : Nat) (e : Int),
    a.sat = false → a.valid = true → 0 < m → e + (Nat.log2 m : Nat) < 4 * (a.anchor : Int) - 560 → unitExp narrow a.anchor ≤ e →
    let x : Int := a.acc + (if neg then -1 else 1) * (m * 2 ^ (e - unitExp narrow a.anchor).toNat : Nat)
    ({ a with acc := x }.grown narrow) = false → a.addFin narrow neg m e = { a with acc := x }

/-! ### Command queues (05) -/

/-- CQ_DOORBELL_TAIL and CQ_RESUME (R137, R138, R160): a tail in range is taken with the slot it counts from, and resume clears halted; a tail out of range is ignored with the whole write and sets doorbell_err; a queue of a
stand that is not ACTIVE takes none. DESCRIPTOR_FETCH (R137, R148, R160): the head moves past one entry, which becomes a waiting command of its queue or, failing a check with no earlier command in the way,
halts the queue; one that passes them waits with its descriptor, its leaves and its boughs. A queue that may not fetch is left as it is. -/
def Obligations.QueueDoorbellsAndFetch : Prop :=
  (∀ (s : State) (st q : Nat) (v : Word) (last : Bool), st < 16 → q < 4 →
    let tail := bitsOf v.toNat 15 0
    let seen := s.fld (CQ_STATE_tail_seen st q)
    (∀ c, c = .cqDoorbellTail st q v last ∨ (c = .cqResume st q v last ∧ v.getLsbD 63 = true) →
      (s.standState st ≠ 2 → Ends c s fun t => t = s) ∧
      (s.standState st = 2 →
        (tail < 2 ^ s.fld (CQ_CFG_log2_size st q) →
          Ends c s fun t =>
            t.flag (CQ_STATE_halted st q) = (!v.getLsbD 63 && s.flag (CQ_STATE_halted st q)) ∧ t.fld (CQ_STATE_tail_seen st q) = tail ∧
            t.bells = (if tail = seen then s.bells else s.bells ++ [(queueKey st q, tail, s.bellSlot last)]) ∧
            t.fld (CQ_STATE_head st q) = s.fld (CQ_STATE_head st q) ∧
            t.flag (CQ_STATE_doorbell_err st q) = s.flag (CQ_STATE_doorbell_err st q) ∧ s.SameRegsBut t [CQ_STATE st q] ∧
            t = { s with regs := t.regs, bells := t.bells }) ∧
        (2 ^ s.fld (CQ_CFG_log2_size st q) ≤ tail →
          Ends c s fun t =>
            t.flag (CQ_STATE_doorbell_err st q) = true ∧ t.fld (CQ_STATE_tail_seen st q) = seen ∧
            t.flag (CQ_STATE_halted st q) = s.flag (CQ_STATE_halted st q) ∧ s.OnlyRegs t [CQ_STATE st q]))) ∧
    (v.getLsbD 63 = false → Ends (.cqResume st q v last) s fun t => t = s)) ∧
  (∀ (s : State) (st q : Nat),
    (s.mayFetch st q = true →
      let i := s.fld (CQ_STATE_head st q)
      let at_ := s.entryAt st q i
      (Ends (.descriptorFetch st q) s fun t =>
        t.fld (CQ_STATE_head st q) = (i + 1) % 2 ^ s.fld (CQ_CFG_log2_size st q) % 65536 ∧
        t.fetched.get 0 (queueKey st q) = s.fetched.get 0 (queueKey st q) + 1 ∧
        (t.cmds = s.cmds ∧ t.flag (CQ_STATE_halted st q) = true ∨
          ∃ c, t.cmds = s.cmds ++ [c] ∧ c.stand = st ∧ c.queue = q ∧ c.index = i ∧ c.started = none ∧
            t.flag (CQ_STATE_halted st q) = s.flag (CQ_STATE_halted st q)) ∧
        t.leaves = s.leaves ∧ t.knots = s.knots) ∧
      (∀ d a subs, s.inBounds st at_ 128 = true → s.inBounds st (s.cplAt st q i) 32 = true → s.translate st at_ = some a → d = s.bytes a 128 →
        (∀ m, a / 64 ≤ m → m ≤ (a + 127) / 64 → s.line m = { key := s.keyAt a, err := .clean }) → dFlag d 0 = false →
        subs = (List.range (dLeaves d).length).map (fun r => ((dLeaves d).getD r 0, sRank (dOpcode d) (dSub d) (dStride d) r)) →
        s.fetchCheck st d subs = none →
        Ends (.descriptorFetch st q) s fun t =>
          ∃ c, t.cmds = s.cmds ++ [c] ∧ c.stand = st ∧ c.queue = q ∧ c.index = i ∧ c.desc = d ∧ c.subs = subs ∧ c.waiting = dLeaves d ∧
            c.boughs = ((dLeaves d).map leafBough).eraseDups ∧ c.slot = s.entrySlot (queueKey st q) ∧ c.failed = none ∧
            t.mem = s.mem ∧ t.flag (CQ_STATE_halted st q) = s.flag (CQ_STATE_halted st q))) ∧
    (s.mayFetch st q = false → Ends (.descriptorFetch st q) s fun t => t = s))

/-- SUBDESC_COMPLETE and COMMAND_COMPLETE (R83, R141, R155, R159, R160): a sub-descriptor that ends in its last lclk leaves its sequencer and issues its arrive; a command whose leaves have all arrived, or that failed a check
with none before it to admit, leaves its queue with its record, and the queue halts on a status other than OK. -/
def Obligations.CompletionOfWork : Prop :=
  ∀ s : State,
    (∀ n w p r rest lclk, s.leafPlace n = some (w, p) → (s.leaf w p).queue = r :: rest →
      (r.ran = true → s.leavesOn (leafBough n) = true → s.arrivesAt r lclk = true →
        Ends (.subdescComplete n lclk) s fun t =>
          (t.leaf w p).queue = rest ∧ (t.leaf w p).accs = (s.leaf w p).accs ∧ t.mem = s.mem ∧ t.knots = s.knots ∧
          (∀ c, s.cmdAt r.stand r.queue r.uid = some c →
            t.kops = (if dFlag c.desc 2 then
                let a := dArrive c.desc
                addKop s.kops { knot := a.1, kind := arriveKind a.2, data := if a.2 = 0 then 1 else bytesAt c.desc 44 4, stand := some r.stand,
                                source := n, issue := lclk, due := lclk + leafPath n a.1 }
              else s.kops) ∧
            ∃ d, t.cmdAt r.stand r.queue r.uid = some d ∧ n ∉ d.waiting ∧ d.last = max c.last lclk)) ∧
      (r.ran = false ∨ s.arrivesAt r lclk = false → Ends (.subdescComplete n lclk) s fun t => t = s)) ∧
    ∀ st q i,
      (∀ c, s.doneAt st q i = some c →
        (c.failed = none →
          Ends (.commandComplete st q i) s fun t =>
            (∀ d ∈ t.cmds, d.stand = st → d.queue = q → d.uid ≠ c.uid) ∧
            (c.final = 0 → t.flag (CQ_STATE_halted st q) = s.flag (CQ_STATE_halted st q)) ∧
            (c.final ≠ 0 → t.flag (CQ_STATE_halted st q) = true ∧ t.fld (CQ_STATE_halt_code st q) = c.final % 256) ∧
            (∀ p, s.inBounds st (s.cplAt st q i) 32 = true → s.translate st (s.cplAt st q i) = some p →
              s.line (p / 64) = { key := s.keyAt p, err := .clean } → t.bytes p 32 = c.record (s.timeAt s.clk.now).1) ∧
            t.fence.get 0 (queueKey st q) = max c.last (s.fence.get 0 (queueKey st q)) ∧ t.leaves = s.leaves ∧ t.knots = s.knots) ∧
        (∀ f, c.failed = some f →
          (s.unadmitted st q = false →
            Ends (.commandComplete st q i) s fun t =>
              t.cmds = s.cmds.filter (fun d => !(d.stand == st && d.queue == q && d.uid == c.uid)) ∧
              t.flag (CQ_STATE_halted st q) = true ∧ t.fld (CQ_STATE_halt_code st q) = f.status % 256 ∧ t.leaves = s.leaves ∧ t.knots = s.knots) ∧
          (s.unadmitted st q = true → Ends (.commandComplete st q i) s fun t => t = s))) ∧
      (s.doneAt st q i = none → Ends (.commandComplete st q i) s fun t => t = s)

/-! ### Knots (06) -/

/-- KNOT_ADD, KNOT_SET, KNOT_SIGNAL, KNOT_ARRIVE, KNOT_THRESH_WRITE and KNOT_CONFIG_WRITE (R163 to R165, R175): an operation of the knot's owner, or of PF0 on a knot no stand owns, is in flight from its lclk; a
foreign one is discarded and counted, and no knot changes yet. -/
def Obligations.KnotOperationsAreIssued : Prop :=
  ∀ (s : State) (o : Origin) (k data lclk : Nat) (v : Word), k < 4096 →
    let issues (c : Instr) (kind : KnotOpKind) (x : Nat) : Prop :=
      (s.knotAccess o k = some true →
        Ends c s fun t =>
          t.kops = addKop s.kops { knot := k, kind, data := x, stand := originStand o, source := windowSource, issue := lclk,
                                   due := lclk + if knotHome k / 2 = 0 then 8 else 44 } ∧
          t.knots = s.knots ∧ t.clk.now = max s.clk.now lclk ∧ s.SameRegsBut t [RING_TIME] ∧ t.mem = s.mem) ∧
      (s.knotAccess o k = some false →
        Ends c s fun t =>
          t.kops = s.kops ∧ t.knots = s.knots ∧ t.flag KNOT_EVENT_foreign = true ∧ s.OnlyRegs t [KNOT_STATUS, KNOT_EVENT]) ∧
      (s.knotAccess o k = none → Ends c s fun t => t = s)
    issues (.knotAdd o k data lclk) .add (data % 2 ^ 32) ∧ issues (.knotSet o k data lclk) .set (data % 2 ^ 32) ∧
    issues (.knotSignal o k data lclk) .signal (data % 2 ^ 32) ∧ issues (.knotArrive o k lclk) .arrive 1 ∧
    issues (.knotThreshWrite o k v lclk) .thresh v.toNat ∧ issues (.knotConfigWrite o k v lclk) .config (v.toNat % 16)

/-- KNOT_TEST, KNOT_UPDATE_APPLY and KNOT_REFIRE (R163, R168 to R170, R174): a test reads its word as of the lclk in which it reaches the slice, with what reached it before, and a foreign one reads 0 and counts; an update without an operation due leaves the knot, an addition below the threshold moves the
value, one that reaches it fires and without a step disarms, an arrival at a barrier wraps the value into the generation; a knot that has passed its next threshold fires again in a following lclk. MIRROR_APPLY (R172, R173, R179): every dispatcher's mirror of a knot applies the same operations 70 lclk after their
issue, or with the home slice if that is later, which is counted; a changed mode clears them; the update before stays readable for two lclk, and no other mirror and no
knot changes. -/
def Obligations.KnotUpdatesFiresAndMirrors : Prop :=
  (∀ (s : State) (k lclk : Nat), k < 4096 →
    let x := s.knot k
    let reached (op : KnotOp) : Prop := op.due ≤ lclk ∧ (op.waits = true → (lclk - op.due) % 2 = 0)
    (∀ o word, word < 8 →
      let quiet := x.refire = false ∧ ∀ op ∈ s.kops, op.knot = k → op.home = none → op.waits = false → lclk + ioPath 0 k < op.due
      let reads (w : Word) (P : State → Prop) : Prop :=
        Ends (.knotTest o k ⟨word, lclk⟩) s fun t => t.out = .data (leBytes 8 w.toNat) false :: s.out ∧ t.mem = s.mem ∧ P t
      (s.knotAccess o k = some true → quiet → reads (x.word word) fun t => t.knots = s.knots ∧ s.SameRegsBut t [RING_TIME]) ∧
      (s.knotAccess o k = some true → x.refire = false → x.armed = false → x.mode = .count →
        ∀ op, s.kops = [op] → op.knot = k → op.kind = .add → op.home = none → op.waits = false → op.due ≤ lclk + ioPath 0 k → s.knotOwned op = true →
          reads ({ x with value := x.value + BitVec.ofNat 32 op.data : Knot }.word word) fun t => t.fires = s.fires) ∧
      (s.knotAccess o k = some false →
        reads 0#64 fun t => t.knots = s.knots ∧ t.flag KNOT_EVENT_foreign = true ∧ s.SameRegsBut t [RING_TIME, KNOT_STATUS, KNOT_EVENT]) ∧
      (s.knotAccess o k = none → reads 0#64 fun t => t.knots = s.knots ∧ s.SameRegsBut t [RING_TIME])) ∧
    (s.coreOn (knotHome k) = true → x.refire = false →
      ((∀ op ∈ s.kops, op.knot = k → op.home = none → lclk < op.due) →
        Ends (.knotUpdateApply k lclk) s fun t =>
          t.knot k = x ∧ t.kops = s.kops ∧ t.fires = s.fires ∧ s.SameRegsBut t [RING_TIME] ∧ ∀ j, j ≠ k → t.knot j = s.knot j) ∧
      (∀ op, s.kops = [op] → op.knot = k → op.home = none → reached op → s.knotOwned op = true →
        let v := x.value + BitVec.ofNat 32 op.data
        (op.kind = .add → x.mode = .count → x.armed = false →
          Ends (.knotUpdateApply k lclk) s fun t => t.knot k = { x with value := v } ∧ t.fires = s.fires) ∧
        (op.kind = .add → x.mode = .count → x.armed = true → x.step = 0 → x.nextFire ≤ op.due →
          serialGe 32 x.value.toNat x.thresh.toNat = false → serialGe 32 v.toNat x.thresh.toNat = true →
          Ends (.knotUpdateApply k lclk) s fun t =>
            (t.knot k).value = v ∧ (t.knot k).armed = false ∧ t.fires.length = s.fires.length + popcount 2 x.niMask.toNat) ∧
        (op.kind = .arrive → x.mode = .barrier → x.thresh ≠ 0 →
          let n := (x.value + 1#32).toNat
          Ends (.knotUpdateApply k lclk) s fun t =>
            (t.knot k).value = BitVec.ofNat 32 (n % x.thresh.toNat) ∧ (t.knot k).gen = x.gen + BitVec.ofNat 16 (n / x.thresh.toNat)))) ∧
    (s.coreOn (knotHome k) = true →
      (x.again = true → x.nextFire ≤ lclk → x.step ≠ 0 →
        Ends (.knotRefire k lclk) s fun t =>
          (t.knot k).thresh = x.thresh + x.step ∧ (t.knot k).value = x.value ∧ (t.knot k).nextFire = x.nextFire + 1 ∧
          t.fires.length = s.fires.length + popcount 2 x.niMask.toNat) ∧
      (x.again = false ∨ lclk < x.nextFire → Ends (.knotRefire k lclk) s fun t => t = s))) ∧
  (∀ (s : State) (k lclk : Nat), k < 4096 → s.coreOn (knotHome k) = true → (s.knot k).refire = false →
    ((∀ op ∈ s.kops, op.knot = k → op.home = none → op.waits = false → lclk < op.due) →
      (∀ op ∈ s.kops, ∀ home, op.knot = k → op.home = some home → lclk < max home (op.issue + 70)) →
      Ends (.mirrorApply k lclk) s fun t =>
        t.mirror 0 k = s.mirror 0 k ∧ t.kops = s.kops ∧ t.knots = s.knots ∧
        ∀ b j, b < 4 → j < 4096 → j ≠ k → t.mirror b j = s.mirror b j) ∧
    (∀ (op : KnotOp) home, s.kops = [op] → op.knot = k → op.home = some home →
      let m := max home (op.issue + 70)
      m ≤ lclk → s.knotOwned op = true → op.taken = true → (∀ e ∈ s.mirrorLog, e.2.1 = k → e.1 < m) →
      let applies (new : BitVec 32 × BitVec 16) : Prop :=
        Ends (.mirrorApply k lclk) s fun t =>
          (∀ b, b < 4 → t.mirror b k = new) ∧ t.mirrorSeen 0 k (m + 1) = s.mirror 0 k ∧ t.kops = [] ∧ t.knots = s.knots ∧
          (op.issue + 70 < home → t.flag KNOT_EVENT_late = true ∧
            t.fld KNOT_LATE_COUNT_count = min KNOT_LATE_COUNT_count.max (s.fld KNOT_LATE_COUNT_count + 1))
      (op.kind = .add → op.mode = .count → op.cleared = false → applies ((s.mirror 0 k).1 + BitVec.ofNat 32 op.data, (s.mirror 0 k).2)) ∧
      (op.cleared = true → applies (0, 0))))

/-! ### Channels and the tables of the NIs (09, 10) -/

/-- COLL_CHAN_CFG_WRITE, COLL_SCHED_WRITE, COLL_STAND_QUOTA_WRITE, NI_FSLOT_MASK_WRITE and NI_RANK_GRANT_WRITE (R243, R253, R259, R272, R280, R281): each takes a value that
passes its check and else leaves its register and flags the rejection. NI_DRAIN_START, DRAIN_COMPLETE and NI_DRAIN_RELEASE (R259), CHAN_AREA_ZEROIZE_DONE (R280), CRC_WINDOW_EXPIRE (R297): the drain of one stand is started while none is, ends with 1 added to its
knot, and is released once committed, and in every state the two fields are written; in step 2 of a guard band a channel is as its write binds it when no unit that left or entered its area awaits zeroization; a nak
window ends with its count at 0; before its time each changes nothing. The ring the first window counts from and the stand and knot a drain keeps are the model's choice (log entries 37, 84). -/
def Obligations.FabricTableWritesAndDrain : Prop :=
  (∀ (s : State) (v : Word),
    (∀ c, c < 64 →
      (s.chanRejected c v = true →
        Ends (.collChanCfgWrite c v) s fun t => t.flag COLL_EVENT_area_rejected = true ∧ s.OnlyRegs t [COLL_EVENT]) ∧
      (s.chanRejected c v = false →
        Ends (.collChanCfgWrite c v) s fun t =>
          t.rd (COLL_CHAN_CFG c) &&& chanMask = v &&& chanMask ∧ t.fld (COLL_CHAN_CFG_pending c) = s.fld (COLL_CHAN_CFG_pending c) ∧
          s.OnlyRegs t [COLL_CHAN_CFG c])) ∧
    (∀ e q, e < 2 → q < 8 →
      Ends (.collSchedWrite e q v) s fun t =>
        (∀ i, i < 8 → ¬ (q = 7 ∧ 6 ≤ i) →
          byteOf (t.rd (COLL_SCHED e q)) i =
            if s.schedOk e (byteOf v i &&& 0xBF) then byteOf v i &&& 0xBF else byteOf (s.rd (COLL_SCHED e q)) i) ∧
        s.OnlyRegs t [COLL_SCHED e q, COLL_EVENT]) ∧
    ∀ st, st < 16 →
      (let fits := s.otherShares st 0 + bitsOf v.toNat 11 0 ≤ 2048 ∧ s.otherShares st 1 + bitsOf v.toNat 27 16 ≤ 2048
       (fits →
          Ends (.collStandQuotaWrite st v) s fun t =>
            t.fld (COLL_STAND_QUOTA_quota0 st) = bitsOf v.toNat 11 0 ∧ t.fld (COLL_STAND_QUOTA_quota1 st) = bitsOf v.toNat 27 16 ∧
            t.fld (COLL_STAND_QUOTA_used0 st) = s.fld (COLL_STAND_QUOTA_used0 st) ∧ s.OnlyRegs t [COLL_STAND_QUOTA st]) ∧
       (¬ fits →
          Ends (.collStandQuotaWrite st v) s fun t => t.flag COLL_EVENT_quota_rejected = true ∧ s.OnlyRegs t [COLL_EVENT])) ∧
      (let clash := ∃ x, x < 16 ∧ x ≠ st ∧ s.fld (NI_FSLOT_MASK_slots x) &&& bitsOf v.toNat 61 0 ≠ 0
       (clash → Ends (.niFslotMaskWrite st v) s fun t => t.flag NI_EVENT_mask_overlap = true ∧ s.OnlyRegs t [NI_EVENT]) ∧
       (¬ clash → s.drainedOk st = false →
          Ends (.niFslotMaskWrite st v) s fun t => t.flag NI_EVENT_table_refused = true ∧ s.OnlyRegs t [NI_EVENT]) ∧
       (¬ clash → s.drainedOk st = true →
          Ends (.niFslotMaskWrite st v) s fun t =>
            t.fld (NI_FSLOT_MASK_slots st) = bitsOf v.toNat 61 0 ∧ s.OnlyRegs t [NI_FSLOT_MASK st])) ∧
      (let taken := s.drainedOk st = true ∧ (v.getLsbD 63 = false ∨ s.grantClash st (bitsOf v.toNat 21 16) (bitsOf v.toNat 6 0) = false)
       (taken →
          Ends (.niRankGrantWrite st v) s fun t =>
            t.rd (NI_RANK_GRANT st) = v &&& 0x80000000003F007F#64 ∧ s.OnlyRegs t [NI_RANK_GRANT st]) ∧
       (¬ taken →
          Ends (.niRankGrantWrite st v) s fun t => t.flag NI_EVENT_table_refused = true ∧ s.OnlyRegs t [NI_EVENT]))) ∧
  (∀ s : State,
    (∀ (v : Word) (c : Instr), (v.getLsbD 32 = true ∧ c = .niDrainStart v) ∨ (v.getLsbD 33 = true ∧ c = .niDrainRelease v) →
      let stand := bitsOf v.toNat 19 16
      let k := bitsOf v.toNat 11 0
      let written (t : State) : Prop := t.fld NI_DRAIN_stand = stand ∧ t.fld NI_DRAIN_drain_knot = k ∧ s.SameRegsBut t [NI_DRAIN]
      (s.fld NI_DRAIN_state = 0 → v.getLsbD 32 = true →
        Ends c s fun t =>
          t.fld NI_DRAIN_state = 1 ∧ written t ∧ t = { s with regs := t.regs, ni := { s.ni with drainStand := stand, drainKnot := k } }) ∧
      (s.fld NI_DRAIN_state = 3 → v.getLsbD 33 = true →
        Ends c s fun t =>
          t.fld NI_DRAIN_state = 0 ∧ written t ∧
          t = { s with regs := t.regs, ni := { s.ni with resume := s.ni.drainStand :: s.ni.resume } }) ∧
      ((s.fld NI_DRAIN_state = 0 → v.getLsbD 32 = false) → (s.fld NI_DRAIN_state = 3 → v.getLsbD 33 = false) →
        Ends c s fun t => t.fld NI_DRAIN_state = s.fld NI_DRAIN_state ∧ written t ∧ t = { s with regs := t.regs })) ∧
    (s.fld NI_DRAIN_state = 1 → s.inFlight s.ni.drainStand = false →
      s.hwActs = false ∨ (s.hw.admin = [] ∧ ∀ st, (s.stand st).teardown = 0) →
      Ends .drainComplete s fun t =>
        let k := s.ni.drainKnot
        t.fld NI_DRAIN_state = 2 ∧ t.ni = s.ni ∧ t.knots = s.knots ∧ s.SameRegsBut t [NI_DRAIN, RING_TIME] ∧ t.mem = s.mem ∧
        t.kops = addKop s.kops { knot := k, kind := .add, data := 1, stand := some s.ni.drainStand, source := niSource 0,
                                 issue := s.clk.now, due := s.clk.now + ioPath 0 k }) ∧
    (s.fld NI_DRAIN_state ≠ 1 ∨ s.inFlight s.ni.drainStand = true → Ends .drainComplete s fun t => t = s) ∧
    ∀ c, c < 64 →
      (s.inStep2 0 = true → s.flag (COLL_CHAN_CFG_pending c) = true →
        (∀ u ∈ (s.coll.moved.get (false, []) c).2, u ∉ s.coll.dirty) →
        Ends (.chanAreaZeroizeDone c) s fun t =>
          t.flag (COLL_CHAN_CFG_pending c) = false ∧ t.chanValid c = (s.coll.moved.get (false, []) c).1 ∧ t.chanStand c = s.chanStand c ∧
          t.coll.moved.get (false, []) c = (false, []) ∧ t.coll.dirty = s.coll.dirty ∧ t.coll.chunks = s.coll.chunks ∧
          s.SameRegsBut t [COLL_CHAN_CFG c] ∧ s.SameLiveBut t [COLL_CHAN_CFG c] ∧
          t = { s with regs := t.regs, live := t.live, coll := t.coll }) ∧
      (s.inStep2 0 = false ∨ s.flag (COLL_CHAN_CFG_pending c) = false ∨
          (∃ u ∈ (s.coll.moved.get (false, []) c).2, u ∈ s.coll.dirty) →
        Ends (.chanAreaZeroizeDone c) s fun t => t = s) ∧
      (s.rings < s.coll.window.get 0 c + max 1 (s.fld COLL_CRC_WINDOW_rings) → Ends (.crcWindowExpire c) s fun t => t = s) ∧
      (s.coll.window.get 0 c + max 1 (s.fld COLL_CRC_WINDOW_rings) ≤ s.rings →
        Ends (.crcWindowExpire c) s fun t =>
          t.fld (COLL_CHAN_CRC_naks_window c) = 0 ∧ t.coll.window.get 0 c = s.rings ∧ t.coll.chunks = s.coll.chunks ∧
          s.SameRegsBut t [COLL_CHAN_CRC c] ∧ t = { s with regs := t.regs, coll := t.coll }))

/-! ### What the NIs send (09) -/

/-- PACKET_INJECT_SCHEDULED and PACKET_INJECT_BEST_EFFORT (R243 to R251): in a slot of its stand the first packet queued for the limb that fits at the cycle leaves in the scheduled
class, and the first packet of the NI that may begin at the cycle leaves on its limb in its own class; one without a key to send under is dropped; a packet by loopback leaves the queue and is delivered by the same NI;
nothing is sent otherwise. PACKET_RESEND and RESEND_TIMEOUT (R258): a lost packet goes once more, best-effort and with resent set, on another limb than the one that lost it where there is one, and a second loss
or 16 rings without an ACTIVE limb ends its operation with LINK. That the second loss counts as LINK is the model's reading (log entry 45). -/
def Obligations.PacketsAreInjectedAndResent : Prop :=
  (∀ s : State,
    (∀ l cycle, l < 20 →
      let open_ : Prop := s.liveFlag NI_NODE_valid = true ∧ s.epoch = true ∧ s.clk.establishing = false ∧ cycle / s.slotCycles < 62
      (∀ st i p, open_ → s.slotOwner (cycle / s.slotCycles) = some st → s.standHeld st = false → s.schedHead st l = some i → s.ni.txq[i]? = some p →
        (s.maySched p l cycle = true → l < 18 →
          (∀ k, s.CanSend l p k → Ends (.packetInjectScheduled l cycle) s fun t => s.SendsPacket t i l k cycle p) ∧
          ((∀ k, ¬ s.CanSend l p k) → Ends (.packetInjectScheduled l cycle) s fun t => s.DropsPacket t i)) ∧
        (s.maySched p l cycle = true → 18 ≤ l →
          Ends (.packetInjectScheduled l cycle) s fun t => (∃ ps, t.ni.txq = s.ni.txq.eraseIdx i ++ ps) ∧ t.limbs = s.limbs) ∧
        (s.maySched p l cycle = false → Ends (.packetInjectScheduled l cycle) s fun t => t = s)) ∧
      (¬ open_ ∨ (∀ st, s.slotOwner (cycle / s.slotCycles) = some st → s.standHeld st = true ∨ s.schedHead st l = none) →
        Ends (.packetInjectScheduled l cycle) s fun t => t = s)) ∧
    ∀ io cycle, io < 2 →
      let c := Instr.packetInjectBestEffort ⟨io, cycle⟩
      (s.liveFlag NI_NODE_valid = true → s.niOn io = true →
        let u := s.assignAll io
        (u.beHead io cycle = none → Ends c s fun t => t = { s with ni := t.ni } ∧ t.ni.txq.length = s.ni.txq.length) ∧
        ∀ i p, u.beHead io cycle = some (i, p) →
          (p.limb < 18 →
            (∀ k, u.CanSend p.limb p k → Ends c s fun t => u.SendsPacket t i p.limb k cycle p) ∧
            ((∀ k, ¬ u.CanSend p.limb p k) → Ends c s fun t => u.DropsPacket t i)) ∧
          (18 ≤ p.limb → Ends c s fun t => (∃ ps, t.ni.txq = u.ni.txq.eraseIdx i ++ ps) ∧ t.limbs = s.limbs)) ∧
      (s.liveFlag NI_NODE_valid = false ∨ s.niOn io = false → Ends c s fun t => t = s)) ∧
  (∀ (s : State) (i : Nat),
    (∀ p, s.ni.txq[i]? = some p →
      let failed (t : State) : Prop :=
        t = { s with ni := t.ni } ∧ t.ni.txq = s.ni.txq.eraseIdx i ∧
        (p.mgmt = false →
          (t.trigAt p.stand p.index).map (·.status) = (s.trigAt p.stand p.index).map fun x => if x.status = 0 then 0x11 else x.status)
      (p.lost = true → s.carriers p ≠ [] → p.pkt.resent = false →
        Ends (.packetResend i) s fun t =>
          t = { s with ni := t.ni } ∧ t.ni.txq.length = s.ni.txq.length ∧
          (t.trigAt p.stand p.index).map (·.flags) = (s.trigAt p.stand p.index).map (fun x => x.flags ||| 1) ∧
          ∃ q, t.ni.txq[i]? = some q ∧ q.sent = false ∧ q.lost = false ∧ q.sched = false ∧ q.pkt = { p.pkt with flags := p.pkt.flags ||| 2 } ∧
            (s.isLoop p = false →
              q.limb = 31 ∨ (q.limb ∈ s.carriers p ∧ ((∃ l ∈ s.carriers p, l ≠ p.avoid) → q.limb ≠ p.avoid)))) ∧
      (p.lost = true → s.carriers p ≠ [] → p.pkt.resent = true → Ends (.packetResend i) s failed) ∧
      (p.lost = false ∨ s.carriers p = [] → Ends (.packetResend i) s fun t => t = s) ∧
      (p.lost = true ∨ p.sent = false → s.isLoop p = false → s.carriers p = [] → p.since + 16 ≤ s.rings → Ends (.resendTimeout i) s failed) ∧
      ((p.lost = false ∧ p.sent = true) ∨ s.isLoop p = true ∨ s.carriers p ≠ [] ∨ s.rings < p.since + 16 →
        Ends (.resendTimeout i) s fun t => t = s)) ∧
    (s.ni.txq.length ≤ i → Ends (.packetResend i) s (fun t => t = s) ∧ Ends (.resendTimeout i) s fun t => t = s))

/-- FAULT_RECEIVE, FAULT_ENTRY_FREE and FAULT_NOTICE_SEND (R265, R266, R393, R456): a notice counts in the entry of its key, or takes a free one, or is counted as overflow, and waits in its receive buffer
during the activation pause; an entry idle for 64 rings is freed; a held notice is sent in the management class on the limb of its route that R251 names once it may begin there, or dropped without an ACTIVE
limb. -/
def Obligations.FaultNoticesCoalesce : Prop :=
  ∀ s : State,
    (∀ r x : Rx, s.Takes r x → r.pkt.type = 9 → s.rxCheck x = 0 →
      let node := r.pkt.faultKey.1
      let code := r.pkt.faultKey.2.1
      let epoch := r.pkt.faultKey.2.2
      let only (t : State) (rs : List Nat) : Prop :=
        t = { s with regs := t.regs, ni := t.ni, limbs := t.limbs, out := t.out, free := t.free } ∧ s.SameRegsBut t rs ∧
        (x.sched = false → s.SendsFlit t r.limb 3 (creditFlit 0 1)) ∧ (x.sched = true → t.out = s.out)
      (s.hw.pausing = true →
        Ends (.faultReceive r) s fun t => t.ni = { s.ni with rxBuf := [x] } ∧ t = { s with ni := t.ni, limbs := t.limbs }) ∧
      (s.hw.pausing = false →
        (∀ i, (faultPlaces.find? fun i => s.faultIs i node code epoch) = some i →
          Ends (.faultReceive r) s fun t =>
            t.fld (NI_FAULT_ENTRY_count i) = min 65535 (s.fld (NI_FAULT_ENTRY_count i) + 1) ∧ t.fld (NI_FAULT_ENTRY_idle_rings i) = 0 ∧
            t.faultIs i node code epoch = true ∧ t.ni = s.ni ∧ only t [NI_FAULT_ENTRY i]) ∧
        ((faultPlaces.find? fun i => s.faultIs i node code epoch) = none →
          (∀ i, (faultPlaces.find? fun i => !s.flag (NI_FAULT_ENTRY_valid i)) = some i →
            Ends (.faultReceive r) s fun t =>
              t.faultIs i node code epoch = true ∧ t.fld (NI_FAULT_ENTRY_count i) = 1 ∧ t.fld (NI_FAULT_ENTRY_idle_rings i) = 0 ∧
              t.ni = s.ni ∧ only t [NI_FAULT_ENTRY i, NI_FAULT_STATUS]) ∧
          ((∀ i, i < 256 → s.flag (NI_FAULT_ENTRY_valid i) = true) →
            Ends (.faultReceive r) s fun t =>
              t.fld NI_FAULT_STATUS_overflow = min NI_FAULT_STATUS_overflow.max (s.fld NI_FAULT_STATUS_overflow + 1) ∧
              t.flag NI_EVENT_fault_overflow = true ∧ t.ni = { s.ni with lostFaults := s.ni.lostFaults + 1 } ∧
              only t [NI_FAULT_STATUS, NI_EVENT])))) ∧
    (∀ i, i < 256 →
      (s.flag (NI_FAULT_ENTRY_valid i) = true → 64 ≤ s.fld (NI_FAULT_ENTRY_idle_rings i) →
        Ends (.faultEntryFree i) s fun t =>
          t.rd (NI_FAULT_ENTRY i) = 0#64 ∧ s.OnlyRegs t [NI_FAULT_ENTRY i, NI_FAULT_STATUS] ∧
          t.fld NI_FAULT_STATUS_in_use = faultPlaces.countP fun j => t.flag (NI_FAULT_ENTRY_valid j)) ∧
      (s.flag (NI_FAULT_ENTRY_valid i) = false ∨ s.fld (NI_FAULT_ENTRY_idle_rings i) < 64 → Ends (.faultEntryFree i) s fun t => t = s)) ∧
    ∀ io cycle,
      let c := Instr.faultNoticeSend ⟨io, cycle⟩
      let held := s.ni.notices.find? fun n => n.io == io
      (held = none ∨ s.safeHold = true ∨ s.liveFlag NI_NODE_valid = false ∨ s.niOn io = false → Ends c s fun t => t = s) ∧
      ∀ n, held = some n → s.safeHold = false → s.liveFlag NI_NODE_valid = true → s.niOn io = true →
        let route := s.sinkRoute n.sink
        let p : TxPkt :=
          { io := n.io, stand := 16, index := 0, sched := false, mgmt := true, route, limb := 31, budget := 0, sent := false, since := s.rings,
            pkt := s.faultPacket n }
        let u := { s with ni := { s.ni with notices := s.ni.notices.erase n, txq := s.ni.txq ++ [p] } }
        (s.routeLimbs route = [] →
          Ends c s fun t =>
            t.ni = { s.ni with notices := s.ni.notices.erase n } ∧ t.out = s.out ∧
            t.fld MBX_RED_NOTICE_dropped = min MBX_RED_NOTICE_dropped.max (s.fld MBX_RED_NOTICE_dropped + 1)) ∧
        (s.routeLimbs route ≠ [] → s.refreshBlocked.shallowest (s.routeLimbs route) = none → Ends c s fun t => t = s) ∧
        ∀ l, s.routeLimbs route ≠ [] → s.refreshBlocked.shallowest (s.routeLimbs route) = some l →
          (s.mayBe p l cycle = true → s.CanSend l p 16 →
            Ends c s fun t =>
              u.SendsPacket t s.ni.txq.length l 16 cycle p ∧ t.ni.notices = s.ni.notices.erase n ∧
              t.fld MBX_RED_NOTICE_sent = min MBX_RED_NOTICE_sent.max (s.fld MBX_RED_NOTICE_sent + 1)) ∧
          (s.mayBe p l cycle = false → Ends c s fun t => t = s)

/-! ### What the NIs receive (09, 10) -/

/-- PUT_RECEIVE, GET_REQ_RECEIVE, GET_RESP_RECEIVE, KNOT_PACKET_RECEIVE, REDUCE_RECEIVE and MCAST_PUT_RECEIVE (R238, R239, R240, R255, R262, R282, R296): a packet that passes the checks is written where it names, and
nowhere else, and advances its operation; a complete one closes, issues its knot operation and is answered as its type asks; one that must wait stays in its receive buffer; a duplicate changes nothing; under crc_e2e one whose
CRC fails is not written and asks for its resend. That a GET_REQ names its answer's coding is the model's choice (log entry 85). -/
def Obligations.DataPacketsAreDelivered : Prop :=
  ∀ (s : State) (r x : Rx), s.Takes r x → r.pkt.dstStand < 16 → s.rxCheck x = 0 →
    let p := r.pkt
    let io := limbIo r.limb
    let o := ((s.rxOp p).getD (p.newOp io)).take x
    let op : KnotOp :=
      { knot := p.knot, kind := arriveKind p.knotOp, data := p.knotData, stand := some p.dstStand, source := niSource io,
        issue := s.clk.now, due := s.clk.now + ioPath io p.knot }
    let crcFails := p.e2e = true ∧ crc32c p.payload ≠ bitsOf p.coll 63 32
    let dup := (s.rxOp p).any (·.dup p) = true
    let n := r.written.length
    let chunk := bitsOf p.coll 23 16
    let row (c : Instr) (type : Nat) (P : State → Prop) : Prop :=
      p.type = type →
        (s.rxWaits x = true → Ends c s fun t => t.ni = { s.ni with rxBuf := [x] } ∧ t = { s with ni := t.ni, limbs := t.limbs }) ∧
        (s.rxWaits x = false →
          (crcFails →
            Ends c s fun t =>
              t.mem = s.mem ∧ t.kops = s.kops ∧ t.ni.rxOps = s.ni.rxOps ∧
              t.fld (COLL_CHAN_CRC_rx_crc_fail (p.channel % 64)) =
                min (COLL_CHAN_CRC_rx_crc_fail 0).max (s.fld (COLL_CHAN_CRC_rx_crc_fail (p.channel % 64)) + 1) ∧
              ∃ q, t.ni.txq = s.ni.txq ++ [q] ∧ q.pkt.type = 8 ∧ q.pkt.knotValue = 8 ∧ q.pkt.remote = p.pktIndex ∧ q.pkt.dstNode = p.srcNode) ∧
          (¬ crcFails → dup → Ends c s fun t => t = { s with limbs := t.limbs, out := t.out, free := t.free }) ∧
          (¬ crcFails → ¬ dup →
            Ends c s fun t =>
              P t ∧ (o.complete = false → t.rxOp p = some o ∧ t.kops = s.kops) ∧
              (o.complete = true → t.rxOp p = none ∧ t.kops = if p.hasKnot then addKop s.kops op else s.kops) ∧
              t.knots = s.knots ∧ t.live = s.live))
    let places (t : State) : Prop :=
      (∀ a, s.RangeAt p.dstStand p.kind p.channel p.remote n a → t.bytes a n = r.written ∧ s.SameBytesBut t a n) ∧
      (p.kind = 2 →
        (∀ i y, i < n → s.windowPlace (p.remote + i) = some y → (∀ j, i < j → j < n → s.windowPlace (p.remote + j) ≠ some y) →
          Memory.read t.mem y = r.written.getD i 0#8) ∧
        ∀ y, (∀ i, i < n → s.windowPlace (p.remote + i) ≠ some y) → Memory.read t.mem y = Memory.read s.mem y)
    row (.putReceive r) 1 places ∧
    row (.getReqReceive r) 2 (fun t =>
      s.MailboxesOnly t ∧
      (o.complete = true →
        let m := bytesAt p.payload 8 4
        ∃ ps, t.ni.txq = s.ni.txq ++ ps ∧ ps ≠ [] ∧
          (∀ q ∈ ps, q.pkt.type = 3 ∧ q.pkt.opId = p.opId ∧ q.pkt.dstNode = p.srcNode ∧ q.pkt.dstStand = p.srcStand ∧ q.sent = false) ∧
          (p.coding.1 = 0 →
            ps.length = max 1 (ceilDiv m (s.maxPayload (s.replyPath x x.sched).route)) ∧
            (∀ a, s.RangeAt p.dstStand p.kind p.channel p.remote m a → (ps.flatMap fun q => q.pkt.payload) = s.bytes a m) ∧
            (p.kind = 2 → (ps.flatMap fun q => q.pkt.payload) = s.windowRead p.remote m)))) ∧
    row (.getRespReceive r) 3 (fun t => places t ∧
      ∀ tr, o.complete = true → s.trigOp p.dstStand p.opId = some tr → tOp tr.desc = 2 →
        (t.trigAt tr.stand tr.index).map (·.state) = some .finished) ∧
    row (.knotPacketReceive r) 4 (fun t => t.mem = s.mem) ∧
    row (.reduceReceive r) 5 (fun t => places t ∧
      (t.chunkOf p.channel chunk).map (·.count) = some (((s.chunkOf p.channel chunk).map (·.count)).getD 0 + bit o.complete)) ∧
    row (.mcastPutReceive r) 6 (fun t => places t ∧
      (o.complete = true → ∃ q, t.ni.txq = s.ni.txq ++ [q] ∧ q.pkt.type = 7 ∧ q.pkt.group = p.group ∧ q.pkt.dstNode = p.srcNode))

/-- MACK_RECEIVE, ERR_RECEIVE and CHAIN_RECEIVE (R255, R263, R264, R278, R296, R446, R448, R450): a member enters its operation's bitmap or is late; an error fails its operation, has the packet it names resent once, or
is late; a CHAIN packet goes to the holder of the token. A packet that fails a receive check (R255): it is discarded, flagged and counted, a refused stand or range is answered, and neither memory, knots nor operations change; a row
takes nothing from a limb that is not ACTIVE or not clocked, nor a packet of another type. OP_EXPIRE (R241) and FIRE_MESSAGE_RECEIVE (R171, R273): an operation without a packet for op_timeout rings is dropped and counted; a
fire counts at its NI and readies the triggers that wait for it. -/
def Obligations.RepliesDiscardsAndFires : Prop :=
  (∀ (s : State) (r x : Rx), s.Takes r x → r.pkt.dstStand < 16 → s.rxCheck x = 0 →
    let p := r.pkt
    (p.type = 7 →
      (∀ tr, s.trigOp p.dstStand p.opId = some tr →
        Ends (.mackReceive r) s fun t => ∃ y, t.trigAt tr.stand tr.index = some y ∧ p.pktIndex ∈ y.bitmap ∧ t.mem = s.mem ∧ t.kops = s.kops) ∧
      (s.trigOp p.dstStand p.opId = none →
        Ends (.mackReceive r) s fun t =>
          t.fld NI_MCAST_LATE_count = min NI_MCAST_LATE_count.max (s.fld NI_MCAST_LATE_count + 1) ∧ t.flag NI_EVENT_mcast_late = true ∧
          t.ni = s.ni ∧ t.mem = s.mem)) ∧
    (p.type = 8 →
      (∀ y, s.replyNamed p = some y →
        Ends (.errReceive r) s fun t =>
          t.ni.replies = s.ni.replies.erase y ∧ t.ni.trigs = s.ni.trigs ∧ t.mem = s.mem ∧
          ∃ q, t.ni.txq = s.ni.txq ++ [q] ∧ q.pkt = { y.pkt with flags := y.pkt.flags ||| 2 } ∧ q.sched = false) ∧
      (s.replyNamed p = none →
        (∀ tr, s.trigOp p.dstStand p.opId = some tr → s.trigAt tr.stand tr.index = some tr →
          let failed (status cause : Nat) : Prop :=
            Ends (.errReceive r) s fun t =>
              t.ni.txq = s.ni.txq ∧ t.mem = s.mem ∧
              ∃ y, t.trigAt tr.stand tr.index = some y ∧ y.status = (if tr.status = 0 then status else tr.status) ∧
                y.cause = (if tr.status = 0 then cause else tr.cause) ∧ y.state = if tOp tr.desc = 2 then .finished else tr.state
          let named := tr.kept.find? fun q => q.namedBy p
          (p.knotValue % 256 ≠ 8 → failed 0x13 (p.knotValue % 256)) ∧
          (p.knotValue % 256 = 8 → named = none → failed 0x14 0) ∧
          ∀ q, p.knotValue % 256 = 8 → named = some q →
            Ends (.errReceive r) s fun t =>
              (∃ u, t.ni.txq = s.ni.txq ++ [u] ∧ u.pkt = { q with flags := q.flags ||| 2 } ∧ u.sched = false) ∧ t.mem = s.mem ∧
              ∃ y, t.trigAt tr.stand tr.index = some y ∧ y.kept = tr.kept.filter (· != q) ∧ y.flags = tr.flags ||| 65 ∧
                y.unsent = tr.unsent + 1 ∧ y.status = tr.status) ∧
        (s.trigOp p.dstStand p.opId = none →
          Ends (.errReceive r) s fun t =>
            t.flag COLL_EVENT_late_err = true ∧ t.ni = s.ni ∧ t.mem = s.mem ∧
            t.fld (CQ_TRIG_LATE_ERR_count p.dstStand) = min (CQ_TRIG_LATE_ERR_count 0).max (s.fld (CQ_TRIG_LATE_ERR_count p.dstStand) + 1) ∧
            t.fld (CQ_TRIG_LATE_ERR_last_op p.dstStand) = p.opId % 2 ^ 32 ∧ t.fld (CQ_TRIG_LATE_ERR_last_cause p.dstStand) = p.knotValue % 256 ∧
            (s.flag (CQ_TRIG_CFG_irq_en p.dstStand) = true → s.pcie.link = true → s.pcie.vfEnable = true → p.dstStand + 1 ≤ s.pcie.numVfs →
              ∃ f, t.out = f ++ .msix (p.dstStand + 1) 4 :: s.out))))) ∧
  (∀ (s : State) (r x : Rx) (chk : HeaderCheck), s.Takes { r with chk } x → r.pkt.type = 10 → s.rxCheck x = 0 →
    let p := r.pkt
    let c := Instr.chainReceive r chk
    (s.hw.pausing = true → Ends c s fun t => t.ni = { s.ni with rxBuf := [x] } ∧ t = { s with ni := t.ni, limbs := t.limbs }) ∧
    (s.hw.pausing = false →
      (s.token = 0 ∨ s.safeHold = true → Ends c s fun t => t = { s with limbs := t.limbs, out := t.out, free := t.free }) ∧
      (s.token ≠ 0 → s.safeHold = false →
        (p.opId = 0xFFFFFFFF → s.transferring = false →
          (s.fw.half = none →
            Ends c s fun t =>
              t.fw = { s.fw with half := some p.payload } ∧ t.fld FLASH_XFER_header_result = 1 ∧ t.fld FLASH_XFER_state = 1 ∧ s.MailboxesOnly t) ∧
          (∀ h, s.fw.half = some h →
            let result := headerResult (padTo 4096 h ++ padTo 4096 p.payload) s.fuses.floor chk
            result ≠ 0 →
            Ends c s fun t =>
              t.fw = { s.fw with half := none } ∧ t.fld FLASH_XFER_header_result = result ∧ t.fld FLASH_XFER_state = 0 ∧ t.mem = s.mem)) ∧
        (p.opId ≠ 0xFFFFFFFF → s.transferring = true → s.fw.complete.length < 2 →
          Ends c s fun t =>
            t = { s with fw := t.fw, limbs := t.limbs, out := t.out, free := t.free } ∧
            (t.fw.complete = s.fw.complete ∧ (∃ ps, (p.opId, (p.pktIndex * 4096, p.payload) :: ps) ∈ t.fw.parts) ∨
              ∃ whole, t.fw.complete = s.fw.complete ++ [(p.opId, whole)] ∧ whole.length = recordBytes)) ∧
        ((p.opId = 0xFFFFFFFF ∧ s.transferring = true) ∨ (p.opId ≠ 0xFFFFFFFF ∧ (s.transferring = false ∨ 2 ≤ s.fw.complete.length)) →
          Ends c s fun t => t = { s with limbs := t.limbs, out := t.out, free := t.free })))) ∧
  (∀ (s : State) (r : Rx) (chk : HeaderCheck) (type : Nat) (y : Rx) (c : Instr),
    (type, y, c) ∈ [(1, r, Instr.putReceive r), (2, r, .getReqReceive r), (3, r, .getRespReceive r), (4, r, .knotPacketReceive r),
      (5, r, .reduceReceive r), (6, r, .mcastPutReceive r), (7, r, .mackReceive r), (8, r, .errReceive r), (9, r, .faultReceive r),
      (10, { r with chk }, .chainReceive r chk)] →
    (∀ x, s.Takes y x → r.pkt.dstStand < 16 → r.pkt.type = type ∨ r.pkt.type = 0 ∨ 10 < r.pkt.type → s.rxCheck x ≠ 0 →
      Ends c s fun t =>
        t.flag NI_EVENT_rx_drop = true ∧ t.fld NI_LAST_DROP_check = s.rxCheck x ∧ t.fld NI_LAST_DROP_dst_stand = r.pkt.dstStand ∧
        t.fld (dropCounter (s.rxCheck x)) = min (dropCounter (s.rxCheck x)).max (s.fld (dropCounter (s.rxCheck x)) + 1) ∧
        (((s.rxCheck x = 5 ∨ s.rxCheck x = 6) ∧ type ≠ 7 →
          ∃ q, t.ni.txq = s.ni.txq ++ [q] ∧ q.pkt.type = 8 ∧ q.pkt.knotValue = s.rxCheck x ∧ q.pkt.remote = r.pkt.pktIndex ∧
            q.pkt.dstNode = r.pkt.srcNode) ∧
         (s.rxCheck x < 5 ∨ s.rxCheck x = 7 ∨ type = 7 → t.ni.txq = s.ni.txq)) ∧
        t.ni.rxOps = s.ni.rxOps ∧ t.ni.trigs = s.ni.trigs ∧ t.knots = s.knots ∧ t.kops = s.kops ∧ t.live = s.live ∧ t.fw = s.fw ∧
        s.MailboxesOnly t) ∧
    (s.limbActive r.limb = false ∨ s.limbOn r.limb = false ∨ ((s.asHanded y).sched = true ∧ s.limbCarries r.limb 0 = false) ∨
        (r.pkt.type ≠ type ∧ 1 ≤ r.pkt.type ∧ r.pkt.type ≤ 10) →
      Ends c s fun t => t = s)) ∧
  (∀ s : State,
    (∀ i,
      (∀ o, s.ni.rxOps[i]? = some o →
        (max 1 (s.liveFld NI_CFG_op_timeout) ≤ o.idle → s.ni.rxBuf = [] →
          Ends (.opExpire i) s fun t =>
            t.ni = { s.ni with rxOps := s.ni.rxOps.eraseIdx i } ∧
            t.fld NI_OP_EXPIRED_count = min NI_OP_EXPIRED_count.max (s.fld NI_OP_EXPIRED_count + 1) ∧
            t.fld NI_OP_EXPIRED_last_src_node = o.srcNode % 4096 ∧ t.fld NI_OP_EXPIRED_last_dst_stand = o.dstStand % 16 ∧
            s.SameRegsBut t [NI_OP_EXPIRED] ∧ t = { s with regs := t.regs, ni := t.ni }) ∧
        (o.idle < max 1 (s.liveFld NI_CFG_op_timeout) → Ends (.opExpire i) s fun t => t = s)) ∧
      (s.ni.rxOps.length ≤ i → Ends (.opExpire i) s fun t => t = s)) ∧
    ∀ io k lclk,
      let due := s.fires.find? fun m => m.io == io && m.knot == k && decide (m.due ≤ lclk)
      (due = none → Ends (.fireMessageReceive io k lclk) s fun t => t = s) ∧
      ∀ m, due = some m →
        Ends (.fireMessageReceive io k lclk) s fun t =>
          t.fires = s.fires.erase m ∧ t.ni.fires.get 0 (io * 4096 + k) = (s.ni.fires.get 0 (io * 4096 + k) + 1) % 65536 ∧
          (∀ x ∈ t.ni.trigs, x.state = .posted → x.io = io → tFlag x.desc 1 = true → tTrigKnot x.desc = k →
            serialGe 16 (t.ni.fires.get 0 (io * 4096 + k)) (tFireSeq x.desc) = false) ∧
          t.knots = s.knots ∧ t.kops = s.kops ∧ t.mem = s.mem ∧ s.SameRegsBut t [RING_TIME])

/-! ### Triggered operations (10) -/

/-- CQ_TRIG_DOORBELL_TAIL, CQ_TRIG_RESUME, TRIGGER_FETCH and TRIGGER_COMPLETE (R269, R271, R272, R276, R277): doorbells as of a command queue; a fetched descriptor becomes posted, waits for its share, or halts the queue, and a
queue that may not fetch is left as it is; a completed trigger leaves its NI with its record, issues its knot operation where its status is OK, and another status halts the queue. -/
def Obligations.TriggerQueueRuns : Prop :=
  ∀ (s : State) (st : Nat), st < 16 →
    (∀ (v : Word) (last : Bool),
      let tail := bitsOf v.toNat 15 0
      let seen := s.fld (CQ_TRIG_STATE_tail_seen st)
      (∀ c, c = .cqTrigDoorbellTail st v last ∨ (c = .cqTrigResume st v last ∧ v.getLsbD 63 = true) →
        (s.standState st ≠ 2 → Ends c s fun t => t = s) ∧
        (s.standState st = 2 →
          (tail < 2 ^ s.fld (CQ_TRIG_CFG_log2_size st) →
            Ends c s fun t =>
              t.flag (CQ_TRIG_STATE_halted st) = (!v.getLsbD 63 && s.flag (CQ_TRIG_STATE_halted st)) ∧ t.fld (CQ_TRIG_STATE_tail_seen st) = tail ∧
              t.bells = (if tail = seen then s.bells else s.bells ++ [(trigKey st, tail, s.bellSlot last)]) ∧
              t.fld (CQ_TRIG_STATE_head st) = s.fld (CQ_TRIG_STATE_head st) ∧ s.SameRegsBut t [CQ_TRIG_STATE st] ∧
              t = { s with regs := t.regs, bells := t.bells }) ∧
          (2 ^ s.fld (CQ_TRIG_CFG_log2_size st) ≤ tail →
            Ends c s fun t =>
              t.flag (CQ_TRIG_STATE_doorbell_err st) = true ∧ t.fld (CQ_TRIG_STATE_tail_seen st) = seen ∧
              t.flag (CQ_TRIG_STATE_halted st) = s.flag (CQ_TRIG_STATE_halted st) ∧ s.OnlyRegs t [CQ_TRIG_STATE st]))) ∧
      (v.getLsbD 63 = false → Ends (.cqTrigResume st v last) s fun t => t = s)) ∧
    (let i := s.fld (CQ_TRIG_STATE_head st)
     let d := (s.dispatchRead st (s.trigAddr st i) 64).1
     let u := (s.dispatchRead st (s.trigAddr st i) 64).2
     let tbl :=
       if tOp d = 0x11 ∧ s.localIn st d (tBytes d) = true then
         (if tKind d = 0 then (u.dispatchRead st (tLocal d) (tBytes d)).1 else (u.readKind st (tKind d) (tChan d) (tLocal d) (tBytes d)).1)
       else []
     let ready := !tFlag d 1 || s.fireReached (tIo d) (tTrigKnot d) (tFireSeq d)
     let next := (i + 1) % 2 ^ s.fld (CQ_TRIG_CFG_log2_size st) % 65536
     let halts (status : Nat) : Prop :=
       Ends (.triggerFetch st) s fun t =>
         t.fld (CQ_TRIG_STATE_head st) = next ∧ t.flag (CQ_TRIG_STATE_halted st) = true ∧ t.fld (CQ_TRIG_STATE_halt_code st) = status % 256 ∧
         t.ni.trigs = s.ni.trigs ∧ t.knots = s.knots
     (s.mayFetchTrig st = false → Ends (.triggerFetch st) s fun t => t = s) ∧
     (s.mayFetchTrig st = true →
       (s.inBounds st (s.trigAddr st i) 64 = false ∨ s.inBounds st (s.trigCplAt st i) 64 = false → halts 1) ∧
       (s.inBounds st (s.trigAddr st i) 64 = true → s.inBounds st (s.trigCplAt st i) 64 = true →
         (s.shareFull st (tIo d) = true →
           Ends (.triggerFetch st) s fun t =>
             t.flag (CQ_TRIG_STATE_quota_wait st) = true ∧ t.fld (CQ_TRIG_STATE_head st) = i ∧ s.OnlyRegs t [CQ_TRIG_STATE st]) ∧
         (s.shareFull st (tIo d) = false →
           (s.trigCheck st d tbl = 0 →
             Ends (.triggerFetch st) s fun t =>
               t.fld (CQ_TRIG_STATE_head st) = next ∧ t.flag (CQ_TRIG_STATE_halted st) = false ∧
               t.flag (CQ_TRIG_STATE_quota_wait st) = false ∧ t.knots = s.knots ∧
               t.ni.trigs = s.ni.trigs ++ [{ stand := st, index := i, io := tIo d, desc := d, state := if ready then .ready else .posted }]) ∧
           (s.trigCheck st d tbl ≠ 0 → halts (s.trigCheck st d tbl)))))) ∧
    ∀ i,
      (∀ tr, s.trigAt st i = some tr →
        (tr.done = true →
          Ends (.triggerComplete st i) s fun t =>
            let d := tr.desc
            t.trigAt st i = none ∧ t.knots = s.knots ∧
            (∀ a, s.inBounds st (s.trigCplAt st i) 64 = true → s.translate st (s.trigCplAt st i) = some a → s.Clean a 64 (s.keyAt a) →
              t.bytes a 64 = tr.record (s.timeAt s.clk.now).1) ∧
            (tr.status = 0 → t.flag (CQ_TRIG_STATE_halted st) = s.flag (CQ_TRIG_STATE_halted st) ∧
              t.kops = if tFlag d 2 then
                addKop s.kops { knot := tCplKnot d, kind := arriveKind (tCplOp d), data := if tCplOp d = 0 then 1 else bytesAt d 20 4,
                                stand := some st, source := niSource tr.io, issue := s.clk.now, due := s.clk.now + ioPath tr.io (tCplKnot d) }
              else s.kops) ∧
            (tr.status ≠ 0 → t.flag (CQ_TRIG_STATE_halted st) = true ∧ t.fld (CQ_TRIG_STATE_halt_code st) = tr.status % 256 ∧ t.kops = s.kops)) ∧
        (tr.done = false → Ends (.triggerComplete st i) s fun t => t = s)) ∧
      (s.trigAt st i = none → Ends (.triggerComplete st i) s fun t => t = s)

/-- TRIG_PUT, TRIG_GET, TRIG_KNOT, TRIG_REDUCE, TRIG_MCAST_PUT, TRIG_A2A and MCAST_BITMAP_DUE (R238, R251, R253, R261, R262, R270, R274, R282, R289, R298, R299): a ready operation whose destination stands queues its packets, numbered
in order, under its number, without coding as the bytes it names; one whose rank or group fails ends with RANK, and one whose range is not its stand's with BOUNDS, and sends nothing; one that may not start is left as it is. What names an
MCAST_PUT's destination before the switch is free (log entry 50); that an operation of more than 65,535 packets ends with FORMAT is the model's choice (log entry 46). -/
def Obligations.TriggeredOperationsSend : Prop :=
  (∀ (s : State) (st i : Nat) (tr : Trig), s.trigAt st i = some tr → tr.state = .ready → tr.status = 0 → s.mayRun st = true → s.niOn tr.io = true →
    s.liveFlag NI_NODE_valid = true → s.behind tr = false → s.overQuota tr = false →
    let b := s.beginTrig tr
    let d := tr.desc
    let rank := s.rankPath b.1 (tRank d) (s.trigHead b.1)
    let own (h : Packet) (x : Path) (q : TxPkt) : Prop :=
      q.pkt.opId = s.ni.nextOp.get 0 st ∧ q.pkt.dstNode = h.dstNode ∧ q.pkt.group = h.group ∧ q.stand = st ∧ q.index = i ∧ q.io = x.io ∧
      q.route = x.route ∧ q.sched = x.sched ∧ q.limb = 31 ∧ q.sent = false
    let sends (c : Instr) (type : Nat) (x : Path) (h : Packet) : Prop :=
      Ends c s fun t =>
        t.knots = s.knots ∧ t.live = s.live ∧
        ((∃ ps, t.ni.txq = s.ni.txq ++ ps ∧ ps ≠ [] ∧ (∀ q ∈ ps, q.pkt.type = type ∧ q.pkt.pktCount = ps.length ∧ own h x q) ∧
            (ps.map fun q => q.pkt.pktIndex) = List.range ps.length ∧
            (tWire d = 0 → ∀ a, s.RangeAt st (tKind d) (tChan d) (tLocal d) (tBytes d) a →
              (ps.flatMap fun q => q.pkt.payload) = s.bytes a (tBytes d))) ∨
          (tWire d = 0 → 65535 < ceilDiv (tBytes d) (s.maxPayload x.route)) ∧
            t.ni.txq = s.ni.txq ∧ (t.trigAt st i).map (fun x => (x.state, x.status)) = some (.finished, 3))
    let ends (c : Instr) (status : Nat) : Prop :=
      Ends c s fun t => t.ni.txq = s.ni.txq ∧ t.mem = s.mem ∧ (t.trigAt st i).map (fun x => (x.state, x.status)) = some (.finished, status)
    let fails (c : Instr) : Prop :=
      Ends c s fun t =>
        t.ni.txq = s.ni.txq ∧ t.mem = s.mem ∧ t.flag NI_EVENT_rank_invalid = true ∧
        (t.trigAt st i).map (fun x => (x.state, x.status)) = some (.finished, 0x10)
    (∀ op c, (op, c) ∈ [(1, Instr.trigPut st i), (5, .trigReduce st i)] → tOp d = op →
      (∀ x h, rank = some (x, h) →
        (s.localIn st d (tBytes d) = true → sends c op x h) ∧ (s.localIn st d (tBytes d) = false → ends c 1)) ∧
      (rank = none → fails c)) ∧
    (tOp d = 2 →
      (∀ x h, rank = some (x, h) →
        Ends (.trigGet st i) s fun t =>
          ∃ q, t.ni.txq = s.ni.txq ++ [q] ∧ q.pkt = getReq d b.1.crcOn h ∧ own h x q ∧ t.mem = s.mem ∧ t.knots = s.knots) ∧
      (rank = none → fails (.trigGet st i))) ∧
    (tOp d = 4 →
      (∀ x h, rank = some (x, h) →
        Ends (.trigKnot st i) s fun t =>
          ∃ q, t.ni.txq = s.ni.txq ++ [q] ∧ q.pkt = { h with remote := tRemote d } ∧ own h x q ∧ t.mem = s.mem ∧ t.knots = s.knots) ∧
      (rank = none → fails (.trigKnot st i))) ∧
    (tOp d = 6 →
      (∀ x h, s.groupPath b.1 (s.trigHead b.1) = some (x, h) →
        (s.localIn st d (tBytes d) = true → sends (.trigMcastPut st i) 6 x h) ∧ (s.localIn st d (tBytes d) = false → ends (.trigMcastPut st i) 1)) ∧
      (s.groupPath b.1 (s.trigHead b.1) = none → fails (.trigMcastPut st i))) ∧
    (tOp d = 0x11 →
      (s.localIn st d (tBytes d) = false → ends (.trigA2a st i) 1) ∧
      (s.localIn st d (tBytes d) = true →
        ((∀ x, x < tContrib d → s.rankPath b.1 x { s.trigHead b.1 with type := 1 } ≠ none) →
          Ends (.trigA2a st i) s fun t =>
            (t.trigAt st i).map (·.detail) = some (overflowEntries d (b.2.readKind st (tKind d) (tChan d) (tLocal d) (tBytes d)).1) ∧
            t.knots = s.knots ∧ ∃ ps, t.ni.txq = s.ni.txq ++ ps ∧ ∀ q ∈ ps, q.pkt.type = 1 ∧ q.pkt.opId = s.ni.nextOp.get 0 st) ∧
        (∀ x, x < tContrib d → s.rankPath b.1 x { s.trigHead b.1 with type := 1 } = none →
          Ends (.trigA2a st i) s fun t =>
            t.ni.txq = s.ni.txq ∧ (t.trigAt st i).map (fun x => (x.state, x.status)) = some (.finished, 0x10))))) ∧
  ∀ (s : State) (st i : Nat),
    (∀ op c, (op, c) ∈ [(1, Instr.trigPut st i), (2, .trigGet st i), (4, .trigKnot st i), (5, .trigReduce st i), (6, .trigMcastPut st i),
        (0x11, .trigA2a st i)] →
      (∀ tr, s.trigAt st i = some tr →
        tr.state ≠ .ready ∨ tOp tr.desc ≠ op ∨ s.mayRun st = false ∨ s.niOn tr.io = false ∨ s.liveFlag NI_NODE_valid = false ∨
          s.behind tr = true ∨ s.overQuota tr = true) →
      Ends c s fun t => t = s) ∧
    (∀ tr, s.trigAt st i = some tr →
      let due := tr.state = .running ∧ tOp tr.desc = 6 ∧ tr.unsent = 0 ∧ tr.due ≤ s.rings
      (due →
        Ends (.mcastBitmapDue st i) s fun t =>
          let m := missing (s.liveFld (NI_MCAST_GROUP_count (tRank tr.desc % 4096))) tr.bitmap
          t = { s with ni := t.ni } ∧
          (t.trigAt st i).map (fun x => (x.state, x.detail, x.flags)) =
            some (.finished, leBytes 32 m, tr.flags ||| (256 * bit (decide (m ≠ 0))))) ∧
      (¬ due → Ends (.mcastBitmapDue st i) s fun t => t = s)) ∧
    (s.trigAt st i = none → Ends (.mcastBitmapDue st i) s fun t => t = s)

/-- TRIG_FOLD and FOLD_SLICE (R281, R283 to R285): a FOLD with a bad layout ends with FORMAT, one whose group is longer than a slice with TOO_LONG, and both leave their chunk; one that may start takes its chunk; each slice folds as many groups as
fit, each lane over its staged contributions in order, writes those groups only, and ends the operation with the last; otherwise neither does anything. -/
def Obligations.FoldsRunInSlices : Prop :=
  (∀ (s : State) (tr : Trig), s.trigAt tr.stand tr.index = some tr → tOp tr.desc = 0x10 →
    let d := tr.desc
    let c := tChan d
    let n := min (s.slotCycles / groupCycles d) (foldGroups d - tr.nextGroup)
    let out := s.chanAt c (outOff d + 256 * tr.nextGroup * typeBytes (tOut d))
    let stage (j : Nat) : List Byte :=
      ((List.range (tRank d)).map fun j =>
        s.bytes (s.chanAt c (stageOff d + j * foldContrib d + tr.nextGroup * groupStaged d)) (groupStaged d)).getD j []
    let seed := (s.liveRd (STAND_SEED (s.chanStand c))).toNat
    let first := (List.range 256).flatMap fun i => (foldOut d seed (256 * tr.nextGroup + i) (foldLane d stage i)).1
    let slice (t : State) : Prop :=
      (t.trigAt tr.stand tr.index).map (·.nextGroup) = some (tr.nextGroup + n) ∧
      (t.trigAt tr.stand tr.index).map (·.state) = some (if foldGroups d ≤ tr.nextGroup + n then .finished else .running) ∧
      t.coll.sliced.get 0 c = s.slotNo + 1 ∧ t.knots = s.knots ∧ (0 < n → t.bytes out (256 * typeBytes (tOut d)) = first) ∧
      s.SameBytesBut t out (256 * n * typeBytes (tOut d))
    let may := tr.state = .ready ∧ s.mayRun tr.stand = true ∧ s.niOn tr.io = true ∧ s.behind tr = false
    let laid := s.chanOf c tr.stand = true ∧ s.foldLayoutOk d = true
    let due := s.sliceFree c = true ∧ s.chunkReady d = true ∧ s.runningFold c = none
    let ends (status : Nat) : Prop :=
      Ends (.trigFold tr.stand tr.index) s fun t =>
        (t.trigAt tr.stand tr.index).map (fun x => (x.state, x.status)) = some (.finished, status) ∧ t.coll = s.coll ∧ t.mem = s.mem
    (may → tr.status = 0 → ¬ laid → ends 3) ∧
    (may → tr.status = 0 → laid → s.slotCycles < groupCycles d → ends 2) ∧
    (may → laid → groupCycles d ≤ s.slotCycles → due → s.ni.rxBuf = [] →
      Ends (.trigFold tr.stand tr.index) s fun t => slice t ∧ t.chunkOf c (tChunk d) = none) ∧
    (¬ may ∨ (laid ∧ groupCycles d ≤ s.slotCycles ∧ ¬ due) → Ends (.trigFold tr.stand tr.index) s fun t => t = s) ∧
    (s.runningFold c = some tr → s.sliceFree c = true → s.niOn (s.chanEngine c) = true →
      Ends (.foldSlice c) s fun t => slice t ∧ t.coll.chunks = s.coll.chunks)) ∧
  ∀ (s : State) (c : Nat),
    s.runningFold c = none ∨ s.sliceFree c = false ∨ s.niOn (s.chanEngine c) = false → Ends (.foldSlice c) s fun t => t = s

/-! ### The mailbox (12) -/

/-- MBX_REQ_DOORBELL, MBX_REQ_RETIRE, MBX_REQUEST_FETCH and HW_RESPONDER_ANSWER (R328, R329, R334, R335, R344, R350): counters move as far as the ring allows, in a window that is there; a fetched request that passes checks 1 to 8 enters
the P0 reserve or intake and any other is answered with its status; the hardware responder answers HELLO, STATUS and IDENTITY and refuses the rest, first the requests Heartwood had not answered; none of them does anything otherwise. The order of the checks beside R334 and
the requests a responder takes over are the model's (log entries 52, 53). -/
def Obligations.MailboxPostingAndFetch : Prop :=
  ∀ (s : State) (m : Nat), m < 18 →
    (∀ v : Word,
      let x := bitsOf v.toNat 15 0
      let old := s.fld (MBX_REQ_STATE_retire_seen m)
      (s.mbxReached m = false → Ends (.mbxReqDoorbell m v) s (fun t => t = s) ∧ Ends (.mbxReqRetire m v) s fun t => t = s) ∧
      (s.mbxReached m = true →
        (sub16 x old ≤ reqSlots m →
          Ends (.mbxReqDoorbell m v) s fun t => t.fld (MBX_REQ_STATE_tail_seen m) = x ∧ s.OnlyRegs t [MBX_REQ_STATE m]) ∧
        (reqSlots m < sub16 x old →
          Ends (.mbxReqDoorbell m v) s fun t =>
            t.flag (MBX_REQ_STATE_doorbell_err m) = true ∧ t.fld (MBX_REQ_STATE_tail_seen m) = s.fld (MBX_REQ_STATE_tail_seen m) ∧
            s.OnlyRegs t [MBX_REQ_STATE m]) ∧
        (sub16 x old ≤ sub16 (s.fld (MBX_REQ_STATE_head m)) old →
          Ends (.mbxReqRetire m v) s fun t =>
            t.fld (MBX_REQ_STATE_retire_seen m) = x ∧ t.fld (MBX_REQ_RETIRE_retire m) = x ∧
            s.OnlyRegs t [MBX_REQ_STATE m, MBX_REQ_RETIRE m]) ∧
        (sub16 (s.fld (MBX_REQ_STATE_head m)) old < sub16 x old → Ends (.mbxReqRetire m v) s fun t => t = s))) ∧
    (let r := s.headRequest m
     let head := s.fld (MBX_REQ_STATE_head m)
     let turned (st : Nat) : Prop :=
       Ends (.mbxRequestFetch m) s fun t =>
         t.fld (MBX_REQ_STATE_head m) = (head + 1) % 65536 ∧ t.responseStatus r = st ∧ t.hw.intake = s.hw.intake ∧
         t.hw.reserve = s.hw.reserve ∧ s.MailboxesOnly t
     (s.mayFetchReq m = false → Ends (.mbxRequestFetch m) s fun t => t = s) ∧
     (s.mayFetchReq m = true →
      (∀ c st, s.checkHeader (s.headSlot m) r = some (c, st) → turned st) ∧
      (s.checkHeader (s.headSlot m) r = none →
        (∀ st, s.checkOpcode r = some st → turned st) ∧
        (s.checkOpcode r = none → s.sheds r.cls = true → turned 1) ∧
        (s.checkOpcode r = none → s.sheds r.cls = false →
          Ends (.mbxRequestFetch m) s fun t =>
            t.fld (MBX_REQ_STATE_head m) = (head + 1) % 65536 ∧ t.mem = s.mem ∧
            t.fld (MBX_FN_STATUS_exp_seq m) =
              (s.fld (MBX_FN_STATUS_exp_seq m) + if r.opcode = 0x0101 then 0 else 1) % 2 ^ 32 ∧
            t.hw.reserve = s.hw.reserve ++ (if r.cls = 0 then [r] else []) ∧
            t.hw.intake = s.hw.intake ++ (if r.cls = 0 then [] else [r]))))) ∧
    (let answered (r : Req) (t : State) : Prop :=
       t.flag MBX_EVENT_hw_responder = true ∧ s.MailboxesOnly t ∧
       bytesAt (t.bytes (rspSlotAt m r.count 1) 64) 18 2 =
         if r.opcode = 0x0101 then (if helloVersion r = none then 3 else 0) else if r.opcode = 0x0102 ∨ r.opcode = 0x0901 then 0 else 7
     let taken := s.fetched'.find? fun r => r.mbx == m
     (s.responds m = false ∨ (taken = none ∧ s.fld (MBX_REQ_STATE_head m) = s.fld (MBX_REQ_STATE_tail_seen m)) →
       Ends (.hwResponderAnswer m) s fun t => t = s) ∧
     (s.responds m = true →
       (∀ r, taken = some r →
         Ends (.hwResponderAnswer m) s fun t =>
           answered r t ∧ t.hw.intake = s.hw.intake.erase r ∧ t.hw.reserve = s.hw.reserve.erase r ∧
           t.fld (MBX_REQ_STATE_head m) = s.fld (MBX_REQ_STATE_head m)) ∧
       (taken = none → s.fld (MBX_REQ_STATE_head m) ≠ s.fld (MBX_REQ_STATE_tail_seen m) →
         Ends (.hwResponderAnswer m) s fun t =>
           answered (s.headRequest m) t ∧ t.fld (MBX_REQ_STATE_head m) = (s.fld (MBX_REQ_STATE_head m) + 1) % 65536)))

/-- The calendar's months (R355): 31 days, but 30 in April, June, September and November and 29 or 28 in February; a year is a leap year when it is divisible by 400, or by 4 and
not by 100; in a stamp's range 2000 is one, and 2100, 2200 and 2300 are not; a stamp whose day lies beyond its month is not valid. -/
def Obligations.MonthsAndLeapYears : Prop :=
  (∀ y m, 1 ≤ m → m ≤ 12 →
    (m = 4 ∨ m = 6 ∨ m = 9 ∨ m = 11 → monthDays y m = 30) ∧ (m = 2 → monthDays y m = if leapYear y = true then 29 else 28) ∧
    (m ≠ 2 → m ≠ 4 → m ≠ 6 → m ≠ 9 → m ≠ 11 → monthDays y m = 31)) ∧
  (∀ y, leapYear y = true ↔ 400 ∣ y ∨ 4 ∣ y ∧ ¬ 100 ∣ y) ∧
  leapYear 2000 = true ∧ leapYear 2100 = false ∧ leapYear 2200 = false ∧ leapYear 2300 = false ∧
  (∀ b : List Byte, stampOk b = true → bytesAt b 0 2 ≤ 2399) ∧
  ∀ b : List Byte, monthDays (bytesAt b 0 2) (bytesAt b 2 1) < bytesAt b 3 1 → stampOk b = false

/-! ### Opcodes (13) -/

/-- HELLO, STATUS and CLOSE (R340, R341): HELLO opens the session of the highest version both sides serve and expects the next seq, or is answered in the client's highest version with BAD_VERSION, or REFUSED_STATE while another request of its mailbox is in hand; STATUS
only reads; CLOSE ends the session; without such a request they do nothing. -/
def Obligations.SessionOpcodes : Prop :=
  (∀ s : State,
    (s.serving? 0x0101 = none → Ends .hello s fun t => t = s) ∧ (s.serving? 0x0103 = none → Ends .close s fun t => t = s)) ∧
  ∀ (s : State) (r : Req), r.mbx < 18 →
    (s.serving? 0x0101 = some r →
      let clean := r.clean 16 [(4, 12)] = true
      let busy := ((s.takeReq r).fetched'.any fun x => x.mbx == r.mbx) = true
      (¬ clean → Ends .hello s fun t => s.OnlyAnswers t r { status := 4 }) ∧
      (clean → busy → Ends .hello s fun t => s.OnlyAnswers t r { status := 7 }) ∧
      (clean → ¬ busy →
        (∀ v, helloVersion r = some v →
          Ends .hello s fun t =>
            t.fld (MBX_FN_STATUS_session_major r.mbx) = v.1 ∧ t.fld (MBX_FN_STATUS_session_minor r.mbx) = v.2 ∧
            t.fld (MBX_FN_STATUS_exp_seq r.mbx) = (r.seq + 1) % 2 ^ 32 ∧ s.AnswersIn t r { body := t.helloBody r.mbx v } v ∧
            s.MailboxesOnly t) ∧
        (helloVersion r = none → Ends .hello s fun t => s.OnlyAnswers t r { status := 3 }))) ∧
    (s.Serves r 0x0102 0 [] false false →
      Ends .status s fun t => s.OnlyAnswers t r { body := s.statusBody r.mbx, stale := s.telem.2 }) ∧
    (s.serving? 0x0103 = some r →
      (r.clean 0 [] = true →
        Ends .close s fun t =>
          s.AnswersIn t r {} (s.rspVersion r) ∧ t.fld (MBX_FN_STATUS_session_major r.mbx) = 0 ∧
          t.fld (MBX_FN_STATUS_session_minor r.mbx) = 0 ∧ s.MailboxesOnly t) ∧
      (r.clean 0 [] = false → Ends .close s fun t => s.OnlyAnswers t r { status := 4 }))

/-- STAND_CREATE, STAND_MODIFY, STAND_TEARDOWN, STAND_RESET, STAND_QUERY and PRECISION_CONSENT (R309 to R316, R365): a creation or a change that needs a drain is held and answered later; a
teardown and a reset begin; a query only reads; consent waits for the next guard band; what the stand's state, its resources or its activity do not permit is refused with its status and has no other effect. -/
def Obligations.StandOpcodes : Prop :=
  ∀ (s : State) (r : Req),
    let u := s.takeReq r
    let st := r.stand
    let granules := if r.granules = [] then u.defaultGranules r.twigs else r.granules
    (s.Serves r 0x0201 128 recordReserved true true →
      (u.standState st ≠ 0 ∨ u.flag ID_BOOT_done = false → Ends .standCreate s fun t => s.OnlyAnswers t r { status := 7 }) ∧
      (u.standState st = 0 → u.flag ID_BOOT_done = true → (r.granules = [] ∧ granules.length < 16) ∨ u.recordOk st r granules = false →
        Ends .standCreate s fun t => s.OnlyAnswers t r { status := 4 }) ∧
      (u.standState st = 0 → u.flag ID_BOOT_done = true → (r.granules = [] → 16 ≤ granules.length) → u.recordOk st r granules = true →
        Ends .standCreate s fun t =>
          (t.stand st).creating = true ∧ t.hw.admin = s.hw.admin ++ [{ req := r, kind := 0, stand := st }] ∧
          t.hw.intake = s.hw.intake.erase r ∧ t.mem = s.mem ∧ t.knots = s.knots ∧ t.live = s.live)) ∧
    (s.Serves r 0x0202 128 recordReserved true true →
      (u.standState st ≠ 2 → Ends .standModify s fun t => s.OnlyAnswers t r { status := 7 }) ∧
      (u.standState st = 2 →
        (r.granules = [] ∨ u.recordOk st r r.granules = false → Ends .standModify s fun t => s.OnlyAnswers t r { status := 4 }) ∧
        (r.granules ≠ [] → u.recordOk st r r.granules = true →
          (u.removes st r = true → u.quiescent st = false → Ends .standModify s fun t => s.OnlyAnswers t r { status := 7 }) ∧
          (u.removes st r = false ∨ u.quiescent st = true →
            (u.needsDrain st r = true →
              Ends .standModify s fun t =>
                (∃ a ∈ t.hw.admin, a.req = r ∧ a.kind = 1) ∧ t.hw.intake = s.hw.intake.erase r ∧ t.mem = s.mem) ∧
            (u.needsDrain st r = false →
              Ends .standModify s fun t =>
                s.Answers t r { body := leBytes 1 2 } ∧ s.MailboxesOnly t ∧ t.knots = s.knots ∧ t.live = s.live))))) ∧
    (s.Serves r 0x0203 0 [] true true →
      (u.standState st ≠ 0 →
        Ends .standTeardown s fun t =>
          t.standState st = 4 ∧ (t.stand st).teardown = 1 ∧ (t.stand st).resetCause.isSome = true ∧
          s.Answers t r { body := leBytes 1 4 } ∧ s.MailboxesOnly t ∧ t.live = s.live) ∧
      (u.standState st = 0 → Ends .standTeardown s fun t => s.OnlyAnswers t r { status := 7 })) ∧
    (s.Serves r 0x0204 0 [] true false →
      (u.standState st = 3 ∨ (u.standState st = 2 ∧ u.adminBusy st = false ∧ (u.stand st).resetCause.isSome = true) →
        Ends .standReset s fun t => s.OnlyAnswers t r {}) ∧
      (u.standState st ≠ 2 → u.standState st ≠ 3 → Ends .standReset s fun t => s.OnlyAnswers t r { status := 7 }) ∧
      (u.standState st = 2 → u.adminBusy st = true → Ends .standReset s fun t => s.OnlyAnswers t r { status := 1, retry := 1 }) ∧
      (u.standState st = 2 → u.adminBusy st = false → (u.stand st).resetCause = none →
        Ends .standReset s fun t =>
          (t.stand st).resetCause = some (if r.owner then 0 else 1) ∧ (t.stand st).resetSlot = u.resetDue ∧ s.Answers t r {} ∧
          s.MailboxesOnly t ∧ t.live = s.live)) ∧
    (s.Serves r 0x0205 0 [] true true → Ends .standQuery s fun t => s.OnlyAnswers t r { body := u.standRecord st }) ∧
    (s.Serves r 0x0206 1 [] true true →
      (r.arg 0 1 ≤ 1 → (r.arg 0 1 = 1 → u.liveFlag (STAND_CFG_precision_consent_allowed st) = true) →
        Ends .precisionConsent s fun t =>
          (t.stand st).consentReq = some (r.arg 0 1 == 1) ∧ t.flag (STAND_CFG_consent st) = s.flag (STAND_CFG_consent st) ∧
          s.Answers t r { body := leBytes 1 (r.arg 0 1) } ∧ s.MailboxesOnly t) ∧
      (r.arg 0 1 = 1 → u.liveFlag (STAND_CFG_precision_consent_allowed st) = false →
        Ends .precisionConsent s fun t => s.OnlyAnswers t r { status := 2 }) ∧
      (1 < r.arg 0 1 → Ends .precisionConsent s fun t => s.OnlyAnswers t r { status := 4 }))

/-- PWR_ENVELOPE, PWR_STATE, PWR_QUERY, RING_CONFIG, SSC_CONFIG and CLOCK_QUERY (R36, R43, R46, R404, R416): a value in range is written for the next guard band and answered, one out of range is INVALID_ARG and
changes nothing; deep sleep is refused while a stand is not quiescent; queries only read. -/
def Obligations.PowerAndClockOpcodes : Prop :=
  ∀ (s : State) (r : Req),
    let u := s.takeReq r
    let bad (c : Instr) : Prop := Ends c s fun t => s.OnlyAnswers t r { status := 4 }
    (s.Serves r 0x0301 5 [] false true →
      (r.arg 0 4 < 700 ∨ 2400 < r.arg 0 4 → bad .pwrEnvelope) ∧
      (700 ≤ r.arg 0 4 → r.arg 0 4 ≤ 2400 →
        Ends .pwrEnvelope s fun t =>
          t.fld PWR_ENVELOPE_target = r.arg 0 4 ∧ t.flag PWR_ENVELOPE_park_ok = bitOf (r.arg 4 1) 0 ∧
          t.flag PWR_ENVELOPE_prec_ok = bitOf (r.arg 4 1) 1 ∧ t.responseStatus r = 0 ∧ s.MailboxesOnly t ∧ t.live = s.live ∧
          t.fld PWR_STATUS_tier = s.fld PWR_STATUS_tier)) ∧
    (s.Serves r 0x0302 1 [] false true →
      let idle := ∀ st, st < 16 → u.standState st = 0 ∨ u.quiescent st = true
      (3 < r.arg 0 1 → bad .pwrState) ∧
      (r.arg 0 1 = 3 → ¬ idle → Ends .pwrState s fun t => s.OnlyAnswers t r { status := 7 }) ∧
      (r.arg 0 1 < 3 ∨ (r.arg 0 1 = 3 ∧ idle) →
        Ends .pwrState s fun t =>
          t.pwr = { s.pwr with stateReq := some (r.arg 0 1) } ∧ t.pwrState = s.pwrState ∧ s.Answers t r { body := leBytes 1 u.pwrState } ∧
          s.MailboxesOnly t ∧ s.SameRegsBut t rspRegs)) ∧
    (s.Serves r 0x0303 0 [] false true →
      Ends .pwrQuery s fun t => s.OnlyAnswers t r { body := u.pwrQueryBody, stale := u.telem.2 }) ∧
    (s.Serves r 0x0401 5 [] false true →
      let ok := r.arg 0 1 ≤ 2 ∧ (r.arg 1 1 ≤ 17 ∨ r.arg 1 1 = 0x1F)
      (¬ ok → bad .ringConfig) ∧
      (ok →
        Ends .ringConfig s fun t =>
          t.fld RING_CFG_period_pending = r.arg 0 1 ∧ t.fld RING_CFG_epoch_limb = r.arg 1 1 ∧ t.fld RING_CFG_slip_thresh = r.arg 2 2 ∧
          t.period = s.period ∧ s.Answers t r {} ∧ s.MailboxesOnly t ∧ s.SameRegsBut t (RING_CFG :: rspRegs))) ∧
    (s.Serves r 0x0402 2 [] false true →
      (10 < r.arg 0 1 ∨ 3 < r.arg 1 1 → bad .sscConfig) ∧
      (r.arg 0 1 ≤ 10 → r.arg 1 1 ≤ 3 →
        Ends .sscConfig s fun t =>
          t.fld CLK_SSC_CFG_ssc_depth = r.arg 0 1 ∧ t.fld CLK_SSC_CFG_ssc_div = r.arg 1 1 ∧
          t.fld CLK_SSC_CFG_cur_depth = s.fld CLK_SSC_CFG_cur_depth ∧ s.Answers t r {} ∧ s.MailboxesOnly t ∧
          s.SameRegsBut t (CLK_SSC_CFG :: rspRegs))) ∧
    (s.Serves r 0x0403 0 [] false true → Ends .clockQuery s fun t => s.OnlyAnswers t r { body := s.clockBody })

/-- NODE_SET, RANK_WRITE, RANK_READ, FSLOT_SET, MCAST_SET, LIMB_KEY_LOAD, TRANSPORT_KEY and CONG_READ (R223, R224, R243, R253, R259, R261, R313, R363, R366): writes that need a drain are held with their request; a key load waits for the guard band
of its limbs; reads only read; what is out of range, not the stand's, or not yet possible is refused with its status and has no other effect. Whether a key unwraps is an operand of the command (log entry 30). -/
def Obligations.FabricOpcodes : Prop :=
  ∀ (s : State) (r : Req),
    let u := s.takeReq r
    let st := r.stand
    let refused (c : Instr) (x : Reply) : Prop := Ends c s fun t => s.OnlyAnswers t r x
    let held (c : Instr) (kind : Nat) (ws : List (Nat × Word)) : Prop :=
      Ends c s fun t => (∃ a ∈ t.hw.admin, a.req = r ∧ a.kind = kind ∧ a.writes = ws) ∧ t.hw.intake = s.hw.intake.erase r ∧ t.mem = s.mem
    (s.Serves r 0x0501 6 [] false false →
      let busy := (List.range 16).any u.adminBusy = true ∨ (u.hw.admin.any fun a => a.kind == 3) = true
      (4095 < r.arg 0 2 → refused .nodeSet { status := 4 }) ∧
      (r.arg 0 2 ≤ 4095 → busy → refused .nodeSet { status := 1, retry := 1 }) ∧
      (r.arg 0 2 ≤ 4095 → ¬ busy →
        held .nodeSet 3 [(NI_NODE, BitVec.ofNat 64 (2 ^ 63 + r.arg 2 2 * 65536 + r.arg 0 2)), (LIMB_GLOBAL_CFG, BitVec.ofNat 64 (r.arg 4 2))])) ∧
    (s.Serves r 0x0502 4088 [] true true →
      let n := r.arg 4 2
      let laid := 1 ≤ n ∧ n ≤ 510 ∧ r.clean (8 + 8 * n) [(6, 2)] = true
      let own := r.arg 0 2 ≤ 4095 ∧ u.knotOwner (r.arg 0 2) = some st ∧ r.arg 2 2 + n ≤ u.grantSize st
      (¬ laid → refused .rankWrite { status := 4 }) ∧ (laid → ¬ own → refused .rankWrite { status := 8 }) ∧
      (laid → own →
        held .rankWrite 4 ((List.range n).map fun i => (NI_RANK_ENTRY (u.rankIndex st (r.arg 2 2 + i)), BitVec.ofNat 64 (r.arg (8 + 8 * i) 8))))) ∧
    (s.Serves r 0x0503 4 [] false true →
      let n := r.arg 2 2
      let size := if st = 0xFF then 65536 else u.grantSize st
      let base := if st = 0xFF then 0 else u.rankIndex st 0
      (16 ≤ st → st ≠ 0xFF → refused .rankRead { status := 4 }) ∧
      (st < 16 ∨ st = 0xFF →
        (size < r.arg 0 2 + n → refused .rankRead { status := 8 }) ∧
        (r.arg 0 2 + n ≤ size →
          Ends .rankRead s fun t => s.OnlyAnswers t r (tableReply (u.rspLimit r) 8 n []
            ((List.range n).flatMap fun i => leBytes 8 (u.rd (NI_RANK_ENTRY (base + r.arg 0 2 + i))).toNat))))) ∧
    (s.Serves r 0x0504 16 [] true true →
      let m := r.arg 8 8 % 2 ^ 62
      let clash := ∃ x, x < 16 ∧ x ≠ st ∧ u.fld (NI_FSLOT_MASK_slots x) &&& m ≠ 0
      let own := r.arg 0 2 ≤ 4095 ∧ u.knotOwner (r.arg 0 2) = some st
      let takes := u.fld (NI_FSLOT_MASK_slots st) &&& m ≠ u.fld (NI_FSLOT_MASK_slots st)
      (clash → refused .fslotSet { status := 4 }) ∧ (¬ clash → ¬ own → refused .fslotSet { status := 8 }) ∧
      (¬ clash → own → takes → u.notQuiet st = true → refused .fslotSet { status := 7 }) ∧
      (¬ clash → own → ¬ takes ∨ u.notQuiet st = false → held .fslotSet 1 [(NI_FSLOT_MASK st, BitVec.ofNat 64 m)])) ∧
    (s.Serves r 0x0505 16 [] false false →
      (4095 < r.arg 0 2 → refused .mcastSet { status := 4 }) ∧
      (r.arg 0 2 ≤ 4095 →
        Ends .mcastSet s fun t =>
          t.rd (NI_MCAST_GROUP (r.arg 0 2)) = BitVec.ofNat 64 (r.arg 8 8) &&& 0xFFFFFE000003FFFF#64 ∧ s.Answers t r {} ∧
          s.MailboxesOnly t ∧ s.SameRegsBut t (NI_MCAST_GROUP (r.arg 0 2) :: rspRegs))) ∧
    (∀ unwraps, s.Serves r 0x0506 56 [(5, 3), (14, 2)] false false →
      let c := Instr.limbKeyLoad unwraps
      let limbs := r.arg 0 3
      let k := r.arg 3 1
      let dst := r.arg 4 1
      let named := limbs < 2 ^ 18 ∧ k ≤ 16 ∧ (k < 16 → dst < 16)
      let recent := ∃ l ∈ bitList 18 limbs, u.keyRecent l k = true
      let busy := k < 16 ∧ u.adminBusy dst = true
      let ws := u.mapWrites limbs k dst
      let taken (t : State) : Prop := t.keys = { s.keys with handles := (s.keys.handles + 1) % 2 ^ 32 }
      (¬ named → refused c { status := 4 }) ∧ (named → u.keys.transport = false → refused c { status := 2 }) ∧
      (named → u.keys.transport = true →
        (unwraps = false → refused c { status := 4 }) ∧
        (unwraps = true →
          (recent → refused c { status := 1, retry := 2 }) ∧ (¬ recent → busy → refused c { status := 1, retry := 1 }) ∧
          (¬ recent → ¬ busy → ws ≠ [] → u.drainedOk dst = false →
            Ends c s fun t => taken t ∧ (∃ a ∈ t.hw.admin, a.req = r ∧ a.kind = 2 ∧ a.writes = ws) ∧ t.hw.intake = s.hw.intake.erase r) ∧
          (¬ recent → ¬ busy → ws = [] ∨ u.drainedOk dst = true →
            Ends c s fun t =>
              taken t ∧ (∀ l ∈ bitList 18 limbs, (k, { handle := s.keys.handles, salt := r.arg 8 6 }) ∈ (t.limb l).pendKeys) ∧
              s.Answers t r { body := leBytes 4 s.keys.handles } ∧ s.MailboxesOnly t)))) ∧
    (s.Serves r 0x0507 1576 [] false false →
      (1 < r.arg 0 1 ∨ (r.arg 0 1 = 0 ∧ r.clean 1 [] = false) → refused .transportKey { status := 4 }) ∧
      (r.arg 0 1 = 0 → r.clean 1 [] = true → u.rspLimit r < 1576 → refused .transportKey { status := 6 }) ∧
      (r.arg 0 1 = 0 → r.clean 1 [] = true → 1576 ≤ u.rspLimit r →
        Ends .transportKey s fun t => t.keys = { s.keys with transportPending := true } ∧ t.responseStatus r = 0 ∧ s.MailboxesOnly t) ∧
      (r.arg 0 1 = 1 → s.keys.transportPending = true →
        Ends .transportKey s fun t =>
          t.keys = { s.keys with transportPending := false, transport := true } ∧ s.Answers t r {} ∧ s.MailboxesOnly t) ∧
      (r.arg 0 1 = 1 → s.keys.transportPending = false → refused .transportKey { status := 7 })) ∧
    (s.Serves r 0x0508 4 [] false false →
      (4096 < r.arg 0 2 + r.arg 2 2 → refused .congRead { status := 4 }) ∧
      (r.arg 0 2 + r.arg 2 2 ≤ 4096 →
        Ends .congRead s fun t => s.OnlyAnswers t r (tableReply (u.rspLimit r) 8 (r.arg 2 2) []
          ((List.range (r.arg 2 2)).flatMap fun i => leBytes 8 (s.congWord (r.arg 0 2 + i)).toNat))))

/-- CHAN_BIND, CHAN_UNBIND, FOLD_SCHED, TRIG_QUOTA, CHAN_CRC and CHAN_QUERY (R272, R280, R281, R297, R313, R362): each writes what it names in the register of its channel, engine or stand, to take effect at the next guard
band; a query only reads; what is out of range, another stand's, or takes from a stand that is not quiescent is refused with its status and has no other effect. -/
def Obligations.ChannelOpcodes : Prop :=
  ∀ (s : State) (r : Req),
    let u := s.takeReq r
    let st := r.stand
    let c := r.arg 0 1
    let refused (i : Instr) (x : Reply) : Prop := Ends i s fun t => s.OnlyAnswers t r x
    let writes (i : Instr) (as : List Nat) (P : State → Prop) : Prop :=
      Ends i s fun t => P t ∧ s.Answers t r {} ∧ s.MailboxesOnly t ∧ s.SameRegsBut t (as ++ rspRegs) ∧ t.live = s.live
    (s.Serves r 0x0601 7 [] true true →
      let valid := u.flag (COLL_CHAN_CFG_valid c) = true
      let own := u.chanBound c st
      let laid := c < 64 ∧ r.arg 1 1 ≤ 1 ∧ 1 ≤ r.arg 3 2 ∧ r.arg 3 2 ≤ 256
      let v := BitVec.ofNat 64 (2 ^ 63 + r.arg 1 1 * 2 ^ 61 + bit (own && u.flag (COLL_CHAN_CFG_crc_e2e c)) * 2 ^ 60
        + r.arg 6 1 % 2 * 2 ^ 59 + st * 2 ^ 48 + r.arg 5 1 * 2 ^ 32 + r.arg 3 2 * 65536 + r.arg 2 1)
      let moves := own = true ∧ chanArea v ≠ chanArea (u.rd (COLL_CHAN_CFG c)) ∧ u.notQuiet st = true
      (¬ laid → refused .chanBind { status := 4 }) ∧
      (laid → valid → own = false → refused .chanBind { status := 7 }) ∧
      (laid → ¬ valid ∨ own = true → u.chanRejected c v = true → refused .chanBind { status := 4 }) ∧
      (laid → ¬ valid ∨ own = true → u.chanRejected c v = false → moves → refused .chanBind { status := 7 }) ∧
      (laid → ¬ valid ∨ own = true → u.chanRejected c v = false → ¬ moves →
        writes .chanBind [COLL_CHAN_CFG c] fun t => t.rd (COLL_CHAN_CFG c) &&& chanMask = v &&& chanMask)) ∧
    (s.Serves r 0x0602 1 [] false false →
      let of := u.fld (COLL_CHAN_CFG_stand c)
      (64 ≤ c → refused .chanUnbind { status := 4 }) ∧
      (c < 64 → u.flag (COLL_CHAN_CFG_valid c) = false → refused .chanUnbind {}) ∧
      (c < 64 → u.flag (COLL_CHAN_CFG_valid c) = true →
        (u.adminBusy of = true → refused .chanUnbind { status := 1, retry := 1 }) ∧
        (u.adminBusy of = false → u.quiescent of = false → refused .chanUnbind { status := 7 }) ∧
        (u.adminBusy of = false → u.quiescent of = true →
          writes .chanUnbind [COLL_CHAN_CFG c] fun t => t.flag (COLL_CHAN_CFG_valid c) = false))) ∧
    (s.Serves r 0x0603 64 [(1, 1)] false false →
      let ok := c ≤ 1 ∧ ∀ k, k < 62 → u.schedOk c (r.arg (2 + k) 1) = true
      (¬ ok → refused .foldSched { status := 4 }) ∧
      (ok →
        writes .foldSched ((List.range 8).map (COLL_SCHED c)) fun t =>
          ∀ k, k < 62 → byteOf (t.rd (COLL_SCHED c (k / 8))) (k % 8) = r.arg (2 + k) 1 &&& 0xBF)) ∧
    (s.Serves r 0x0604 4 [] true true →
      let fits := u.otherShares st 0 + r.arg 0 2 ≤ 2048 ∧ u.otherShares st 1 + r.arg 2 2 ≤ 2048
      let lowers := (r.arg 0 2 < u.fld (COLL_STAND_QUOTA_quota0 st) ∨ r.arg 2 2 < u.fld (COLL_STAND_QUOTA_quota1 st)) ∧ u.notQuiet st = true
      (¬ fits → refused .trigQuota { status := 4 }) ∧ (fits → lowers → refused .trigQuota { status := 7 }) ∧
      (fits → ¬ lowers →
        writes .trigQuota [COLL_STAND_QUOTA st] fun t =>
          t.fld (COLL_STAND_QUOTA_quota0 st) = r.arg 0 2 ∧ t.fld (COLL_STAND_QUOTA_quota1 st) = r.arg 2 2)) ∧
    (s.Serves r 0x0605 2 [] false false →
      (∀ x, u.chanFor r c = some x → refused .chanCrc x) ∧
      (u.chanFor r c = none →
        let v := putBits (putBits (u.rd (COLL_CHAN_CFG c)) 60 60 (bitsOf (r.arg 1 1) 0 0)) 59 59 (bitsOf (r.arg 1 1) 1 1)
        (u.chanRejected c v = false →
          writes .chanCrc [COLL_CHAN_CFG c] fun t =>
            t.flag (COLL_CHAN_CFG_crc_e2e c) = bitOf (r.arg 1 1) 0 ∧ t.flag (COLL_CHAN_CFG_crc_auto c) = bitOf (r.arg 1 1) 1 ∧
            t.fld (COLL_CHAN_CFG_stand c) = s.fld (COLL_CHAN_CFG_stand c) ∧ t.flag (COLL_CHAN_CFG_valid c) = s.flag (COLL_CHAN_CFG_valid c)) ∧
        (u.chanRejected c v = true → writes .chanCrc [COLL_EVENT] fun t => t.flag COLL_EVENT_area_rejected = true))) ∧
    (s.Serves r 0x0606 1 [] false false →
      (∀ x, u.chanFor r c = some x → refused .chanQuery x) ∧
      (u.chanFor r c = none →
        Ends .chanQuery s fun t => s.OnlyAnswers t r
          { body := [COLL_CHAN_CFG c, COLL_CHAN_STATUS c, COLL_CHAN_CODE c, COLL_CHAN_CRC c].flatMap fun a => leBytes 8 (s.rd a).toNat }))

/-- COUNTER_READ, COUNTER_SELECT, TRACE_SET, FROST, DUMP_READ, DUMP_TRIGGER, CSR_READ and CSR_WRITE (R363, R367, R369, R461, R469 to R471, R474, R480): what the caller may not name is refused whole; a permitted read only reads and a
permitted write writes what it names; a freeze that another waits for, or that comes while frozen, only counts; without a dump granule only the event is posted. -/
def Obligations.CounterAndDebugOpcodes : Prop :=
  ∀ (s : State) (r : Req),
    let u := s.takeReq r
    let n := r.arg 0 2
    let answered := fun (c : Instr) (x : Reply) => Ends c s fun t => s.OnlyAnswers t r x
    let done := fun (t : State) => s.Answers t r {} ∧ s.MailboxesOnly t
    (s.Serves r 0x0701 6 [(1, 1)] false false →
      (∀ x, u.scopeCheck r = some x → answered .counterRead x) ∧
      (u.scopeCheck r = none →
        answered .counterRead (tableReply (u.rspLimit r) (8 * (u.scopeRegs r (r.arg 0 1) 0).length) (r.arg 4 2)
          (leBytes 8 (u.rd RING_TIME).toNat)
          ((List.range (r.arg 4 2)).flatMap fun i => (u.scopeRegs r (r.arg 0 1) (r.arg 2 2 + i)).flatMap fun w => leBytes 8 w.toNat)))) ∧
    (s.Serves r 0x0702 4096 [(1, 1)] false false →
      let sel := (List.range (r.arg 4 2)).flatMap fun i => selRegs (r.arg 0 1) (r.arg 2 2 + i)
      let word := fun (i : Nat) => r.arg (8 + 8 * i) 8
      let tenantLimbs := r.arg 0 1 = 2 ∧ r.owner = false
      let bad := 2 < r.arg 0 1 ∨ r.clean (8 + 8 * sel.length) [(1, 1)] = false ∨ ∃ i, i < sel.length ∧ 2 ^ 20 ≤ word i
      (∀ x, u.scopeCheck r = some x → answered .counterSelect x) ∧
      (u.scopeCheck r = none → tenantLimbs → answered .counterSelect { status := 2 }) ∧
      (u.scopeCheck r = none → ¬ tenantLimbs → bad → answered .counterSelect { status := 4 }) ∧
      (u.scopeCheck r = none → ¬ tenantLimbs → ¬ bad →
        Ends .counterSelect s fun t =>
          (∀ i, i < sel.length → (t.rd (sel.getD i 0)).toNat % 2 ^ 20 = word i) ∧ done t ∧ s.SameRegsBut t (sel ++ rspRegs) ∧
          t.live = s.live)) ∧
    (s.Serves r 0x0703 1 [] true false →
      let allowed := r.owner = true ∨ u.liveFlag (STAND_CFG_trace_allowed r.stand) = true
      (¬ allowed → answered .traceSet { status := 2 }) ∧
      (allowed →
        Ends .traceSet s fun t =>
          (∀ x, x < 16 → bitOf (t.fld TRC_STAND_EN_stand) x = if x = r.stand then bitOf (r.arg 0 1) 0 else bitOf (s.fld TRC_STAND_EN_stand) x) ∧
          done t ∧ s.SameRegsBut t (TRC_STAND_EN :: rspRegs) ∧ t.live = s.live)) ∧
    (s.Serves r 0x0704 9 [] false false →
      let ring := r.arg 0 8
      let release := bitOf (r.arg 8 1) 0 = true
      let bad := ring ≤ s.ring ∨ (ring = s.ring + 1 ∧ 62 ≤ s.clk.slot) ∨ 2 ^ 48 ≤ ring
      let counted := Ends .frost s fun t =>
        t.fld TRC_FROST_LOG_ignored = min 255 (s.fld TRC_FROST_LOG_ignored + 1) ∧ t.obs = s.obs ∧ done t ∧
        s.SameRegsBut t (TRC_FROST_LOG :: rspRegs)
      let taken := fun (x : Nat) => ∃ e, e ∈ s.obs.freezeAt ∧ e.1 = x
      (release → Ends .frost s fun t => t.obs = { s.obs with releaseAt := some s.frostRing } ∧ done t ∧ s.SameRegsBut t rspRegs) ∧
      (¬ release → ring = 0 → s.frozen = true ∨ s.fld TRC_FROST_at_ring = s.frostRing ∨ taken s.frostRing → counted) ∧
      (¬ release → ring = 0 → ¬ (s.frozen = true ∨ s.fld TRC_FROST_at_ring = s.frostRing ∨ taken s.frostRing) →
        Ends .frost s fun t =>
          t.obs = { s.obs with freezeAt := s.obs.freezeAt ++ [(s.frostRing, 2)] } ∧ t.flag TRC_FROST_pending = true ∧ done t ∧
          s.SameRegsBut t (TRC_FROST :: rspRegs)) ∧
      (¬ release → ring ≠ 0 → bad → answered .frost { status := 4 }) ∧
      (¬ release → ring ≠ 0 → ¬ bad → s.frozen = true ∨ taken ring → counted) ∧
      (¬ release → ring ≠ 0 → ¬ bad → ¬ (s.frozen = true ∨ taken ring) →
        Ends .frost s fun t =>
          t.fld TRC_FROST_at_ring = ring ∧ t.flag TRC_FROST_pending = true ∧ t.obs = s.obs ∧ done t ∧
          s.SameRegsBut t (TRC_FROST :: rspRegs))) ∧
    (s.Serves r 0x0B01 4096 [(2, 6)] false false →
      (r.clean (8 + 4 * n) [(2, 6)] = false → answered .csrRead { status := 4 }) ∧
      (r.clean (8 + 4 * n) [(2, 6)] = true →
        answered .csrRead (tableReply (u.rspLimit r) 8 n []
          ((List.range n).flatMap fun i => u.readAccess (r.arg (8 + 4 * i) 4 % 2 ^ 24) 8)))) ∧
    (s.Serves r 0x0B02 4088 [(2, 6)] false false →
      let off := fun (i : Nat) => r.arg (8 + 24 * i) 4 % 2 ^ 24
      let mask := fun (i : Nat) => BitVec.ofNat 64 (r.arg (16 + 24 * i) 8)
      let good := 1 ≤ n ∧ n ≤ 170 ∧ r.clean (8 + 24 * n) ((2, 6) :: (List.range n).map fun i => (12 + 24 * i, 4)) = true
      (¬ good → answered .csrWrite { status := 4 }) ∧
      (∀ i, good → i < n → csrStatus (off i) ≠ 0 → (∀ j, j < i → csrStatus (off j) = 0) →
        answered .csrWrite { status := csrStatus (off i), body := leBytes 2 i }) ∧
      (∀ row : Nat → RegRow, good →
        (∀ i, i < n → csrStatus (off i) = 0 ∧ regRow (off i) = some (row i) ∧ writerOf (row i).base = none ∧ off i ∉ rspRegs) →
        ((List.range n).map off).Nodup →
        Ends .csrWrite s fun t =>
          (∀ i, i < n → t.rd (off i) = (row i).apply (s.rd (off i))
            ((u.readReg (off i) &&& ~~~mask i) ||| (BitVec.ofNat 64 (r.arg (24 + 24 * i) 8) &&& mask i))) ∧
          s.Answers t r (tableReply (u.rspLimit r) 8 n [] ((List.range n).flatMap fun i => leBytes 8 (t.readReg (off i)).toNat)) ∧
          s.MailboxesOnly t ∧ s.SameRegsBut t ((List.range n).map off ++ rspRegs) ∧ t.live = s.live)) ∧
    (s.Serves r 0x0B03 12 [] false false →
      let o := r.arg 0 8
      let len := r.arg 8 4
      (s.flag HBM_RESERVE_valid = false → answered .dumpRead { status := 9 }) ∧
      (s.flag HBM_RESERVE_valid = true → 2 ^ 30 < o + len → answered .dumpRead { status := 4 }) ∧
      (s.flag HBM_RESERVE_valid = true → o + len ≤ 2 ^ 30 → u.rspLimit r < len →
        answered .dumpRead { status := 6, body := leBytes 4 (u.rspLimit r) }) ∧
      (s.flag HBM_RESERVE_valid = true → o + len ≤ 2 ^ 30 → len ≤ u.rspLimit r →
        Ends .dumpRead s fun t =>
          s.Answers t r { body := (u.hbmRead (u.slotKey 16) (u.fld HBM_RESERVE_granule * 2 ^ 30 + o) len).1 } ∧ t.knots = s.knots)) ∧
    (s.Serves r 0x0B04 0 [] false false →
      let known := r.stand < 16 ∨ r.stand = 0xFF
      let dump : Dump := { stand := r.stand, cause := 1, time := (s.rd RING_TIME).toNat }
      (¬ known → answered .dumpTrigger { status := 4 }) ∧
      (known → s.flag HBM_RESERVE_valid = true → s.obs.dump.isSome = true →
        Ends .dumpTrigger s fun t => t.obs.dumpWait = s.obs.dumpWait ++ [dump] ∧ t.obs.dump = s.obs.dump ∧ done t) ∧
      (known → s.flag HBM_RESERVE_valid = true → s.obs.dump = none →
        Ends .dumpTrigger s fun t =>
          t.obs.dump = some { (s.obs.dumpWait.headD dump) with first := s.ring, writer := s.token, slot := s.fld TRC_DUMP_STATUS_next_slot } ∧
          t.obs.dumpWait = (s.obs.dumpWait ++ [dump]).tail ∧ t.flag TRC_DUMP_STATUS_in_progress = true ∧ done t) ∧
      (known → s.flag HBM_RESERVE_valid = false →
        Ends .dumpTrigger s fun t =>
          t.obs.dumpWait = s.obs.dumpWait ∧ t.obs.dump = s.obs.dump ∧ t.hw.log.length = min 8192 (s.hw.log.length + 1) ∧ done t))

/-- FW_CHAIN_SET, FW_HEADER, FW_PIECE, FW_STATUS, FW_ACTIVATE, FW_ABORT and FW_POLICY (R446 to R454, R368): the first half of a header is held, the second completes it and it is checked; a piece is laid into its block, one that a third record would wait for is asked again later; an activation is accepted when no cause refuses it and else answers the first
cause; an abort ends the transfer. -/
def Obligations.FirmwareOpcodes : Prop :=
  ∀ (s : State) (r : Req),
    let u := s.takeReq r
    (s.Serves r 0x0801 5 [] false false →
      let good := (r.arg 0 2 ≤ 4095 ∨ r.arg 0 2 = 0xFFFF) ∧ r.arg 2 3 < 2 ^ 18
      (¬ good → Ends .fwChainSet s fun t => s.OnlyAnswers t r { status := 4 }) ∧
      (s.transferring = true → good → Ends .fwChainSet s fun t => s.OnlyAnswers t r { status := 7 }) ∧
      (s.transferring = false → good →
        Ends .fwChainSet s fun t =>
          t.fw = { s.fw with nextNode := r.arg 0 2, limbs := r.arg 2 3 } ∧ s.Answers t r {} ∧ s.MailboxesOnly t ∧ s.SameRegsBut t rspRegs)) ∧
    (∀ chk, s.Serves r 0x0802 4096 [] false false →
      (s.transferring = true ∨ s.fw.activate = true → Ends (.fwHeader chk) s fun t => s.OnlyAnswers t r { status := 7 }) ∧
      (s.transferring = false → s.fw.activate = false → s.fw.half = none →
        Ends (.fwHeader chk) s fun t =>
          t.fw = { s.fw with half := some r.payload } ∧ t.fld FLASH_XFER_header_result = 1 ∧ t.fld FLASH_XFER_state = 1 ∧
          s.Answers t r { body := leBytes 1 1 } ∧ s.MailboxesOnly t) ∧
      (∀ a, s.transferring = false → s.fw.activate = false → s.fw.half = some a →
        let h := padTo 4096 a ++ padTo 4096 r.payload
        let x := headerResult h s.fuses.floor chk
        (x ≠ 0 →
          Ends (.fwHeader chk) s fun t =>
            t.fw = { s.fw with half := none } ∧ t.fld FLASH_XFER_header_result = x ∧ t.fld FLASH_XFER_state = 0 ∧
            s.Answers t r { status := 4, body := leBytes 1 x } ∧ s.MailboxesOnly t) ∧
        (x = 0 →
          Ends (.fwHeader chk) s fun t =>
            t.fw.header = h ∧ t.fw.half = none ∧ t.fw.parts = [] ∧ t.fw.complete = [] ∧ t.fw.stored = [] ∧
            t.fw.forward = (if s.fw.nextNode = 0xFFFF then [] else [0xFFFFFFFF]) ∧ t.fld FLASH_XFER_header_result = 0 ∧
            t.fld FLASH_XFER_state = 2 ∧ t.fld FLASH_XFER_blocks_total = bytesAt h 20 4 ∧ t.fld FLASH_XFER_blocks_stored = 0 ∧
            s.Answers t r { body := leBytes 1 0 }))) ∧
    (s.Serves r 0x0803 4096 [(12, 4)] false false →
      let o := r.arg 4 4
      let len := r.arg 8 4
      (4080 < len ∨ recordBytes < o + len ∨ r.clean (16 + len) [] = false →
        Ends .fwPiece s fun t => s.OnlyAnswers t r { status := 4 }) ∧
      (len ≤ 4080 → o + len ≤ recordBytes → r.clean (16 + len) [] = true →
        (s.transferring = false → Ends .fwPiece s fun t => s.OnlyAnswers t r { body := leBytes 4 (s.fld FLASH_XFER_blocks_stored) }) ∧
        (s.transferring = true → s.fld FLASH_XFER_blocks_total ≤ r.arg 0 4 → Ends .fwPiece s fun t => s.OnlyAnswers t r { status := 4 }) ∧
        (s.transferring = true → r.arg 0 4 < s.fld FLASH_XFER_blocks_total → u.thirdRecord (r.arg 0 4) o len = true →
          Ends .fwPiece s fun t => s.OnlyAnswers t r { status := 1, retry := 1 }) ∧
        (s.transferring = true → r.arg 0 4 < s.fld FLASH_XFER_blocks_total → u.thirdRecord (r.arg 0 4) o len = false →
          Ends .fwPiece s fun t =>
            t.fw = (s.takePiece (r.arg 0 4) o (padTo len ((r.payload.drop 16).take len))).fw ∧
            s.Answers t r { body := leBytes 4 (s.fld FLASH_XFER_blocks_stored) } ∧ s.MailboxesOnly t ∧ s.SameRegsBut t rspRegs))) ∧
    (s.Serves r 0x0804 0 [] false false → Ends .fwStatus s fun t => s.OnlyAnswers t r { body := s.fwProgressRecord }) ∧
    (s.Serves r 0x0805 0 [] false false →
      (u.actCause ≠ 0 →
        Ends .fwActivate s fun t =>
          t.fw = s.fw ∧ t.fld FLASH_XFER_act_cause = u.actCause ∧ s.Answers t r { status := 7, body := leBytes 1 u.actCause } ∧
          s.MailboxesOnly t) ∧
      (u.actCause = 0 →
        Ends .fwActivate s fun t =>
          t.fw = { s.fw with activate := true } ∧ t.fld FLASH_XFER_state = 4 ∧ s.Answers t r { body := leBytes 1 0 } ∧ s.MailboxesOnly t)) ∧
    (s.Serves r 0x0806 0 [] false false →
      (s.transferring = true ∨ s.fld FLASH_XFER_state = 1 →
        Ends .fwAbort s fun t =>
          t.fld FLASH_XFER_state = 5 ∧ t.fw.half = none ∧ t.fw.header = [] ∧ t.fw.forward = [] ∧ t.fw.complete = [] ∧ t.responseStatus r = 0) ∧
      (s.transferring = false → s.fld FLASH_XFER_state ≠ 1 → Ends .fwAbort s fun t => s.OnlyAnswers t r {})) ∧
    (s.Serves r 0x0807 1 [] false false →
      Ends .fwPolicy s fun t =>
        (t.rd FLASH_POLICY).toNat % 16 = r.arg 0 1 % 16 ∧ s.Answers t r {} ∧ s.MailboxesOnly t ∧ s.SameRegsBut t (FLASH_POLICY :: rspRegs))

/-- IDENTITY, IDENTITY_RECORD, CAL_SET, CAL_READ, LOG_READ, LOCATE, RED_STATUS, SWAP_DRILL, LEAF_REMAP and LEAF_RESTORE (R88 to R90, R353 to R358, R384, R437): readers answer what they show and change nothing; a valid stamp sets the calendar, an invalid one is INVALID_DATE; the locate light, a drill
and a remap or restore start as asked, or are refused with the status of what stands in their way. -/
def Obligations.ManagementOpcodes : Prop :=
  ∀ (s : State) (r : Req),
    let u := s.takeReq r
    let i := r.arg 1 1
    let w := r.arg 0 1
    (s.Serves r 0x0901 0 [] false false → Ends .identity s fun t => s.OnlyAnswers t r { body := s.identityBody }) ∧
    (s.Serves r 0x0902 4 [] false false →
      (1664 < r.arg 0 2 + r.arg 2 2 → Ends .identityRecord s fun t => s.OnlyAnswers t r { status := 4 }) ∧
      (r.arg 0 2 + r.arg 2 2 ≤ 1664 →
        Ends .identityRecord s fun t => s.OnlyAnswers t r
          (tableReply (u.rspLimit r) 1 (r.arg 2 2) [] ((s.identityRecord.drop (r.arg 0 2)).take (r.arg 2 2))))) ∧
    (s.Serves r 0x0903 12 [] false false →
      let b := padTo 12 (r.payload.take 12)
      (stampOk b = false → Ends .calSet s fun t => s.OnlyAnswers t r { status := 5 }) ∧
      (stampOk b = true →
        Ends .calSet s fun t =>
          t.flag MBX_CAL_STATUS_valid = true ∧ t.flag MBX_CAL_STATUS_at_end = false ∧
          t.fld MBX_CAL_STATUS_set_ring = s.ring % (MBX_CAL_STATUS_set_ring.max + 1) ∧ t.calendarUs = min calendarEndUs (stampToUs b) ∧
          t.hw.log.length = min 8192 (s.hw.log.length + 1) ∧ s.Answers t r {} ∧ s.MailboxesOnly t)) ∧
    (s.Serves r 0x0904 0 [] false false → Ends .calRead s fun t => s.OnlyAnswers t r { body := u.calBody }) ∧
    (s.Serves r 0x0905 6 [] false false →
      (r.arg 4 2 = 0 ∨ 63 < r.arg 4 2 → Ends .logRead s fun t => s.OnlyAnswers t r { status := 4 }) ∧
      (1 ≤ r.arg 4 2 → r.arg 4 2 ≤ 63 →
        let es := ((s.hw.log.filter fun e => decide (r.arg 0 4 ≤ e.seq)).reverse).take (r.arg 4 2)
        Ends .logRead s fun t => s.OnlyAnswers t r (tableReply (u.rspLimit r) 64 es.length
          (leBytes 4 ((es.head?.map (·.seq)).getD (r.arg 0 4)) ++ leBytes 2 es.length ++ List.replicate 10 0#8) (es.flatMap LogEntry.toBytes)))) ∧
    (s.Serves r 0x0906 4 [(1, 1)] false false →
      (2 < w → Ends .locate s fun t => s.OnlyAnswers t r { status := 4 }) ∧
      (w ≤ 2 →
        Ends .locate s fun t =>
          t.pins = { s.pins with led := w, ledLeft := if w = 0 then 0 else r.arg 2 2 } ∧ s.Answers t r {} ∧ s.MailboxesOnly t ∧
          s.SameRegsBut t rspRegs)) ∧
    (s.Serves r 0x0A01 0 [] false false → Ends .redStatus s fun t => s.OnlyAnswers t r { body := s.redBody }) ∧
    (s.Serves r 0x0A02 2 [] false false →
      (r.arg 0 2 < 16 ∨ 4096 < r.arg 0 2 → Ends .swapDrill s fun t => s.OnlyAnswers t r { status := 4 }) ∧
      let free := s.healthy (otherNo s.token) = true ∧ s.flag MBX_RED_STATUS_takeover_running = false ∧ s.hw.drill = none ∧
        s.transferring = false ∧ s.fw.activate = false
      (16 ≤ r.arg 0 2 → r.arg 0 2 ≤ 4096 → ¬ free → Ends .swapDrill s fun t => s.OnlyAnswers t r { status := 7 }) ∧
      (16 ≤ r.arg 0 2 → r.arg 0 2 ≤ 4096 → free →
        Ends .swapDrill s fun t =>
          t.flag MBX_RED_STATUS_drill_running = true ∧ t.hw.drill = some (s.rings, r.arg 0 2, 0) ∧ t.hw.planned = some 5 ∧ t.hw.plannedFrom = s.clk.rings + 1 ∧
          t.token = s.token ∧ s.Answers t r { body := leBytes 1 s.token } ∧ s.MailboxesOnly t)) ∧
    (s.Serves r 0x0A03 2 [] false false →
      (144 ≤ w ∨ 32 ≤ i → Ends .leafRemap s fun t => s.OnlyAnswers t r { status := 4 }) ∧
      let dead := bitOf (s.fld (TWIG_LEAF_FAULT_slot_fault w)) i
      (w < 144 → i < 32 → s.flag TWIG_REMAP_busy = true → Ends .leafRemap s fun t => s.OnlyAnswers t r { status := 1, retry := 1 }) ∧
      (w < 144 → i < 32 → s.flag TWIG_REMAP_busy = false → s.spareOf w = none → dead = false →
        Ends .leafRemap s fun t => s.OnlyAnswers t r { status := 7 }) ∧
      (w < 144 → i < 32 → s.flag TWIG_REMAP_busy = false → s.spareOf w ≠ none ∨ dead = true →
        Ends .leafRemap s fun t =>
          t.flag TWIG_REMAP_busy = true ∧ t.remap = some (w, i, dead, s.nextBand) ∧
          bitOf (t.fld (TWIG_LEAF_FAULT_slot_fault w)) i = false ∧ s.Answers t r {} ∧ s.MailboxesOnly t)) ∧
    (s.Serves r 0x0A04 2 [] false false →
      (144 ≤ w ∨ 33 ≤ i → Ends .leafRestore s fun t => s.OnlyAnswers t r { status := 4 }) ∧
      (w < 144 → i < 33 → s.flag TWIG_REMAP_busy = true → Ends .leafRestore s fun t => s.OnlyAnswers t r { status := 1, retry := 1 }) ∧
      (w < 144 → i < 33 → s.flag TWIG_REMAP_busy = false → s.spareOf w ≠ none →
        Ends .leafRestore s fun t => s.OnlyAnswers t r { status := 7 }) ∧
      (w < 144 → i < 33 → s.flag TWIG_REMAP_busy = false → s.spareOf w = none → s.isOos w i = false →
        Ends .leafRestore s fun t => s.OnlyAnswers t r { status := 4 }) ∧
      (w < 144 → i < 33 → s.flag TWIG_REMAP_busy = false → s.spareOf w = none → s.isOos w i = true →
        Ends .leafRestore s fun t =>
          t.flag TWIG_REMAP_busy = true ∧ t.flag (TWIG_STATUS_restore_running w) = true ∧ t.restore = some (w, i, none) ∧ s.Answers t r {} ∧
          s.MailboxesOnly t))

/-! ### Stands (11) -/

/-- STAND_TWIG_OWNER_WRITE, STAND_MEM_SLOTS_WRITE, STAND_KEY_GENERATE and STAND_CTRL_RESET (R308, R312, R314): an assignment that takes another stand's twig or slots, a degraded twig, or a key of a stand in use is rejected and
flagged; any other is written, to take effect at a guard band; a reset is asked for the next slot, of an ACTIVE stand that has none in hand. STAND_RESET_ENTRY, STAND_RESET_DONE, STAND_ACTIVATE, STAND_FREED, PCIE_FLR and VF_ENABLE_CHANGE (R310, R311, R314 to R316, R343, R483): the steps of a stand's life each in its slot and in no other; a function-level reset, and a VF that disappears, reset the
stand and clear its mailbox window. -/
def Obligations.StandAssignmentAndLife : Prop :=
  (∀ (s : State) (v : Word),
    (∀ w, w < 144 →
      let taken := v.getLsbD 63 = true ∧ (s.flag (TWIG_STATUS_degraded w) = true ∨
        s.liveFlag (STAND_TWIG_OWNER_valid w) = true ∧ s.liveFld (STAND_TWIG_OWNER_stand w) ≠ bitsOf v.toNat 3 0)
      (taken → Ends (.standTwigOwnerWrite w v) s fun t => t.flag STAND_EVENT_assign_rejected = true ∧ s.OnlyRegs t [STAND_EVENT]) ∧
      (¬ taken →
        Ends (.standTwigOwnerWrite w v) s fun t =>
          t.rd (STAND_TWIG_OWNER w) = v &&& 0x800000000000000F#64 ∧ t.twigStand w = s.twigStand w ∧ s.OnlyRegs t [STAND_TWIG_OWNER w])) ∧
    ∀ st, st < 16 →
      (let clash := ∃ x, x < 16 ∧ x ≠ st ∧ s.fld (STAND_MEM_SLOTS_slots x) &&& bitsOf v.toNat 61 0 ≠ 0
       (clash → Ends (.standMemSlotsWrite st v) s fun t => t.flag STAND_EVENT_assign_rejected = true ∧ s.OnlyRegs t [STAND_EVENT]) ∧
       (¬ clash →
          Ends (.standMemSlotsWrite st v) s fun t =>
            t.fld (STAND_MEM_SLOTS_slots st) = bitsOf v.toNat 61 0 ∧ s.OnlyRegs t [STAND_MEM_SLOTS st])) ∧
      (v.getLsbD 63 = true → s.standState st ≤ 1 → s.holdsRegion st = false →
        Ends (.standKeyGenerate st v) s fun t =>
          t = { s with keys := t.keys } ∧ (st, s.keys.handles) ∈ t.keys.pending ∧ t.keys.handles = (s.keys.handles + 1) % 2 ^ 32 ∧
          t.keys.slots = s.keys.slots) ∧
      (v.getLsbD 63 = true → 1 < s.standState st ∨ s.holdsRegion st = true →
        Ends (.standKeyGenerate st v) s fun t => t.flag STAND_EVENT_key_rejected = true ∧ s.OnlyRegs t [STAND_EVENT]) ∧
      (v.getLsbD 0 = true → s.standState st = 2 → (s.stand st).resetCause = none →
        Ends (.standCtrlReset st v) s fun t =>
          (t.stand st).resetCause = some 3 ∧ (t.stand st).resetSlot = s.resetDue ∧ t = { s with stands := t.stands }) ∧
      (v.getLsbD 63 = false → Ends (.standKeyGenerate st v) s fun t => t = s) ∧
      (v.getLsbD 0 = false ∨ s.standState st ≠ 2 ∨ (s.stand st).resetCause ≠ none → Ends (.standCtrlReset st v) s fun t => t = s)) ∧
  (∀ (s : State) (v : Word) (x : Nat),
    (144 ≤ x → Ends (.standTwigOwnerWrite x v) s fun t => t = s) ∧
    ∀ c ∈ ([.standMemSlotsWrite x v, .standKeyGenerate x v, .standCtrlReset x v, .standResetEntry x, .standResetDone x, .standActivate x,
        .standFreed x, .pcieFlr x] : List Instr), 16 ≤ x → Ends c s fun t => t = s) ∧
  (∀ (s : State) (st : Nat), st < 16 →
    let windowClear (t : State) (x : Nat) : Prop := ∀ a, mbxAt x ≤ a → a < mbxAt x + 65536 → Memory.read t.mem a = 0#8
    let due := (s.stand st).resetCause.isSome = true ∧ (s.stand st).resetEntered = false ∧ (s.stand st).resetSlot ≤ s.rings * 64 + s.clk.slot
    let ends := (s.stand st).resetEntered = true ∧ s.ringAfterBand (s.stand st).bandRing = true
    let ready := s.standState st = 1 ∧ s.ringAfterBand (s.stand st).commitRing = true ∧ s.standReady st = true
    let gone := (s.stand st).teardown = 5 ∧ s.ringAfterBand (s.stand st).commitRing = true
    let reached := s.pcie.link = true ∧ s.vfExists st = true
    (¬ due → Ends (.standResetEntry st) s fun t => t = s) ∧ (¬ ends → Ends (.standResetDone st) s fun t => t = s) ∧
    (¬ ready → Ends (.standActivate st) s fun t => t = s) ∧ (¬ gone → Ends (.standFreed st) s fun t => t = s) ∧
    (¬ reached → Ends (.pcieFlr st) s fun t => t = s) ∧
    (∀ enable n, s.pcie.link = false ∨ 16 < n → Ends (.vfEnableChange enable n) s fun t => t = s) ∧
    (due →
      Ends (.standResetEntry st) s fun t =>
        (t.stand st).resetEntered = true ∧ t.standState st = (if (s.stand st).teardown = 0 then 3 else s.standState st) ∧
        (∀ c ∈ t.cmds, c.stand = st → c.status = 6 ∧ c.started.isSome = true) ∧ (∀ c ∈ s.cmds, c.stand ≠ st → c ∈ t.cmds) ∧
        (∀ x ∈ t.ni.trigs, x.stand = st → x.state = .running ∨ x.state = .finished) ∧ (∀ o ∈ t.ni.rxOps, o.dstStand ≠ st) ∧
        t.mem = s.mem ∧ t.knots = s.knots ∧ t.live = s.live) ∧
    (ends →
      Ends (.standResetDone st) s fun t =>
        (t.stand st).resetCause = none ∧ (t.stand st).resetEntered = false ∧ s.MailboxesOnly t ∧ t.knots = s.knots ∧
        ((s.stand st).teardown = 0 → t.standState st = 2 ∧ (t.stand st).teardown = 0) ∧
        ((s.stand st).teardown ≠ 0 → t.standState st = s.standState st ∧ (t.stand st).teardown = 2) ∧
        ∀ c, (s.stand st).resetCause = some c → c ≠ 4 → bitOf (t.fld STAND_EVENT_reset_done) st = true) ∧
    (ready →
      Ends (.standActivate st) s fun t =>
        t.standState st = 2 ∧ (t.stand st).commitRing = none ∧ bitOf (t.fld STAND_EVENT_active) st = true ∧ s.MailboxesOnly t ∧
        t.knots = s.knots ∧ t.live = s.live) ∧
    (gone →
      Ends (.standFreed st) s fun t =>
        t.standState st = 0 ∧ t.stand st = {} ∧ bitOf (t.fld STAND_EVENT_freed) st = true ∧ windowClear t st ∧ s.MailboxesOnly t ∧
        t.knots = s.knots ∧ t.live = s.live) ∧
    (reached →
      Ends (.pcieFlr st) s fun t =>
        (s.standState st = 2 → (s.stand st).resetCause = none → (t.stand st).resetCause = some 2 ∧ (t.stand st).resetSlot = s.resetDue) ∧
        t.standState st = s.standState st ∧ windowClear t st ∧ s.SameBytesBut t (mbxAt st) 65536 ∧ t.pcie = s.pcie ∧ t.live = s.live) ∧
    ∀ enable n, s.pcie.link = true → n ≤ 16 →
      Ends (.vfEnableChange enable n) s fun t =>
        t.pcie = { s.pcie with vfEnable := enable, numVfs := n } ∧ s.MailboxesOnly t ∧ t.live = s.live ∧ t.knots = s.knots ∧
        (s.vfExists st = true → enable = false ∨ n ≤ st → windowClear t st) ∧
        (s.vfExists st = false → t.stand st = s.stand st))

/-! ### Register writes (00) -/

/-- REGISTER_WRITE (R11, R12, R304, R305, R324, R327, R418, R459): from an origin that may write it, an aligned 64-bit write to a register without a check of its own sets its RW bits and clears its W1C bits where the value has 1, and nothing else; a
32-bit write does so in its half alone; a register with a check of its own takes the value through that check; request slots, buffers and the recovery buffer take the bytes. An access that is not aligned or meets no register, a tenant's outside its windows, one
without VIN outside the always-on domain, PF0's in D3hot, and a Heartwood's without the token change no register; the last is counted. -/
def Obligations.RegisterWritesFollowTheAccessCodes : Prop :=
  ∀ (s : State) (o : Origin) (a size : Nat) (v : Word),
    let there := a < 0x1000000 ∧ (s.powered = true ∨ alwaysOn (a - a % 8) = true)
    let may := (∃ st, o = .vf st ∧ st < 16 ∧ s.powered = true ∧ s.vfReaches st a = true) ∨ (there ∧ s.mayWrite o = true)
    let aligned := (size = 8 ∧ a % 8 = 0) ∨ (size = 4 ∧ a % 4 = 0)
    let nothing := Ends (.registerWrite o a size v) s fun t => t = s
    let stored := fun (p : Nat) => Ends (.registerWrite o a size v) s fun t =>
      t.bytes p size = leBytes size v.toNat ∧ s.SameBytesBut t p size ∧ t = { s with mem := t.mem }
    (¬ may → (∀ h, o ≠ .heartwood h) ∨ ¬ there → nothing) ∧
    (there → s.token ≠ 1 →
      Ends (.registerWrite (.heartwood .a) a size v) s fun t => t = { s with hw := { s.hw with discardA := s.hw.discardA + 1 } }) ∧
    (there → s.token ≠ 2 →
      Ends (.registerWrite (.heartwood .b) a size v) s fun t => t = { s with hw := { s.hw with discardB := s.hw.discardB + 1 } }) ∧
    (may → ¬ aligned → nothing) ∧
    (may → aligned → inPageWindow a = true → nothing) ∧
    (may → aligned → inRecBuf a = true →
      (s.flag FLASH_STATUS_recovery = true → stored (recBufAt + (a - 0xF20000))) ∧ (s.flag FLASH_STATUS_recovery = false → nothing)) ∧
    (∀ m off, may → aligned → mbxWindow a = some (m, off) →
      (s.mbxServed m = false → nothing) ∧ (0x38 ≤ off → isHostSlot off = false → nothing) ∧
      (s.mbxServed m = true → 0x38 ≤ off → isHostSlot off = true → stored (mbxAt m + off))) ∧
    ∀ x, may → aligned →
      (mbxWindow a = none ∧ inPageWindow a = false ∧ inRecBuf a = false ∧ x = a) ∨
        (∃ m off, mbxWindow a = some (m, off) ∧ s.mbxServed m = true ∧ off < 0x38 ∧ x = MBX_FN_STATUS m + off) →
      let b := x - x % 8
      let lo := 32 * (x % 8 / 4)
      (regRow b = none → nothing) ∧
      ∀ row, regRow b = some row →
        let touches := size = 8 ∨ bitsOf (row.rw ||| row.w1c ||| row.wo ||| row.rwl) (lo + 31) lo ≠ 0
        let w := if size = 8 then v else putBits (s.otherHalf b row) (lo + 31) lo v.toNat
        (¬ touches → nothing) ∧
        (touches → writerOf row.base = none →
          Ends (.registerWrite o a size v) s fun t =>
            t.rd b = row.apply (s.rd b) w ∧ (size = 4 → ∀ i, i < 64 → i / 32 ≠ lo / 32 → (t.rd b).getLsbD i = (s.rd b).getLsbD i) ∧
            s.OnlyRegs t [b]) ∧
        ∀ f i j, touches → writerOf row.base = some f → i < row.n1 → j < row.n2 → b = row.base + i * row.s1 + j * row.s2 →
          Ends (.registerWrite o a size v) s fun t => t = f o i j w s

/-! ### Firmware (17) -/

/-- BLOCK_STORE, CHAIN_FORWARD, FW_TRANSFER_TIMEOUT, ACTIVATION_PAUSE and RECOVERY_PIECE_SUBMIT (R448 to R459): a block that verifies is stored in the inactive bank and none else, a difference on read-back ends the transfer, and the last block completes it; each header or block goes on once; a
transfer without a block for 2^20 rings ends; a pause that succeeds raises the floor and never lowers it, one that fails leaves it; in recovery a header and its blocks are taken by halves and pieces with their results, and outside it nothing is. Without what a step waits for it does nothing. The outcomes of the cryptographic checks are operands (log entry 30). -/
def Obligations.FirmwareSteps : Prop :=
  ∀ s : State,
    (let ready := s.transferring = true ∧ s.token ≠ 0 ∧ s.flashOn = true
     (∀ tagOk flashOk, s.fw.complete = [] ∨ ¬ ready → Ends (.blockStore tagOk flashOk) s fun t => t = s) ∧
     ∀ n rec rest, s.fw.complete = (n, rec) :: rest → ready →
      (∀ ok, Ends (.blockStore false ok) s fun t => t = { s with fw := { s.fw with complete := rest } }) ∧
      Ends (.blockStore true false) s (fun t => t.fld FLASH_XFER_header_result = 9 ∧ t.fld FLASH_XFER_state = 5 ∧ t.fw.header = []) ∧
      (rec.length = recordBytes → n ≤ 931 →
        Ends (.blockStore true true) s fun t =>
          t.bytes (blockAt s.inactiveBank n) recordBytes = rec ∧ n ∈ t.fw.stored ∧ (∀ k, k ≠ n → (k ∈ t.fw.stored ↔ k ∈ s.fw.stored)) ∧
          t.fw.complete = rest ∧ t.fld FLASH_XFER_state = (if s.fld FLASH_XFER_blocks_total ≤ t.fw.stored.length then 3 else 2) ∧
          t.fuses = s.fuses ∧ t.knots = s.knots)) ∧
    (let ready := s.fw.nextNode ≠ 0xFFFF ∧ s.token ≠ 0 ∧ s.flashOn = true
     (s.fw.forward = [] ∨ ¬ ready → Ends .chainForward s fun t => t = s) ∧
     ∀ n rest, s.fw.forward = n :: rest → ready →
      Ends .chainForward s fun t =>
        t.fw = { s.fw with forward := rest } ∧ t.mem = s.mem ∧ s.SameRegsBut t [FLASH_XFER] ∧
        ∃ ps, t.ni.txq = s.ni.txq ++ ps ∧ ps.length = (if n = 0xFFFFFFFF then 2 else 17) ∧
          ∀ q ∈ ps, q.mgmt = true ∧ q.pkt.type = 10 ∧ q.pkt.dstNode = s.fw.nextNode ∧ q.pkt.opId = n ∧ q.sent = false) ∧
    (let late := s.transferring = true ∧ s.token ≠ 0 ∧ 2 ^ 20 ≤ s.fw.idleRings
     (¬ late → Ends .fwTransferTimeout s fun t => t = s) ∧
     (late →
      Ends .fwTransferTimeout s fun t => t.fld FLASH_XFER_state = 5 ∧ t.fw.header = [] ∧ t.fw.forward = [] ∧ t.fuses = s.fuses)) ∧
    (let due := s.powered = true ∧ s.hw.pausing = true ∧ s.fw.activate = true
     (∀ new old, ¬ due → Ends (.activationPause new old) s fun t => t = s) ∧
     (due →
      (∀ old, Ends (.activationPause true old) s fun t =>
        t.fld FLASH_XFER_state = 0 ∧ t.fw.activate = false ∧ t.flag FLASH_STATUS_phy_pending = true ∧
        t.fuses = { s.fuses with floor := max s.fuses.floor (min 63 (s.bankIdent s.inactiveBank).2) }) ∧
      ∀ old, Ends (.activationPause false old) s fun t =>
        t.fld FLASH_XFER_state = 6 ∧ t.fw.activate = false ∧ t.fuses = s.fuses ∧ (old = false → t.safeHold = true))) ∧
    ∀ (v : Word) chk tagOk,
      let kind := bitsOf v.toNat 30 29
      let n := bitsOf v.toNat 9 0
      let c := Instr.recoveryPieceSubmit v chk tagOk
      let recovers := s.flag FLASH_STATUS_recovery = true ∧ v.getLsbD 31 = true
      let places := s.fw.header ≠ [] ∧ n < bytesAt s.fw.header 20 4 ∧ tagOk = true
      (¬ recovers ∨ kind = 3 → Ends c s fun t => t = s) ∧
      (recovers → kind = 0 →
        Ends c s fun t =>
          t.fw = { s.fw with half := some (s.bytes recBufAt 4096) } ∧ t.fld FLASH_REC_CTRL_rec_result = 1 ∧
          s.SameRegsBut t [FLASH_REC_CTRL] ∧ t = { s with regs := t.regs, fw := t.fw }) ∧
      (recovers → kind = 1 → s.fw.half = none →
        Ends c s fun t => t.fld FLASH_REC_CTRL_rec_result = 2 ∧ s.OnlyRegs t [FLASH_REC_CTRL]) ∧
      (∀ a, recovers → kind = 1 → s.fw.half = some a →
        let h := a ++ s.bytes recBufAt 4096
        let x := headerResult h s.fuses.floor chk
        (x ≠ 0 →
          Ends c s fun t =>
            t.fw = { s.fw with half := none } ∧ t.fld FLASH_REC_CTRL_rec_result = x ∧
            t.fld FLASH_REC_CTRL_rec_state = (if x = 9 then 5 else s.fld FLASH_REC_CTRL_rec_state) ∧
            s.SameRegsBut t [FLASH_REC_CTRL] ∧ t = { s with regs := t.regs, fw := t.fw }) ∧
        (x = 0 →
          Ends c s fun t =>
            t.fw.header = h ∧ t.fw.half = none ∧ t.fw.stored = [] ∧ t.fld FLASH_REC_CTRL_rec_result = 0 ∧
            t.fld FLASH_REC_CTRL_rec_state = 2 ∧ t.fld FLASH_REC_CTRL_rec_stored = 0 ∧ t.fuses = s.fuses)) ∧
      (recovers → kind = 2 → ¬ places → Ends c s fun t => t = s) ∧
      (recovers → kind = 2 → places → chk.flashOk = false →
        Ends c s fun t =>
          t.fld FLASH_REC_CTRL_rec_result = 9 ∧ t.fld FLASH_REC_CTRL_rec_state = 5 ∧ s.OnlyRegs t [FLASH_REC_CTRL]) ∧
      (recovers → kind = 2 → places → chk.flashOk = true → n ≤ 931 →
        Ends c s fun t =>
          t.bytes (blockAt s.inactiveBank n) recordBytes = s.bytes recBufAt recordBytes ∧ n ∈ t.fw.stored ∧
          t.fld FLASH_REC_CTRL_rec_state = (if bytesAt s.fw.header 20 4 ≤ t.fw.stored.length then 4 else 3) ∧ t.fuses = s.fuses)

/-! ### Observability (18) -/

/-- FROST_PIN_EDGE, TRC_FROST_FREEZE_NEXT, TRC_FROST_RELEASE, SAMPLE_WRITE, HANG_WATCHDOG_EXPIRE, HANG_DUMP_DONE and LOCATE_EXPIRE (R467 to R471, R478, R480): a freeze or release waits for its boundary, with its source; a sample enters its ring or is
counted as lost; an expiry marks its stand and queue, starts its count anew and asks for a dump or joins the one just asked for; a written dump lies in its slot and is counted, and the next one begins; the locate light goes out. Without what they wait for they do nothing. -/
def Obligations.FrostSamplesAndDumps : Prop :=
  ∀ s : State,
    (let r := s.frostRing
     let taken := s.frozen = true ∨ s.fld TRC_FROST_at_ring = r ∨ ∃ e ∈ s.obs.freezeAt, e.1 = r
     let freezes (c : Instr) (source : Nat) (release : Bool) : Prop :=
       let due := if release then some r else s.obs.releaseAt
       (¬ taken →
          Ends c s fun t =>
            t.obs = { s.obs with freezeAt := s.obs.freezeAt ++ [(r, source)], releaseAt := due } ∧ t.flag TRC_FROST_pending = true ∧
            s.SameRegsBut t [TRC_FROST] ∧ t = { s with regs := t.regs, obs := t.obs }) ∧
       (taken →
          Ends c s fun t =>
            t.fld TRC_FROST_LOG_ignored = min 255 (s.fld TRC_FROST_LOG_ignored + 1) ∧ t.obs = { s.obs with releaseAt := due } ∧
            s.SameRegsBut t [TRC_FROST_LOG] ∧ t = { s with regs := t.regs, obs := t.obs })
     let pinLive := s.powered = true ∧ s.flag TRC_FROST_pin_en = true
     (pinLive → freezes .frostPinEdge 3 false) ∧ (¬ pinLive → Ends .frostPinEdge s fun t => t = s) ∧
     ∀ v : Word,
       (v.getLsbD 0 = true → freezes (.trcFrostFreezeNext v) 2 (v.getLsbD 1)) ∧
       (v.getLsbD 0 = false → Ends (.trcFrostFreezeNext v) s fun t => t = s) ∧
       (v.getLsbD 1 = true → v.getLsbD 0 = true → freezes (.trcFrostRelease v) 2 true) ∧
       (v.getLsbD 1 = true → v.getLsbD 0 = false →
         Ends (.trcFrostRelease v) s fun t => t = { s with obs := { s.obs with releaseAt := some r } }) ∧
       (v.getLsbD 1 = false → Ends (.trcFrostRelease v) s fun t => t = s)) ∧
    (∀ leaf counter,
      let waits := fun (x : Sample) => x.leaf == leaf && x.counter == counter && x.named.isSome
      (s.obs.samples.find? waits = none → Ends (.sampleWrite leaf counter) s fun t => t = s) ∧
      ∀ x, s.obs.samples.find? waits = some x →
        let r := (s.twigStand (x.leaf / 32)).getD 16
        let a := sampleCtl r
        let tail := bitsOf (s.rd a).toNat 21 16
        let drops := (tail + 1) % 64 = bitsOf (s.rd a).toNat 5 0 ∨ r < 16 ∧ s.liveFlag (STAND_CFG_read_perf r) = false
        (drops →
          Ends (.sampleWrite leaf counter) s fun t =>
            bitsOf (t.rd a).toNat 47 32 = min 65535 (bitsOf (s.rd a).toNat 47 32 + 1) ∧ bitsOf (t.rd a).toNat 21 16 = tail ∧
            t.obs.samples = s.obs.samples.erase x ∧ t.mem = s.mem ∧ s.SameRegsBut t [a]) ∧
        (¬ drops →
          Ends (.sampleWrite leaf counter) s fun t =>
            t.bytes (sampleAt r + 32 * tail) 32 = x.toBytes (s.obs.lostFlag.get false r) ∧ s.SameBytesBut t (sampleAt r + 32 * tail) 32 ∧
            bitsOf (t.rd a).toNat 21 16 = (tail + 1) % 64 ∧ t.obs.samples = s.obs.samples.erase x ∧ s.SameRegsBut t [a])) ∧
    (∀ st q,
      let expires := st < 16 ∧ q < 5 ∧ s.flag TRC_HANG_CFG_enable = true ∧ s.hangRings ≤ s.obs.hang.get 0 (5 * st + q)
      let last := s.obs.lastDump.get 0 st
      let recent := last ≠ 0 ∧ s.rings + 1 < last + s.hangRings
      let dump : Dump := { stand := st, cause := 0, time := (s.rd RING_TIME).toNat, mask := 1 <<< q }
      let join := fun (d : Dump) => if d.stand = st then { d with mask := d.mask ||| (1 <<< q) } else d
      (¬ expires → Ends (.hangWatchdogExpire st q) s fun t => t = s) ∧
      (expires →
        Ends (.hangWatchdogExpire st q) s fun t =>
          bitOf (t.fld TRC_HANG_STATUS_expired) st = true ∧ t.fld TRC_HANG_STATUS_last_stand = st ∧ t.fld TRC_HANG_STATUS_last_queue = q ∧
          t.obs.hang.get 0 (5 * st + q) = 0 ∧ s.MailboxesOnly t ∧ t.knots = s.knots ∧
          (recent → t.obs.dump = s.obs.dump.map join ∧ t.obs.dumpWait = s.obs.dumpWait.map join) ∧
          (¬ recent → t.obs.lastDump.get 0 st = s.rings + 1 ∧
            (s.flag HBM_RESERVE_valid = false → t.obs.dump = s.obs.dump ∧ t.obs.dumpWait = s.obs.dumpWait) ∧
            (s.flag HBM_RESERVE_valid = true → s.obs.dump ≠ none ∨ s.hwActs = false →
              t.obs.dump = s.obs.dump ∧ t.obs.dumpWait = s.obs.dumpWait ++ [dump]) ∧
            (s.flag HBM_RESERVE_valid = true → s.obs.dump = none → s.hwActs = true →
              t.obs.dump = some { (s.obs.dumpWait.headD dump) with first := s.ring, writer := s.token, slot := s.fld TRC_DUMP_STATUS_next_slot } ∧
              t.obs.dumpWait = (s.obs.dumpWait ++ [dump]).tail)))) ∧
    (let writes := s.hwActs = true ∧ s.flag HBM_RESERVE_valid = true
     (s.obs.dump = none ∨ ¬ writes → Ends .hangDumpDone s fun t => t = s) ∧
     ∀ d, s.obs.dump = some d → writes →
      Ends .hangDumpDone s fun t =>
        t.fld TRC_DUMP_STATUS_written = min TRC_DUMP_STATUS_written.max (s.fld TRC_DUMP_STATUS_written + 1) ∧ t.knots = s.knots ∧
        (d.slot < 16 →
          t.bytes (s.fld HBM_RESERVE_granule * 2 ^ 30 + d.slot * 0x4000000) 0x4000000 = s.dumpBytes d) ∧
        (s.obs.dumpWait = [] → t.obs.dump = none ∧ t.flag TRC_DUMP_STATUS_in_progress = false) ∧
        ∀ e rest, s.obs.dumpWait = e :: rest →
          t.obs.dump = some { e with first := s.ring, writer := s.token, slot := s.fld TRC_DUMP_STATUS_next_slot } ∧
          t.obs.dumpWait = rest ∧ t.flag TRC_DUMP_STATUS_in_progress = true) ∧
    (s.pins.led ≠ 0 ∧ s.pins.ledLeft ≠ 0 →
      Ends .locateExpire s fun t => t = { s with pins := { s.pins with led := 0, ledLeft := 0 } }) ∧
    (s.pins.led = 0 ∨ s.pins.ledLeft = 0 → Ends .locateExpire s fun t => t = s)

/-! ### Every opcode (12, 13) -/

/-- Every other opcode (R346, R359, R361, R362): with no request of its code next to be served it does nothing; a request with a reserved byte that is not 0, of a stand that there is not, or of one that has a request in hand is only answered. -/
def Obligations.OpcodesAreServedInTurn : Prop :=
  ∀ (s : State) (unwraps : Bool) (chk : HeaderCheck) (x : OpcodeRow), x ∈ opcodeRows unwraps chk →
    (s.serving? x.op = none → Ends x.cmd s fun t => t = s) ∧
    ∀ r, s.serving? x.op = some r → r.mbx < 18 →
      let check := (s.takeReq r).commonCheck r x.size x.reserved x.needStand x.serial
      (r.clean x.size x.reserved = false → check = some { status := 4 }) ∧
      (x.needStand = true → 16 ≤ r.stand → check = some { status := 4 }) ∧
      ∀ y, check = some y → Ends x.cmd s fun t => s.OnlyAnswers t r y
end

