-- ==== Sys2Proof/Laws/Sparse.lean ====
section
/-! SUPPORT. The laws of the sparse tables: a key reads what was set there and every other key what it held, in every table;
and every operation keeps the canonical form. -/

namespace Sys2Proof.Machine

variable {α : Type}

/-! ### Reading after writing -/

theorem SMap.get_of_absent (d : α) (m : SMap α) (a : Nat) (h : ∀ e ∈ m, e.1 ≠ a) : m.get d a = d := by
  induction m with
  | nil => rfl
  | cons e m ih =>
    have he : ¬ a = e.1 := fun q => h e (List.mem_cons_self ..) q.symm
    have hm := ih fun x hx => h x (List.mem_cons_of_mem _ hx)
    simp [SMap.get, he, hm]

/-- Keeping only the keys `q` admits leaves their values and returns the others to `d`. -/
theorem SMap.get_filter (d : α) (q : Nat → Bool) (m : SMap α) (b : Nat) :
    SMap.get d (m.filter fun e => q e.1) b = if q b then m.get d b else d := by
  induction m with
  | nil => simp [SMap.get]
  | cons e m ih =>
    rw [List.filter_cons]
    by_cases hb : b = e.1
    · subst hb
      by_cases hq : q e.1 = true <;> simp_all [SMap.get]
    · by_cases hq : q e.1 = true <;> simp_all [SMap.get]

theorem SMap.absent_erase (m : SMap α) (a : Nat) : ∀ e ∈ SMap.erase m a, e.1 ≠ a := by
  intro e he
  simpa [SMap.erase] using (List.mem_filter.mp he).2

theorem SMap.get_erase_ne (d : α) (m : SMap α) {a b : Nat} (h : b ≠ a) : (SMap.erase m a).get d b = m.get d b := by
  have := SMap.get_filter d (fun k => decide (k ≠ a)) m b
  simpa [SMap.erase, h] using this

theorem SMap.get_insert_self (d : α) (m : SMap α) (a : Nat) (v : α) (h : ∀ e ∈ m, e.1 ≠ a) :
    (SMap.insert a v m).get d a = v := by
  induction m with
  | nil => simp [SMap.insert, SMap.get]
  | cons e m ih =>
    have he : ¬ a = e.1 := fun q => h e (List.mem_cons_self ..) q.symm
    have hm := ih fun x hx => h x (List.mem_cons_of_mem _ hx)
    by_cases hk : a < e.1 <;> simp [SMap.insert, hk, SMap.get, he, hm]

theorem SMap.get_insert_ne (d : α) (m : SMap α) {a b : Nat} (v : α) (h : b ≠ a) :
    (SMap.insert a v m).get d b = m.get d b := by
  induction m with
  | nil => simp [SMap.insert, SMap.get, h]
  | cons e m ih =>
    obtain ⟨k, w⟩ := e
    unfold SMap.insert
    split <;> simp [SMap.get, h, ih]

theorem SMap.get_set_self [DecidableEq α] (d : α) (m : SMap α) (a : Nat) (v : α) : (SMap.set d m a v).get d a = v := by
  unfold SMap.set
  split
  · next h => rw [SMap.get_of_absent d _ a (SMap.absent_erase m a), h]
  · exact SMap.get_insert_self d _ a v (SMap.absent_erase m a)

theorem SMap.get_set_ne [DecidableEq α] (d e : α) (m : SMap α) {a b : Nat} (v : α) (h : b ≠ a) :
    (SMap.set d m a v).get e b = m.get e b := by
  unfold SMap.set
  split
  · exact SMap.get_erase_ne e m h
  · rw [SMap.get_insert_ne e _ v h, SMap.get_erase_ne e m h]

theorem SMap.get_set [DecidableEq α] (d : α) (m : SMap α) (a b : Nat) (v : α) :
    (SMap.set d m a v).get d b = if b = a then v else m.get d b := by
  split
  · next h => rw [h, SMap.get_set_self]
  · next h => exact SMap.get_set_ne d d m v h

theorem SMap.get_modify [DecidableEq α] (d : α) (m : SMap α) (a b : Nat) (f : α → α) :
    (SMap.modify d m a f).get d b = if b = a then f (m.get d a) else m.get d b := SMap.get_set d m a b _

theorem SMap.get_clear (d : α) (m : SMap α) (lo hi a : Nat) :
    (SMap.clear m lo hi).get d a = if lo ≤ a ∧ a < hi then d else m.get d a := by
  have := SMap.get_filter d (fun k => decide (k < lo) || decide (hi ≤ k)) m a
  unfold SMap.clear
  rw [this]
  by_cases h : lo ≤ a ∧ a < hi
  · have : ¬ (a < lo ∨ hi ≤ a) := by omega
    simp [h, this]
  · have : a < lo ∨ hi ≤ a := by omega
    simp [h, this]

/-! ### The canonical form -/

/-- A table whose keys all lie above `a`. -/
def SMap.above (a : Nat) (m : SMap α) : Prop := ∀ e ∈ m, a < e.1

theorem SMap.sorted_cons {a : Nat} {v : α} {m : SMap α} :
    SMap.sorted ((a, v) :: m) = true ↔ SMap.above a m ∧ SMap.sorted m = true := by
  induction m generalizing a v with
  | nil => simp [SMap.sorted, SMap.above]
  | cons e m ih =>
    obtain ⟨k, w⟩ := e
    have hk := @ih k w
    simp only [SMap.sorted, Bool.and_eq_true, decide_eq_true_eq, hk, SMap.above, List.mem_cons, forall_eq_or_imp]
    constructor
    · rintro ⟨h1, h2, h3⟩
      exact ⟨⟨h1, fun e he => Nat.lt_trans h1 (h2 e he)⟩, h2, h3⟩
    · rintro ⟨⟨h1, _⟩, h2, h3⟩
      exact ⟨h1, h2, h3⟩

theorem SMap.sorted_filter (p : Nat × α → Bool) (m : SMap α) (h : SMap.sorted m = true) : SMap.sorted (m.filter p) = true := by
  induction m with
  | nil => rfl
  | cons e m ih =>
    obtain ⟨k, w⟩ := e
    obtain ⟨ha, hs⟩ := SMap.sorted_cons.mp h
    by_cases hp : p (k, w) = true
    · rw [List.filter_cons_of_pos hp]
      exact SMap.sorted_cons.mpr ⟨fun x hx => ha x (List.mem_filter.mp hx).1, ih hs⟩
    · rw [List.filter_cons_of_neg hp]
      exact ih hs

theorem SMap.mem_insert {a : Nat} {v : α} {m : SMap α} {e : Nat × α} (h : e ∈ SMap.insert a v m) : e = (a, v) ∨ e ∈ m := by
  induction m with
  | nil => simpa [SMap.insert] using h
  | cons x m ih =>
    by_cases hk : a < x.1
    · simpa [SMap.insert, hk] using h
    · rw [SMap.insert, if_neg hk] at h
      rcases List.mem_cons.mp h with h | h
      · exact .inr (h ▸ List.mem_cons_self ..)
      · exact (ih h).imp id (List.mem_cons_of_mem _)

theorem SMap.sorted_insert (a : Nat) (v : α) (m : SMap α) (hs : SMap.sorted m = true) (ha : ∀ e ∈ m, e.1 ≠ a) :
    SMap.sorted (SMap.insert a v m) = true := by
  induction m with
  | nil => rfl
  | cons e m ih =>
    obtain ⟨k, w⟩ := e
    obtain ⟨hk, hm⟩ := SMap.sorted_cons.mp hs
    by_cases h : a < k
    · rw [SMap.insert, if_pos h]
      refine SMap.sorted_cons.mpr ⟨?_, hs⟩
      intro x hx
      rcases List.mem_cons.mp hx with rfl | hx
      · exact h
      · exact Nat.lt_trans h (hk x hx)
    · rw [SMap.insert, if_neg h]
      refine SMap.sorted_cons.mpr ⟨?_, ih hm fun x hx => ha x (List.mem_cons_of_mem _ hx)⟩
      intro x hx
      have hka : k ≠ a := ha (k, w) (List.mem_cons_self ..)
      rcases SMap.mem_insert hx with rfl | hx
      · show k < a; omega
      · exact hk x hx

variable [DecidableEq α]

theorem SMap.wf_iff (d : Nat → α) (m : SMap α) : SMap.wf d m = true ↔ SMap.sorted m = true ∧ ∀ e ∈ m, e.2 ≠ d e.1 := by
  simp [SMap.wf]

theorem SMap.wf_filter (d : Nat → α) (p : Nat × α → Bool) (m : SMap α) (h : SMap.wf d m = true) : SMap.wf d (m.filter p) = true := by
  rw [SMap.wf_iff] at *
  exact ⟨SMap.sorted_filter p m h.1, fun e he => h.2 e (List.mem_filter.mp he).1⟩

theorem SMap.wf_set (d : Nat → α) (m : SMap α) (a : Nat) (v : α) (h : SMap.wf d m = true) :
    SMap.wf d (SMap.set (d a) m a v) = true := by
  have he := SMap.wf_filter d (fun e => decide (e.1 ≠ a)) m h
  unfold SMap.set
  split
  · exact he
  · next hv =>
    rw [SMap.wf_iff] at *
    refine ⟨SMap.sorted_insert a v _ he.1 (SMap.absent_erase m a), fun e hx => ?_⟩
    rcases SMap.mem_insert hx with rfl | hx
    · exact hv
    · exact he.2 e hx

theorem SMap.wf_clear (d : Nat → α) (m : SMap α) (lo hi : Nat) (h : SMap.wf d m = true) : SMap.wf d (SMap.clear m lo hi) = true :=
  SMap.wf_filter d _ m h

end Sys2Proof.Machine
end

