-- ==== Sys2Proof/Laws/State.lean ====
section
/-! SUPPORT. One lemma per field of the state and update of it, each true by rfl, so that no proof unfolds a record update;
then what each update does to registers and values in force. -/

namespace Sys2Proof.Machine

variable (s : State)

/-! ### wr -/

@[simp] theorem State.wr_live (a : Nat) (w : Word) : (s.wr a w).live = s.live := rfl
@[simp] theorem State.wr_mem (a : Nat) (w : Word) : (s.wr a w).mem = s.mem := rfl
@[simp] theorem State.wr_lines (a : Nat) (w : Word) : (s.wr a w).lines = s.lines := rfl
@[simp] theorem State.wr_leaves (a : Nat) (w : Word) : (s.wr a w).leaves = s.leaves := rfl
@[simp] theorem State.wr_remap (a : Nat) (w : Word) : (s.wr a w).remap = s.remap := rfl
@[simp] theorem State.wr_restore (a : Nat) (w : Word) : (s.wr a w).restore = s.restore := rfl
@[simp] theorem State.wr_leafRst (a : Nat) (w : Word) : (s.wr a w).leafRst = s.leafRst := rfl
@[simp] theorem State.wr_bells (a : Nat) (w : Word) : (s.wr a w).bells = s.bells := rfl
@[simp] theorem State.wr_fetched (a : Nat) (w : Word) : (s.wr a w).fetched = s.fetched := rfl
@[simp] theorem State.wr_fence (a : Nat) (w : Word) : (s.wr a w).fence = s.fence := rfl
@[simp] theorem State.wr_cmds (a : Nat) (w : Word) : (s.wr a w).cmds = s.cmds := rfl
@[simp] theorem State.wr_knots (a : Nat) (w : Word) : (s.wr a w).knots = s.knots := rfl
@[simp] theorem State.wr_mirrors (a : Nat) (w : Word) : (s.wr a w).mirrors = s.mirrors := rfl
@[simp] theorem State.wr_mirrorLog (a : Nat) (w : Word) : (s.wr a w).mirrorLog = s.mirrorLog := rfl
@[simp] theorem State.wr_granules (a : Nat) (w : Word) : (s.wr a w).granules = s.granules := rfl
@[simp] theorem State.wr_kops (a : Nat) (w : Word) : (s.wr a w).kops = s.kops := rfl
@[simp] theorem State.wr_fires (a : Nat) (w : Word) : (s.wr a w).fires = s.fires := rfl
@[simp] theorem State.wr_ni (a : Nat) (w : Word) : (s.wr a w).ni = s.ni := rfl
@[simp] theorem State.wr_coll (a : Nat) (w : Word) : (s.wr a w).coll = s.coll := rfl
@[simp] theorem State.wr_limbs (a : Nat) (w : Word) : (s.wr a w).limbs = s.limbs := rfl
@[simp] theorem State.wr_stands (a : Nat) (w : Word) : (s.wr a w).stands = s.stands := rfl
@[simp] theorem State.wr_hbm (a : Nat) (w : Word) : (s.wr a w).hbm = s.hbm := rfl
@[simp] theorem State.wr_keys (a : Nat) (w : Word) : (s.wr a w).keys = s.keys := rfl
@[simp] theorem State.wr_clk (a : Nat) (w : Word) : (s.wr a w).clk = s.clk := rfl
@[simp] theorem State.wr_pwr (a : Nat) (w : Word) : (s.wr a w).pwr = s.pwr := rfl
@[simp] theorem State.wr_boot (a : Nat) (w : Word) : (s.wr a w).boot = s.boot := rfl
@[simp] theorem State.wr_hw (a : Nat) (w : Word) : (s.wr a w).hw = s.hw := rfl
@[simp] theorem State.wr_fw (a : Nat) (w : Word) : (s.wr a w).fw = s.fw := rfl
@[simp] theorem State.wr_obs (a : Nat) (w : Word) : (s.wr a w).obs = s.obs := rfl
@[simp] theorem State.wr_pcie (a : Nat) (w : Word) : (s.wr a w).pcie = s.pcie := rfl
@[simp] theorem State.wr_i3c (a : Nat) (w : Word) : (s.wr a w).i3c = s.i3c := rfl
@[simp] theorem State.wr_pins (a : Nat) (w : Word) : (s.wr a w).pins = s.pins := rfl
@[simp] theorem State.wr_fuses (a : Nat) (w : Word) : (s.wr a w).fuses = s.fuses := rfl
@[simp] theorem State.wr_out (a : Nat) (w : Word) : (s.wr a w).out = s.out := rfl
@[simp] theorem State.wr_free (a : Nat) (w : Word) : (s.wr a w).free = s.free := rfl
@[simp] theorem State.wr_pending (a : Nat) (w : Word) : (s.wr a w).pending = s.pending := rfl

/-! ### setLive -/

@[simp] theorem State.setLive_regs (a : Nat) (w : Word) : (s.setLive a w).regs = s.regs := rfl
@[simp] theorem State.setLive_mem (a : Nat) (w : Word) : (s.setLive a w).mem = s.mem := rfl
@[simp] theorem State.setLive_lines (a : Nat) (w : Word) : (s.setLive a w).lines = s.lines := rfl
@[simp] theorem State.setLive_leaves (a : Nat) (w : Word) : (s.setLive a w).leaves = s.leaves := rfl
@[simp] theorem State.setLive_remap (a : Nat) (w : Word) : (s.setLive a w).remap = s.remap := rfl
@[simp] theorem State.setLive_restore (a : Nat) (w : Word) : (s.setLive a w).restore = s.restore := rfl
@[simp] theorem State.setLive_leafRst (a : Nat) (w : Word) : (s.setLive a w).leafRst = s.leafRst := rfl
@[simp] theorem State.setLive_bells (a : Nat) (w : Word) : (s.setLive a w).bells = s.bells := rfl
@[simp] theorem State.setLive_fetched (a : Nat) (w : Word) : (s.setLive a w).fetched = s.fetched := rfl
@[simp] theorem State.setLive_fence (a : Nat) (w : Word) : (s.setLive a w).fence = s.fence := rfl
@[simp] theorem State.setLive_cmds (a : Nat) (w : Word) : (s.setLive a w).cmds = s.cmds := rfl
@[simp] theorem State.setLive_knots (a : Nat) (w : Word) : (s.setLive a w).knots = s.knots := rfl
@[simp] theorem State.setLive_mirrors (a : Nat) (w : Word) : (s.setLive a w).mirrors = s.mirrors := rfl
@[simp] theorem State.setLive_mirrorLog (a : Nat) (w : Word) : (s.setLive a w).mirrorLog = s.mirrorLog := rfl
@[simp] theorem State.setLive_granules (a : Nat) (w : Word) : (s.setLive a w).granules = s.granules := rfl
@[simp] theorem State.setLive_kops (a : Nat) (w : Word) : (s.setLive a w).kops = s.kops := rfl
@[simp] theorem State.setLive_fires (a : Nat) (w : Word) : (s.setLive a w).fires = s.fires := rfl
@[simp] theorem State.setLive_ni (a : Nat) (w : Word) : (s.setLive a w).ni = s.ni := rfl
@[simp] theorem State.setLive_coll (a : Nat) (w : Word) : (s.setLive a w).coll = s.coll := rfl
@[simp] theorem State.setLive_limbs (a : Nat) (w : Word) : (s.setLive a w).limbs = s.limbs := rfl
@[simp] theorem State.setLive_stands (a : Nat) (w : Word) : (s.setLive a w).stands = s.stands := rfl
@[simp] theorem State.setLive_hbm (a : Nat) (w : Word) : (s.setLive a w).hbm = s.hbm := rfl
@[simp] theorem State.setLive_keys (a : Nat) (w : Word) : (s.setLive a w).keys = s.keys := rfl
@[simp] theorem State.setLive_clk (a : Nat) (w : Word) : (s.setLive a w).clk = s.clk := rfl
@[simp] theorem State.setLive_pwr (a : Nat) (w : Word) : (s.setLive a w).pwr = s.pwr := rfl
@[simp] theorem State.setLive_boot (a : Nat) (w : Word) : (s.setLive a w).boot = s.boot := rfl
@[simp] theorem State.setLive_hw (a : Nat) (w : Word) : (s.setLive a w).hw = s.hw := rfl
@[simp] theorem State.setLive_fw (a : Nat) (w : Word) : (s.setLive a w).fw = s.fw := rfl
@[simp] theorem State.setLive_obs (a : Nat) (w : Word) : (s.setLive a w).obs = s.obs := rfl
@[simp] theorem State.setLive_pcie (a : Nat) (w : Word) : (s.setLive a w).pcie = s.pcie := rfl
@[simp] theorem State.setLive_i3c (a : Nat) (w : Word) : (s.setLive a w).i3c = s.i3c := rfl
@[simp] theorem State.setLive_pins (a : Nat) (w : Word) : (s.setLive a w).pins = s.pins := rfl
@[simp] theorem State.setLive_fuses (a : Nat) (w : Word) : (s.setLive a w).fuses = s.fuses := rfl
@[simp] theorem State.setLive_out (a : Nat) (w : Word) : (s.setLive a w).out = s.out := rfl
@[simp] theorem State.setLive_free (a : Nat) (w : Word) : (s.setLive a w).free = s.free := rfl
@[simp] theorem State.setLive_pending (a : Nat) (w : Word) : (s.setLive a w).pending = s.pending := rfl

/-! ### setFld -/

@[simp] theorem State.setFld_live (f : Fld) (v : Nat) : (s.setFld f v).live = s.live := rfl
@[simp] theorem State.setFld_mem (f : Fld) (v : Nat) : (s.setFld f v).mem = s.mem := rfl
@[simp] theorem State.setFld_lines (f : Fld) (v : Nat) : (s.setFld f v).lines = s.lines := rfl
@[simp] theorem State.setFld_leaves (f : Fld) (v : Nat) : (s.setFld f v).leaves = s.leaves := rfl
@[simp] theorem State.setFld_remap (f : Fld) (v : Nat) : (s.setFld f v).remap = s.remap := rfl
@[simp] theorem State.setFld_restore (f : Fld) (v : Nat) : (s.setFld f v).restore = s.restore := rfl
@[simp] theorem State.setFld_leafRst (f : Fld) (v : Nat) : (s.setFld f v).leafRst = s.leafRst := rfl
@[simp] theorem State.setFld_bells (f : Fld) (v : Nat) : (s.setFld f v).bells = s.bells := rfl
@[simp] theorem State.setFld_fetched (f : Fld) (v : Nat) : (s.setFld f v).fetched = s.fetched := rfl
@[simp] theorem State.setFld_fence (f : Fld) (v : Nat) : (s.setFld f v).fence = s.fence := rfl
@[simp] theorem State.setFld_cmds (f : Fld) (v : Nat) : (s.setFld f v).cmds = s.cmds := rfl
@[simp] theorem State.setFld_knots (f : Fld) (v : Nat) : (s.setFld f v).knots = s.knots := rfl
@[simp] theorem State.setFld_mirrors (f : Fld) (v : Nat) : (s.setFld f v).mirrors = s.mirrors := rfl
@[simp] theorem State.setFld_mirrorLog (f : Fld) (v : Nat) : (s.setFld f v).mirrorLog = s.mirrorLog := rfl
@[simp] theorem State.setFld_granules (f : Fld) (v : Nat) : (s.setFld f v).granules = s.granules := rfl
@[simp] theorem State.setFld_kops (f : Fld) (v : Nat) : (s.setFld f v).kops = s.kops := rfl
@[simp] theorem State.setFld_fires (f : Fld) (v : Nat) : (s.setFld f v).fires = s.fires := rfl
@[simp] theorem State.setFld_ni (f : Fld) (v : Nat) : (s.setFld f v).ni = s.ni := rfl
@[simp] theorem State.setFld_coll (f : Fld) (v : Nat) : (s.setFld f v).coll = s.coll := rfl
@[simp] theorem State.setFld_limbs (f : Fld) (v : Nat) : (s.setFld f v).limbs = s.limbs := rfl
@[simp] theorem State.setFld_stands (f : Fld) (v : Nat) : (s.setFld f v).stands = s.stands := rfl
@[simp] theorem State.setFld_hbm (f : Fld) (v : Nat) : (s.setFld f v).hbm = s.hbm := rfl
@[simp] theorem State.setFld_keys (f : Fld) (v : Nat) : (s.setFld f v).keys = s.keys := rfl
@[simp] theorem State.setFld_clk (f : Fld) (v : Nat) : (s.setFld f v).clk = s.clk := rfl
@[simp] theorem State.setFld_pwr (f : Fld) (v : Nat) : (s.setFld f v).pwr = s.pwr := rfl
@[simp] theorem State.setFld_boot (f : Fld) (v : Nat) : (s.setFld f v).boot = s.boot := rfl
@[simp] theorem State.setFld_hw (f : Fld) (v : Nat) : (s.setFld f v).hw = s.hw := rfl
@[simp] theorem State.setFld_fw (f : Fld) (v : Nat) : (s.setFld f v).fw = s.fw := rfl
@[simp] theorem State.setFld_obs (f : Fld) (v : Nat) : (s.setFld f v).obs = s.obs := rfl
@[simp] theorem State.setFld_pcie (f : Fld) (v : Nat) : (s.setFld f v).pcie = s.pcie := rfl
@[simp] theorem State.setFld_i3c (f : Fld) (v : Nat) : (s.setFld f v).i3c = s.i3c := rfl
@[simp] theorem State.setFld_pins (f : Fld) (v : Nat) : (s.setFld f v).pins = s.pins := rfl
@[simp] theorem State.setFld_fuses (f : Fld) (v : Nat) : (s.setFld f v).fuses = s.fuses := rfl
@[simp] theorem State.setFld_out (f : Fld) (v : Nat) : (s.setFld f v).out = s.out := rfl
@[simp] theorem State.setFld_free (f : Fld) (v : Nat) : (s.setFld f v).free = s.free := rfl
@[simp] theorem State.setFld_pending (f : Fld) (v : Nat) : (s.setFld f v).pending = s.pending := rfl

/-! ### setFlag -/

@[simp] theorem State.setFlag_live (f : Fld) (b : Bool) : (s.setFlag f b).live = s.live := rfl
@[simp] theorem State.setFlag_mem (f : Fld) (b : Bool) : (s.setFlag f b).mem = s.mem := rfl
@[simp] theorem State.setFlag_lines (f : Fld) (b : Bool) : (s.setFlag f b).lines = s.lines := rfl
@[simp] theorem State.setFlag_leaves (f : Fld) (b : Bool) : (s.setFlag f b).leaves = s.leaves := rfl
@[simp] theorem State.setFlag_remap (f : Fld) (b : Bool) : (s.setFlag f b).remap = s.remap := rfl
@[simp] theorem State.setFlag_restore (f : Fld) (b : Bool) : (s.setFlag f b).restore = s.restore := rfl
@[simp] theorem State.setFlag_leafRst (f : Fld) (b : Bool) : (s.setFlag f b).leafRst = s.leafRst := rfl
@[simp] theorem State.setFlag_bells (f : Fld) (b : Bool) : (s.setFlag f b).bells = s.bells := rfl
@[simp] theorem State.setFlag_fetched (f : Fld) (b : Bool) : (s.setFlag f b).fetched = s.fetched := rfl
@[simp] theorem State.setFlag_fence (f : Fld) (b : Bool) : (s.setFlag f b).fence = s.fence := rfl
@[simp] theorem State.setFlag_cmds (f : Fld) (b : Bool) : (s.setFlag f b).cmds = s.cmds := rfl
@[simp] theorem State.setFlag_knots (f : Fld) (b : Bool) : (s.setFlag f b).knots = s.knots := rfl
@[simp] theorem State.setFlag_mirrors (f : Fld) (b : Bool) : (s.setFlag f b).mirrors = s.mirrors := rfl
@[simp] theorem State.setFlag_mirrorLog (f : Fld) (b : Bool) : (s.setFlag f b).mirrorLog = s.mirrorLog := rfl
@[simp] theorem State.setFlag_granules (f : Fld) (b : Bool) : (s.setFlag f b).granules = s.granules := rfl
@[simp] theorem State.setFlag_kops (f : Fld) (b : Bool) : (s.setFlag f b).kops = s.kops := rfl
@[simp] theorem State.setFlag_fires (f : Fld) (b : Bool) : (s.setFlag f b).fires = s.fires := rfl
@[simp] theorem State.setFlag_ni (f : Fld) (b : Bool) : (s.setFlag f b).ni = s.ni := rfl
@[simp] theorem State.setFlag_coll (f : Fld) (b : Bool) : (s.setFlag f b).coll = s.coll := rfl
@[simp] theorem State.setFlag_limbs (f : Fld) (b : Bool) : (s.setFlag f b).limbs = s.limbs := rfl
@[simp] theorem State.setFlag_stands (f : Fld) (b : Bool) : (s.setFlag f b).stands = s.stands := rfl
@[simp] theorem State.setFlag_hbm (f : Fld) (b : Bool) : (s.setFlag f b).hbm = s.hbm := rfl
@[simp] theorem State.setFlag_keys (f : Fld) (b : Bool) : (s.setFlag f b).keys = s.keys := rfl
@[simp] theorem State.setFlag_clk (f : Fld) (b : Bool) : (s.setFlag f b).clk = s.clk := rfl
@[simp] theorem State.setFlag_pwr (f : Fld) (b : Bool) : (s.setFlag f b).pwr = s.pwr := rfl
@[simp] theorem State.setFlag_boot (f : Fld) (b : Bool) : (s.setFlag f b).boot = s.boot := rfl
@[simp] theorem State.setFlag_hw (f : Fld) (b : Bool) : (s.setFlag f b).hw = s.hw := rfl
@[simp] theorem State.setFlag_fw (f : Fld) (b : Bool) : (s.setFlag f b).fw = s.fw := rfl
@[simp] theorem State.setFlag_obs (f : Fld) (b : Bool) : (s.setFlag f b).obs = s.obs := rfl
@[simp] theorem State.setFlag_pcie (f : Fld) (b : Bool) : (s.setFlag f b).pcie = s.pcie := rfl
@[simp] theorem State.setFlag_i3c (f : Fld) (b : Bool) : (s.setFlag f b).i3c = s.i3c := rfl
@[simp] theorem State.setFlag_pins (f : Fld) (b : Bool) : (s.setFlag f b).pins = s.pins := rfl
@[simp] theorem State.setFlag_fuses (f : Fld) (b : Bool) : (s.setFlag f b).fuses = s.fuses := rfl
@[simp] theorem State.setFlag_out (f : Fld) (b : Bool) : (s.setFlag f b).out = s.out := rfl
@[simp] theorem State.setFlag_free (f : Fld) (b : Bool) : (s.setFlag f b).free = s.free := rfl
@[simp] theorem State.setFlag_pending (f : Fld) (b : Bool) : (s.setFlag f b).pending = s.pending := rfl

/-! ### count -/

@[simp] theorem State.count_live (f : Fld) (n : Nat) : (s.count f n).live = s.live := rfl
@[simp] theorem State.count_mem (f : Fld) (n : Nat) : (s.count f n).mem = s.mem := rfl
@[simp] theorem State.count_lines (f : Fld) (n : Nat) : (s.count f n).lines = s.lines := rfl
@[simp] theorem State.count_leaves (f : Fld) (n : Nat) : (s.count f n).leaves = s.leaves := rfl
@[simp] theorem State.count_remap (f : Fld) (n : Nat) : (s.count f n).remap = s.remap := rfl
@[simp] theorem State.count_restore (f : Fld) (n : Nat) : (s.count f n).restore = s.restore := rfl
@[simp] theorem State.count_leafRst (f : Fld) (n : Nat) : (s.count f n).leafRst = s.leafRst := rfl
@[simp] theorem State.count_bells (f : Fld) (n : Nat) : (s.count f n).bells = s.bells := rfl
@[simp] theorem State.count_fetched (f : Fld) (n : Nat) : (s.count f n).fetched = s.fetched := rfl
@[simp] theorem State.count_fence (f : Fld) (n : Nat) : (s.count f n).fence = s.fence := rfl
@[simp] theorem State.count_cmds (f : Fld) (n : Nat) : (s.count f n).cmds = s.cmds := rfl
@[simp] theorem State.count_knots (f : Fld) (n : Nat) : (s.count f n).knots = s.knots := rfl
@[simp] theorem State.count_mirrors (f : Fld) (n : Nat) : (s.count f n).mirrors = s.mirrors := rfl
@[simp] theorem State.count_mirrorLog (f : Fld) (n : Nat) : (s.count f n).mirrorLog = s.mirrorLog := rfl
@[simp] theorem State.count_granules (f : Fld) (n : Nat) : (s.count f n).granules = s.granules := rfl
@[simp] theorem State.count_kops (f : Fld) (n : Nat) : (s.count f n).kops = s.kops := rfl
@[simp] theorem State.count_fires (f : Fld) (n : Nat) : (s.count f n).fires = s.fires := rfl
@[simp] theorem State.count_ni (f : Fld) (n : Nat) : (s.count f n).ni = s.ni := rfl
@[simp] theorem State.count_coll (f : Fld) (n : Nat) : (s.count f n).coll = s.coll := rfl
@[simp] theorem State.count_limbs (f : Fld) (n : Nat) : (s.count f n).limbs = s.limbs := rfl
@[simp] theorem State.count_stands (f : Fld) (n : Nat) : (s.count f n).stands = s.stands := rfl
@[simp] theorem State.count_hbm (f : Fld) (n : Nat) : (s.count f n).hbm = s.hbm := rfl
@[simp] theorem State.count_keys (f : Fld) (n : Nat) : (s.count f n).keys = s.keys := rfl
@[simp] theorem State.count_clk (f : Fld) (n : Nat) : (s.count f n).clk = s.clk := rfl
@[simp] theorem State.count_pwr (f : Fld) (n : Nat) : (s.count f n).pwr = s.pwr := rfl
@[simp] theorem State.count_boot (f : Fld) (n : Nat) : (s.count f n).boot = s.boot := rfl
@[simp] theorem State.count_hw (f : Fld) (n : Nat) : (s.count f n).hw = s.hw := rfl
@[simp] theorem State.count_fw (f : Fld) (n : Nat) : (s.count f n).fw = s.fw := rfl
@[simp] theorem State.count_obs (f : Fld) (n : Nat) : (s.count f n).obs = s.obs := rfl
@[simp] theorem State.count_pcie (f : Fld) (n : Nat) : (s.count f n).pcie = s.pcie := rfl
@[simp] theorem State.count_i3c (f : Fld) (n : Nat) : (s.count f n).i3c = s.i3c := rfl
@[simp] theorem State.count_pins (f : Fld) (n : Nat) : (s.count f n).pins = s.pins := rfl
@[simp] theorem State.count_fuses (f : Fld) (n : Nat) : (s.count f n).fuses = s.fuses := rfl
@[simp] theorem State.count_out (f : Fld) (n : Nat) : (s.count f n).out = s.out := rfl
@[simp] theorem State.count_free (f : Fld) (n : Nat) : (s.count f n).free = s.free := rfl
@[simp] theorem State.count_pending (f : Fld) (n : Nat) : (s.count f n).pending = s.pending := rfl

/-! ### countWrap -/

@[simp] theorem State.countWrap_live (f : Fld) (n : Nat) : (s.countWrap f n).live = s.live := rfl
@[simp] theorem State.countWrap_mem (f : Fld) (n : Nat) : (s.countWrap f n).mem = s.mem := rfl
@[simp] theorem State.countWrap_lines (f : Fld) (n : Nat) : (s.countWrap f n).lines = s.lines := rfl
@[simp] theorem State.countWrap_leaves (f : Fld) (n : Nat) : (s.countWrap f n).leaves = s.leaves := rfl
@[simp] theorem State.countWrap_remap (f : Fld) (n : Nat) : (s.countWrap f n).remap = s.remap := rfl
@[simp] theorem State.countWrap_restore (f : Fld) (n : Nat) : (s.countWrap f n).restore = s.restore := rfl
@[simp] theorem State.countWrap_leafRst (f : Fld) (n : Nat) : (s.countWrap f n).leafRst = s.leafRst := rfl
@[simp] theorem State.countWrap_bells (f : Fld) (n : Nat) : (s.countWrap f n).bells = s.bells := rfl
@[simp] theorem State.countWrap_fetched (f : Fld) (n : Nat) : (s.countWrap f n).fetched = s.fetched := rfl
@[simp] theorem State.countWrap_fence (f : Fld) (n : Nat) : (s.countWrap f n).fence = s.fence := rfl
@[simp] theorem State.countWrap_cmds (f : Fld) (n : Nat) : (s.countWrap f n).cmds = s.cmds := rfl
@[simp] theorem State.countWrap_knots (f : Fld) (n : Nat) : (s.countWrap f n).knots = s.knots := rfl
@[simp] theorem State.countWrap_mirrors (f : Fld) (n : Nat) : (s.countWrap f n).mirrors = s.mirrors := rfl
@[simp] theorem State.countWrap_mirrorLog (f : Fld) (n : Nat) : (s.countWrap f n).mirrorLog = s.mirrorLog := rfl
@[simp] theorem State.countWrap_granules (f : Fld) (n : Nat) : (s.countWrap f n).granules = s.granules := rfl
@[simp] theorem State.countWrap_kops (f : Fld) (n : Nat) : (s.countWrap f n).kops = s.kops := rfl
@[simp] theorem State.countWrap_fires (f : Fld) (n : Nat) : (s.countWrap f n).fires = s.fires := rfl
@[simp] theorem State.countWrap_ni (f : Fld) (n : Nat) : (s.countWrap f n).ni = s.ni := rfl
@[simp] theorem State.countWrap_coll (f : Fld) (n : Nat) : (s.countWrap f n).coll = s.coll := rfl
@[simp] theorem State.countWrap_limbs (f : Fld) (n : Nat) : (s.countWrap f n).limbs = s.limbs := rfl
@[simp] theorem State.countWrap_stands (f : Fld) (n : Nat) : (s.countWrap f n).stands = s.stands := rfl
@[simp] theorem State.countWrap_hbm (f : Fld) (n : Nat) : (s.countWrap f n).hbm = s.hbm := rfl
@[simp] theorem State.countWrap_keys (f : Fld) (n : Nat) : (s.countWrap f n).keys = s.keys := rfl
@[simp] theorem State.countWrap_clk (f : Fld) (n : Nat) : (s.countWrap f n).clk = s.clk := rfl
@[simp] theorem State.countWrap_pwr (f : Fld) (n : Nat) : (s.countWrap f n).pwr = s.pwr := rfl
@[simp] theorem State.countWrap_boot (f : Fld) (n : Nat) : (s.countWrap f n).boot = s.boot := rfl
@[simp] theorem State.countWrap_hw (f : Fld) (n : Nat) : (s.countWrap f n).hw = s.hw := rfl
@[simp] theorem State.countWrap_fw (f : Fld) (n : Nat) : (s.countWrap f n).fw = s.fw := rfl
@[simp] theorem State.countWrap_obs (f : Fld) (n : Nat) : (s.countWrap f n).obs = s.obs := rfl
@[simp] theorem State.countWrap_pcie (f : Fld) (n : Nat) : (s.countWrap f n).pcie = s.pcie := rfl
@[simp] theorem State.countWrap_i3c (f : Fld) (n : Nat) : (s.countWrap f n).i3c = s.i3c := rfl
@[simp] theorem State.countWrap_pins (f : Fld) (n : Nat) : (s.countWrap f n).pins = s.pins := rfl
@[simp] theorem State.countWrap_fuses (f : Fld) (n : Nat) : (s.countWrap f n).fuses = s.fuses := rfl
@[simp] theorem State.countWrap_out (f : Fld) (n : Nat) : (s.countWrap f n).out = s.out := rfl
@[simp] theorem State.countWrap_free (f : Fld) (n : Nat) : (s.countWrap f n).free = s.free := rfl
@[simp] theorem State.countWrap_pending (f : Fld) (n : Nat) : (s.countWrap f n).pending = s.pending := rfl

/-! ### setBits -/

@[simp] theorem State.setBits_live (a m : Nat) : (s.setBits a m).live = s.live := rfl
@[simp] theorem State.setBits_mem (a m : Nat) : (s.setBits a m).mem = s.mem := rfl
@[simp] theorem State.setBits_lines (a m : Nat) : (s.setBits a m).lines = s.lines := rfl
@[simp] theorem State.setBits_leaves (a m : Nat) : (s.setBits a m).leaves = s.leaves := rfl
@[simp] theorem State.setBits_remap (a m : Nat) : (s.setBits a m).remap = s.remap := rfl
@[simp] theorem State.setBits_restore (a m : Nat) : (s.setBits a m).restore = s.restore := rfl
@[simp] theorem State.setBits_leafRst (a m : Nat) : (s.setBits a m).leafRst = s.leafRst := rfl
@[simp] theorem State.setBits_bells (a m : Nat) : (s.setBits a m).bells = s.bells := rfl
@[simp] theorem State.setBits_fetched (a m : Nat) : (s.setBits a m).fetched = s.fetched := rfl
@[simp] theorem State.setBits_fence (a m : Nat) : (s.setBits a m).fence = s.fence := rfl
@[simp] theorem State.setBits_cmds (a m : Nat) : (s.setBits a m).cmds = s.cmds := rfl
@[simp] theorem State.setBits_knots (a m : Nat) : (s.setBits a m).knots = s.knots := rfl
@[simp] theorem State.setBits_mirrors (a m : Nat) : (s.setBits a m).mirrors = s.mirrors := rfl
@[simp] theorem State.setBits_mirrorLog (a m : Nat) : (s.setBits a m).mirrorLog = s.mirrorLog := rfl
@[simp] theorem State.setBits_granules (a m : Nat) : (s.setBits a m).granules = s.granules := rfl
@[simp] theorem State.setBits_kops (a m : Nat) : (s.setBits a m).kops = s.kops := rfl
@[simp] theorem State.setBits_fires (a m : Nat) : (s.setBits a m).fires = s.fires := rfl
@[simp] theorem State.setBits_ni (a m : Nat) : (s.setBits a m).ni = s.ni := rfl
@[simp] theorem State.setBits_coll (a m : Nat) : (s.setBits a m).coll = s.coll := rfl
@[simp] theorem State.setBits_limbs (a m : Nat) : (s.setBits a m).limbs = s.limbs := rfl
@[simp] theorem State.setBits_stands (a m : Nat) : (s.setBits a m).stands = s.stands := rfl
@[simp] theorem State.setBits_hbm (a m : Nat) : (s.setBits a m).hbm = s.hbm := rfl
@[simp] theorem State.setBits_keys (a m : Nat) : (s.setBits a m).keys = s.keys := rfl
@[simp] theorem State.setBits_clk (a m : Nat) : (s.setBits a m).clk = s.clk := rfl
@[simp] theorem State.setBits_pwr (a m : Nat) : (s.setBits a m).pwr = s.pwr := rfl
@[simp] theorem State.setBits_boot (a m : Nat) : (s.setBits a m).boot = s.boot := rfl
@[simp] theorem State.setBits_hw (a m : Nat) : (s.setBits a m).hw = s.hw := rfl
@[simp] theorem State.setBits_fw (a m : Nat) : (s.setBits a m).fw = s.fw := rfl
@[simp] theorem State.setBits_obs (a m : Nat) : (s.setBits a m).obs = s.obs := rfl
@[simp] theorem State.setBits_pcie (a m : Nat) : (s.setBits a m).pcie = s.pcie := rfl
@[simp] theorem State.setBits_i3c (a m : Nat) : (s.setBits a m).i3c = s.i3c := rfl
@[simp] theorem State.setBits_pins (a m : Nat) : (s.setBits a m).pins = s.pins := rfl
@[simp] theorem State.setBits_fuses (a m : Nat) : (s.setBits a m).fuses = s.fuses := rfl
@[simp] theorem State.setBits_out (a m : Nat) : (s.setBits a m).out = s.out := rfl
@[simp] theorem State.setBits_free (a m : Nat) : (s.setBits a m).free = s.free := rfl
@[simp] theorem State.setBits_pending (a m : Nat) : (s.setBits a m).pending = s.pending := rfl

/-! ### store -/

@[simp] theorem State.store_regs (a : Nat) (bs : List Byte) : (s.store a bs).regs = s.regs := rfl
@[simp] theorem State.store_live (a : Nat) (bs : List Byte) : (s.store a bs).live = s.live := rfl
@[simp] theorem State.store_lines (a : Nat) (bs : List Byte) : (s.store a bs).lines = s.lines := rfl
@[simp] theorem State.store_leaves (a : Nat) (bs : List Byte) : (s.store a bs).leaves = s.leaves := rfl
@[simp] theorem State.store_remap (a : Nat) (bs : List Byte) : (s.store a bs).remap = s.remap := rfl
@[simp] theorem State.store_restore (a : Nat) (bs : List Byte) : (s.store a bs).restore = s.restore := rfl
@[simp] theorem State.store_leafRst (a : Nat) (bs : List Byte) : (s.store a bs).leafRst = s.leafRst := rfl
@[simp] theorem State.store_bells (a : Nat) (bs : List Byte) : (s.store a bs).bells = s.bells := rfl
@[simp] theorem State.store_fetched (a : Nat) (bs : List Byte) : (s.store a bs).fetched = s.fetched := rfl
@[simp] theorem State.store_fence (a : Nat) (bs : List Byte) : (s.store a bs).fence = s.fence := rfl
@[simp] theorem State.store_cmds (a : Nat) (bs : List Byte) : (s.store a bs).cmds = s.cmds := rfl
@[simp] theorem State.store_knots (a : Nat) (bs : List Byte) : (s.store a bs).knots = s.knots := rfl
@[simp] theorem State.store_mirrors (a : Nat) (bs : List Byte) : (s.store a bs).mirrors = s.mirrors := rfl
@[simp] theorem State.store_mirrorLog (a : Nat) (bs : List Byte) : (s.store a bs).mirrorLog = s.mirrorLog := rfl
@[simp] theorem State.store_granules (a : Nat) (bs : List Byte) : (s.store a bs).granules = s.granules := rfl
@[simp] theorem State.store_kops (a : Nat) (bs : List Byte) : (s.store a bs).kops = s.kops := rfl
@[simp] theorem State.store_fires (a : Nat) (bs : List Byte) : (s.store a bs).fires = s.fires := rfl
@[simp] theorem State.store_ni (a : Nat) (bs : List Byte) : (s.store a bs).ni = s.ni := rfl
@[simp] theorem State.store_coll (a : Nat) (bs : List Byte) : (s.store a bs).coll = s.coll := rfl
@[simp] theorem State.store_limbs (a : Nat) (bs : List Byte) : (s.store a bs).limbs = s.limbs := rfl
@[simp] theorem State.store_stands (a : Nat) (bs : List Byte) : (s.store a bs).stands = s.stands := rfl
@[simp] theorem State.store_hbm (a : Nat) (bs : List Byte) : (s.store a bs).hbm = s.hbm := rfl
@[simp] theorem State.store_keys (a : Nat) (bs : List Byte) : (s.store a bs).keys = s.keys := rfl
@[simp] theorem State.store_clk (a : Nat) (bs : List Byte) : (s.store a bs).clk = s.clk := rfl
@[simp] theorem State.store_pwr (a : Nat) (bs : List Byte) : (s.store a bs).pwr = s.pwr := rfl
@[simp] theorem State.store_boot (a : Nat) (bs : List Byte) : (s.store a bs).boot = s.boot := rfl
@[simp] theorem State.store_hw (a : Nat) (bs : List Byte) : (s.store a bs).hw = s.hw := rfl
@[simp] theorem State.store_fw (a : Nat) (bs : List Byte) : (s.store a bs).fw = s.fw := rfl
@[simp] theorem State.store_obs (a : Nat) (bs : List Byte) : (s.store a bs).obs = s.obs := rfl
@[simp] theorem State.store_pcie (a : Nat) (bs : List Byte) : (s.store a bs).pcie = s.pcie := rfl
@[simp] theorem State.store_i3c (a : Nat) (bs : List Byte) : (s.store a bs).i3c = s.i3c := rfl
@[simp] theorem State.store_pins (a : Nat) (bs : List Byte) : (s.store a bs).pins = s.pins := rfl
@[simp] theorem State.store_fuses (a : Nat) (bs : List Byte) : (s.store a bs).fuses = s.fuses := rfl
@[simp] theorem State.store_out (a : Nat) (bs : List Byte) : (s.store a bs).out = s.out := rfl
@[simp] theorem State.store_free (a : Nat) (bs : List Byte) : (s.store a bs).free = s.free := rfl
@[simp] theorem State.store_pending (a : Nat) (bs : List Byte) : (s.store a bs).pending = s.pending := rfl

/-! ### zeroize -/

@[simp] theorem State.zeroize_regs (a n : Nat) : (s.zeroize a n).regs = s.regs := rfl
@[simp] theorem State.zeroize_live (a n : Nat) : (s.zeroize a n).live = s.live := rfl
@[simp] theorem State.zeroize_lines (a n : Nat) : (s.zeroize a n).lines = s.lines := rfl
@[simp] theorem State.zeroize_leaves (a n : Nat) : (s.zeroize a n).leaves = s.leaves := rfl
@[simp] theorem State.zeroize_remap (a n : Nat) : (s.zeroize a n).remap = s.remap := rfl
@[simp] theorem State.zeroize_restore (a n : Nat) : (s.zeroize a n).restore = s.restore := rfl
@[simp] theorem State.zeroize_leafRst (a n : Nat) : (s.zeroize a n).leafRst = s.leafRst := rfl
@[simp] theorem State.zeroize_bells (a n : Nat) : (s.zeroize a n).bells = s.bells := rfl
@[simp] theorem State.zeroize_fetched (a n : Nat) : (s.zeroize a n).fetched = s.fetched := rfl
@[simp] theorem State.zeroize_fence (a n : Nat) : (s.zeroize a n).fence = s.fence := rfl
@[simp] theorem State.zeroize_cmds (a n : Nat) : (s.zeroize a n).cmds = s.cmds := rfl
@[simp] theorem State.zeroize_knots (a n : Nat) : (s.zeroize a n).knots = s.knots := rfl
@[simp] theorem State.zeroize_mirrors (a n : Nat) : (s.zeroize a n).mirrors = s.mirrors := rfl
@[simp] theorem State.zeroize_mirrorLog (a n : Nat) : (s.zeroize a n).mirrorLog = s.mirrorLog := rfl
@[simp] theorem State.zeroize_granules (a n : Nat) : (s.zeroize a n).granules = s.granules := rfl
@[simp] theorem State.zeroize_kops (a n : Nat) : (s.zeroize a n).kops = s.kops := rfl
@[simp] theorem State.zeroize_fires (a n : Nat) : (s.zeroize a n).fires = s.fires := rfl
@[simp] theorem State.zeroize_ni (a n : Nat) : (s.zeroize a n).ni = s.ni := rfl
@[simp] theorem State.zeroize_coll (a n : Nat) : (s.zeroize a n).coll = s.coll := rfl
@[simp] theorem State.zeroize_limbs (a n : Nat) : (s.zeroize a n).limbs = s.limbs := rfl
@[simp] theorem State.zeroize_stands (a n : Nat) : (s.zeroize a n).stands = s.stands := rfl
@[simp] theorem State.zeroize_hbm (a n : Nat) : (s.zeroize a n).hbm = s.hbm := rfl
@[simp] theorem State.zeroize_keys (a n : Nat) : (s.zeroize a n).keys = s.keys := rfl
@[simp] theorem State.zeroize_clk (a n : Nat) : (s.zeroize a n).clk = s.clk := rfl
@[simp] theorem State.zeroize_pwr (a n : Nat) : (s.zeroize a n).pwr = s.pwr := rfl
@[simp] theorem State.zeroize_boot (a n : Nat) : (s.zeroize a n).boot = s.boot := rfl
@[simp] theorem State.zeroize_hw (a n : Nat) : (s.zeroize a n).hw = s.hw := rfl
@[simp] theorem State.zeroize_fw (a n : Nat) : (s.zeroize a n).fw = s.fw := rfl
@[simp] theorem State.zeroize_obs (a n : Nat) : (s.zeroize a n).obs = s.obs := rfl
@[simp] theorem State.zeroize_pcie (a n : Nat) : (s.zeroize a n).pcie = s.pcie := rfl
@[simp] theorem State.zeroize_i3c (a n : Nat) : (s.zeroize a n).i3c = s.i3c := rfl
@[simp] theorem State.zeroize_pins (a n : Nat) : (s.zeroize a n).pins = s.pins := rfl
@[simp] theorem State.zeroize_fuses (a n : Nat) : (s.zeroize a n).fuses = s.fuses := rfl
@[simp] theorem State.zeroize_out (a n : Nat) : (s.zeroize a n).out = s.out := rfl
@[simp] theorem State.zeroize_free (a n : Nat) : (s.zeroize a n).free = s.free := rfl
@[simp] theorem State.zeroize_pending (a n : Nat) : (s.zeroize a n).pending = s.pending := rfl

/-! ### drawn -/

@[simp] theorem State.drawn_regs : (s.drawn).regs = s.regs := rfl
@[simp] theorem State.drawn_live : (s.drawn).live = s.live := rfl
@[simp] theorem State.drawn_mem : (s.drawn).mem = s.mem := rfl
@[simp] theorem State.drawn_lines : (s.drawn).lines = s.lines := rfl
@[simp] theorem State.drawn_leaves : (s.drawn).leaves = s.leaves := rfl
@[simp] theorem State.drawn_remap : (s.drawn).remap = s.remap := rfl
@[simp] theorem State.drawn_restore : (s.drawn).restore = s.restore := rfl
@[simp] theorem State.drawn_leafRst : (s.drawn).leafRst = s.leafRst := rfl
@[simp] theorem State.drawn_bells : (s.drawn).bells = s.bells := rfl
@[simp] theorem State.drawn_fetched : (s.drawn).fetched = s.fetched := rfl
@[simp] theorem State.drawn_fence : (s.drawn).fence = s.fence := rfl
@[simp] theorem State.drawn_cmds : (s.drawn).cmds = s.cmds := rfl
@[simp] theorem State.drawn_knots : (s.drawn).knots = s.knots := rfl
@[simp] theorem State.drawn_mirrors : (s.drawn).mirrors = s.mirrors := rfl
@[simp] theorem State.drawn_mirrorLog : (s.drawn).mirrorLog = s.mirrorLog := rfl
@[simp] theorem State.drawn_granules : (s.drawn).granules = s.granules := rfl
@[simp] theorem State.drawn_kops : (s.drawn).kops = s.kops := rfl
@[simp] theorem State.drawn_fires : (s.drawn).fires = s.fires := rfl
@[simp] theorem State.drawn_ni : (s.drawn).ni = s.ni := rfl
@[simp] theorem State.drawn_coll : (s.drawn).coll = s.coll := rfl
@[simp] theorem State.drawn_limbs : (s.drawn).limbs = s.limbs := rfl
@[simp] theorem State.drawn_stands : (s.drawn).stands = s.stands := rfl
@[simp] theorem State.drawn_hbm : (s.drawn).hbm = s.hbm := rfl
@[simp] theorem State.drawn_keys : (s.drawn).keys = s.keys := rfl
@[simp] theorem State.drawn_clk : (s.drawn).clk = s.clk := rfl
@[simp] theorem State.drawn_pwr : (s.drawn).pwr = s.pwr := rfl
@[simp] theorem State.drawn_boot : (s.drawn).boot = s.boot := rfl
@[simp] theorem State.drawn_hw : (s.drawn).hw = s.hw := rfl
@[simp] theorem State.drawn_fw : (s.drawn).fw = s.fw := rfl
@[simp] theorem State.drawn_obs : (s.drawn).obs = s.obs := rfl
@[simp] theorem State.drawn_pcie : (s.drawn).pcie = s.pcie := rfl
@[simp] theorem State.drawn_i3c : (s.drawn).i3c = s.i3c := rfl
@[simp] theorem State.drawn_pins : (s.drawn).pins = s.pins := rfl
@[simp] theorem State.drawn_fuses : (s.drawn).fuses = s.fuses := rfl
@[simp] theorem State.drawn_out : (s.drawn).out = s.out := rfl
@[simp] theorem State.drawn_pending : (s.drawn).pending = s.pending := rfl

/-! ### drawnBytes -/

@[simp] theorem State.drawnBytes_regs (n : Nat) : (s.drawnBytes n).regs = s.regs := rfl
@[simp] theorem State.drawnBytes_live (n : Nat) : (s.drawnBytes n).live = s.live := rfl
@[simp] theorem State.drawnBytes_mem (n : Nat) : (s.drawnBytes n).mem = s.mem := rfl
@[simp] theorem State.drawnBytes_lines (n : Nat) : (s.drawnBytes n).lines = s.lines := rfl
@[simp] theorem State.drawnBytes_leaves (n : Nat) : (s.drawnBytes n).leaves = s.leaves := rfl
@[simp] theorem State.drawnBytes_remap (n : Nat) : (s.drawnBytes n).remap = s.remap := rfl
@[simp] theorem State.drawnBytes_restore (n : Nat) : (s.drawnBytes n).restore = s.restore := rfl
@[simp] theorem State.drawnBytes_leafRst (n : Nat) : (s.drawnBytes n).leafRst = s.leafRst := rfl
@[simp] theorem State.drawnBytes_bells (n : Nat) : (s.drawnBytes n).bells = s.bells := rfl
@[simp] theorem State.drawnBytes_fetched (n : Nat) : (s.drawnBytes n).fetched = s.fetched := rfl
@[simp] theorem State.drawnBytes_fence (n : Nat) : (s.drawnBytes n).fence = s.fence := rfl
@[simp] theorem State.drawnBytes_cmds (n : Nat) : (s.drawnBytes n).cmds = s.cmds := rfl
@[simp] theorem State.drawnBytes_knots (n : Nat) : (s.drawnBytes n).knots = s.knots := rfl
@[simp] theorem State.drawnBytes_mirrors (n : Nat) : (s.drawnBytes n).mirrors = s.mirrors := rfl
@[simp] theorem State.drawnBytes_mirrorLog (n : Nat) : (s.drawnBytes n).mirrorLog = s.mirrorLog := rfl
@[simp] theorem State.drawnBytes_granules (n : Nat) : (s.drawnBytes n).granules = s.granules := rfl
@[simp] theorem State.drawnBytes_kops (n : Nat) : (s.drawnBytes n).kops = s.kops := rfl
@[simp] theorem State.drawnBytes_fires (n : Nat) : (s.drawnBytes n).fires = s.fires := rfl
@[simp] theorem State.drawnBytes_ni (n : Nat) : (s.drawnBytes n).ni = s.ni := rfl
@[simp] theorem State.drawnBytes_coll (n : Nat) : (s.drawnBytes n).coll = s.coll := rfl
@[simp] theorem State.drawnBytes_limbs (n : Nat) : (s.drawnBytes n).limbs = s.limbs := rfl
@[simp] theorem State.drawnBytes_stands (n : Nat) : (s.drawnBytes n).stands = s.stands := rfl
@[simp] theorem State.drawnBytes_hbm (n : Nat) : (s.drawnBytes n).hbm = s.hbm := rfl
@[simp] theorem State.drawnBytes_keys (n : Nat) : (s.drawnBytes n).keys = s.keys := rfl
@[simp] theorem State.drawnBytes_clk (n : Nat) : (s.drawnBytes n).clk = s.clk := rfl
@[simp] theorem State.drawnBytes_pwr (n : Nat) : (s.drawnBytes n).pwr = s.pwr := rfl
@[simp] theorem State.drawnBytes_boot (n : Nat) : (s.drawnBytes n).boot = s.boot := rfl
@[simp] theorem State.drawnBytes_hw (n : Nat) : (s.drawnBytes n).hw = s.hw := rfl
@[simp] theorem State.drawnBytes_fw (n : Nat) : (s.drawnBytes n).fw = s.fw := rfl
@[simp] theorem State.drawnBytes_obs (n : Nat) : (s.drawnBytes n).obs = s.obs := rfl
@[simp] theorem State.drawnBytes_pcie (n : Nat) : (s.drawnBytes n).pcie = s.pcie := rfl
@[simp] theorem State.drawnBytes_i3c (n : Nat) : (s.drawnBytes n).i3c = s.i3c := rfl
@[simp] theorem State.drawnBytes_pins (n : Nat) : (s.drawnBytes n).pins = s.pins := rfl
@[simp] theorem State.drawnBytes_fuses (n : Nat) : (s.drawnBytes n).fuses = s.fuses := rfl
@[simp] theorem State.drawnBytes_out (n : Nat) : (s.drawnBytes n).out = s.out := rfl
@[simp] theorem State.drawnBytes_pending (n : Nat) : (s.drawnBytes n).pending = s.pending := rfl

/-! ### emit -/

@[simp] theorem State.emit_regs (o : Out) : (s.emit o).regs = s.regs := rfl
@[simp] theorem State.emit_live (o : Out) : (s.emit o).live = s.live := rfl
@[simp] theorem State.emit_mem (o : Out) : (s.emit o).mem = s.mem := rfl
@[simp] theorem State.emit_lines (o : Out) : (s.emit o).lines = s.lines := rfl
@[simp] theorem State.emit_leaves (o : Out) : (s.emit o).leaves = s.leaves := rfl
@[simp] theorem State.emit_remap (o : Out) : (s.emit o).remap = s.remap := rfl
@[simp] theorem State.emit_restore (o : Out) : (s.emit o).restore = s.restore := rfl
@[simp] theorem State.emit_leafRst (o : Out) : (s.emit o).leafRst = s.leafRst := rfl
@[simp] theorem State.emit_bells (o : Out) : (s.emit o).bells = s.bells := rfl
@[simp] theorem State.emit_fetched (o : Out) : (s.emit o).fetched = s.fetched := rfl
@[simp] theorem State.emit_fence (o : Out) : (s.emit o).fence = s.fence := rfl
@[simp] theorem State.emit_cmds (o : Out) : (s.emit o).cmds = s.cmds := rfl
@[simp] theorem State.emit_knots (o : Out) : (s.emit o).knots = s.knots := rfl
@[simp] theorem State.emit_mirrors (o : Out) : (s.emit o).mirrors = s.mirrors := rfl
@[simp] theorem State.emit_mirrorLog (o : Out) : (s.emit o).mirrorLog = s.mirrorLog := rfl
@[simp] theorem State.emit_granules (o : Out) : (s.emit o).granules = s.granules := rfl
@[simp] theorem State.emit_kops (o : Out) : (s.emit o).kops = s.kops := rfl
@[simp] theorem State.emit_fires (o : Out) : (s.emit o).fires = s.fires := rfl
@[simp] theorem State.emit_ni (o : Out) : (s.emit o).ni = s.ni := rfl
@[simp] theorem State.emit_coll (o : Out) : (s.emit o).coll = s.coll := rfl
@[simp] theorem State.emit_limbs (o : Out) : (s.emit o).limbs = s.limbs := rfl
@[simp] theorem State.emit_stands (o : Out) : (s.emit o).stands = s.stands := rfl
@[simp] theorem State.emit_hbm (o : Out) : (s.emit o).hbm = s.hbm := rfl
@[simp] theorem State.emit_keys (o : Out) : (s.emit o).keys = s.keys := rfl
@[simp] theorem State.emit_clk (o : Out) : (s.emit o).clk = s.clk := rfl
@[simp] theorem State.emit_pwr (o : Out) : (s.emit o).pwr = s.pwr := rfl
@[simp] theorem State.emit_boot (o : Out) : (s.emit o).boot = s.boot := rfl
@[simp] theorem State.emit_hw (o : Out) : (s.emit o).hw = s.hw := rfl
@[simp] theorem State.emit_fw (o : Out) : (s.emit o).fw = s.fw := rfl
@[simp] theorem State.emit_obs (o : Out) : (s.emit o).obs = s.obs := rfl
@[simp] theorem State.emit_pcie (o : Out) : (s.emit o).pcie = s.pcie := rfl
@[simp] theorem State.emit_i3c (o : Out) : (s.emit o).i3c = s.i3c := rfl
@[simp] theorem State.emit_pins (o : Out) : (s.emit o).pins = s.pins := rfl
@[simp] theorem State.emit_fuses (o : Out) : (s.emit o).fuses = s.fuses := rfl
@[simp] theorem State.emit_free (o : Out) : (s.emit o).free = s.free := rfl
@[simp] theorem State.emit_pending (o : Out) : (s.emit o).pending = s.pending := rfl

/-! ### onLeaf -/

@[simp] theorem State.onLeaf_regs (t p : Nat) (f : Leaf → Leaf) : (s.onLeaf t p f).regs = s.regs := rfl
@[simp] theorem State.onLeaf_live (t p : Nat) (f : Leaf → Leaf) : (s.onLeaf t p f).live = s.live := rfl
@[simp] theorem State.onLeaf_mem (t p : Nat) (f : Leaf → Leaf) : (s.onLeaf t p f).mem = s.mem := rfl
@[simp] theorem State.onLeaf_lines (t p : Nat) (f : Leaf → Leaf) : (s.onLeaf t p f).lines = s.lines := rfl
@[simp] theorem State.onLeaf_remap (t p : Nat) (f : Leaf → Leaf) : (s.onLeaf t p f).remap = s.remap := rfl
@[simp] theorem State.onLeaf_restore (t p : Nat) (f : Leaf → Leaf) : (s.onLeaf t p f).restore = s.restore := rfl
@[simp] theorem State.onLeaf_leafRst (t p : Nat) (f : Leaf → Leaf) : (s.onLeaf t p f).leafRst = s.leafRst := rfl
@[simp] theorem State.onLeaf_bells (t p : Nat) (f : Leaf → Leaf) : (s.onLeaf t p f).bells = s.bells := rfl
@[simp] theorem State.onLeaf_fetched (t p : Nat) (f : Leaf → Leaf) : (s.onLeaf t p f).fetched = s.fetched := rfl
@[simp] theorem State.onLeaf_fence (t p : Nat) (f : Leaf → Leaf) : (s.onLeaf t p f).fence = s.fence := rfl
@[simp] theorem State.onLeaf_cmds (t p : Nat) (f : Leaf → Leaf) : (s.onLeaf t p f).cmds = s.cmds := rfl
@[simp] theorem State.onLeaf_knots (t p : Nat) (f : Leaf → Leaf) : (s.onLeaf t p f).knots = s.knots := rfl
@[simp] theorem State.onLeaf_mirrors (t p : Nat) (f : Leaf → Leaf) : (s.onLeaf t p f).mirrors = s.mirrors := rfl
@[simp] theorem State.onLeaf_mirrorLog (t p : Nat) (f : Leaf → Leaf) : (s.onLeaf t p f).mirrorLog = s.mirrorLog := rfl
@[simp] theorem State.onLeaf_granules (t p : Nat) (f : Leaf → Leaf) : (s.onLeaf t p f).granules = s.granules := rfl
@[simp] theorem State.onLeaf_kops (t p : Nat) (f : Leaf → Leaf) : (s.onLeaf t p f).kops = s.kops := rfl
@[simp] theorem State.onLeaf_fires (t p : Nat) (f : Leaf → Leaf) : (s.onLeaf t p f).fires = s.fires := rfl
@[simp] theorem State.onLeaf_ni (t p : Nat) (f : Leaf → Leaf) : (s.onLeaf t p f).ni = s.ni := rfl
@[simp] theorem State.onLeaf_coll (t p : Nat) (f : Leaf → Leaf) : (s.onLeaf t p f).coll = s.coll := rfl
@[simp] theorem State.onLeaf_limbs (t p : Nat) (f : Leaf → Leaf) : (s.onLeaf t p f).limbs = s.limbs := rfl
@[simp] theorem State.onLeaf_stands (t p : Nat) (f : Leaf → Leaf) : (s.onLeaf t p f).stands = s.stands := rfl
@[simp] theorem State.onLeaf_hbm (t p : Nat) (f : Leaf → Leaf) : (s.onLeaf t p f).hbm = s.hbm := rfl
@[simp] theorem State.onLeaf_keys (t p : Nat) (f : Leaf → Leaf) : (s.onLeaf t p f).keys = s.keys := rfl
@[simp] theorem State.onLeaf_clk (t p : Nat) (f : Leaf → Leaf) : (s.onLeaf t p f).clk = s.clk := rfl
@[simp] theorem State.onLeaf_pwr (t p : Nat) (f : Leaf → Leaf) : (s.onLeaf t p f).pwr = s.pwr := rfl
@[simp] theorem State.onLeaf_boot (t p : Nat) (f : Leaf → Leaf) : (s.onLeaf t p f).boot = s.boot := rfl
@[simp] theorem State.onLeaf_hw (t p : Nat) (f : Leaf → Leaf) : (s.onLeaf t p f).hw = s.hw := rfl
@[simp] theorem State.onLeaf_fw (t p : Nat) (f : Leaf → Leaf) : (s.onLeaf t p f).fw = s.fw := rfl
@[simp] theorem State.onLeaf_obs (t p : Nat) (f : Leaf → Leaf) : (s.onLeaf t p f).obs = s.obs := rfl
@[simp] theorem State.onLeaf_pcie (t p : Nat) (f : Leaf → Leaf) : (s.onLeaf t p f).pcie = s.pcie := rfl
@[simp] theorem State.onLeaf_i3c (t p : Nat) (f : Leaf → Leaf) : (s.onLeaf t p f).i3c = s.i3c := rfl
@[simp] theorem State.onLeaf_pins (t p : Nat) (f : Leaf → Leaf) : (s.onLeaf t p f).pins = s.pins := rfl
@[simp] theorem State.onLeaf_fuses (t p : Nat) (f : Leaf → Leaf) : (s.onLeaf t p f).fuses = s.fuses := rfl
@[simp] theorem State.onLeaf_out (t p : Nat) (f : Leaf → Leaf) : (s.onLeaf t p f).out = s.out := rfl
@[simp] theorem State.onLeaf_free (t p : Nat) (f : Leaf → Leaf) : (s.onLeaf t p f).free = s.free := rfl
@[simp] theorem State.onLeaf_pending (t p : Nat) (f : Leaf → Leaf) : (s.onLeaf t p f).pending = s.pending := rfl

/-! ### onLimb -/

@[simp] theorem State.onLimb_regs (l : Nat) (f : Limb → Limb) : (s.onLimb l f).regs = s.regs := rfl
@[simp] theorem State.onLimb_live (l : Nat) (f : Limb → Limb) : (s.onLimb l f).live = s.live := rfl
@[simp] theorem State.onLimb_mem (l : Nat) (f : Limb → Limb) : (s.onLimb l f).mem = s.mem := rfl
@[simp] theorem State.onLimb_lines (l : Nat) (f : Limb → Limb) : (s.onLimb l f).lines = s.lines := rfl
@[simp] theorem State.onLimb_leaves (l : Nat) (f : Limb → Limb) : (s.onLimb l f).leaves = s.leaves := rfl
@[simp] theorem State.onLimb_remap (l : Nat) (f : Limb → Limb) : (s.onLimb l f).remap = s.remap := rfl
@[simp] theorem State.onLimb_restore (l : Nat) (f : Limb → Limb) : (s.onLimb l f).restore = s.restore := rfl
@[simp] theorem State.onLimb_leafRst (l : Nat) (f : Limb → Limb) : (s.onLimb l f).leafRst = s.leafRst := rfl
@[simp] theorem State.onLimb_bells (l : Nat) (f : Limb → Limb) : (s.onLimb l f).bells = s.bells := rfl
@[simp] theorem State.onLimb_fetched (l : Nat) (f : Limb → Limb) : (s.onLimb l f).fetched = s.fetched := rfl
@[simp] theorem State.onLimb_fence (l : Nat) (f : Limb → Limb) : (s.onLimb l f).fence = s.fence := rfl
@[simp] theorem State.onLimb_cmds (l : Nat) (f : Limb → Limb) : (s.onLimb l f).cmds = s.cmds := rfl
@[simp] theorem State.onLimb_knots (l : Nat) (f : Limb → Limb) : (s.onLimb l f).knots = s.knots := rfl
@[simp] theorem State.onLimb_mirrors (l : Nat) (f : Limb → Limb) : (s.onLimb l f).mirrors = s.mirrors := rfl
@[simp] theorem State.onLimb_mirrorLog (l : Nat) (f : Limb → Limb) : (s.onLimb l f).mirrorLog = s.mirrorLog := rfl
@[simp] theorem State.onLimb_granules (l : Nat) (f : Limb → Limb) : (s.onLimb l f).granules = s.granules := rfl
@[simp] theorem State.onLimb_kops (l : Nat) (f : Limb → Limb) : (s.onLimb l f).kops = s.kops := rfl
@[simp] theorem State.onLimb_fires (l : Nat) (f : Limb → Limb) : (s.onLimb l f).fires = s.fires := rfl
@[simp] theorem State.onLimb_ni (l : Nat) (f : Limb → Limb) : (s.onLimb l f).ni = s.ni := rfl
@[simp] theorem State.onLimb_coll (l : Nat) (f : Limb → Limb) : (s.onLimb l f).coll = s.coll := rfl
@[simp] theorem State.onLimb_stands (l : Nat) (f : Limb → Limb) : (s.onLimb l f).stands = s.stands := rfl
@[simp] theorem State.onLimb_hbm (l : Nat) (f : Limb → Limb) : (s.onLimb l f).hbm = s.hbm := rfl
@[simp] theorem State.onLimb_keys (l : Nat) (f : Limb → Limb) : (s.onLimb l f).keys = s.keys := rfl
@[simp] theorem State.onLimb_clk (l : Nat) (f : Limb → Limb) : (s.onLimb l f).clk = s.clk := rfl
@[simp] theorem State.onLimb_pwr (l : Nat) (f : Limb → Limb) : (s.onLimb l f).pwr = s.pwr := rfl
@[simp] theorem State.onLimb_boot (l : Nat) (f : Limb → Limb) : (s.onLimb l f).boot = s.boot := rfl
@[simp] theorem State.onLimb_hw (l : Nat) (f : Limb → Limb) : (s.onLimb l f).hw = s.hw := rfl
@[simp] theorem State.onLimb_fw (l : Nat) (f : Limb → Limb) : (s.onLimb l f).fw = s.fw := rfl
@[simp] theorem State.onLimb_obs (l : Nat) (f : Limb → Limb) : (s.onLimb l f).obs = s.obs := rfl
@[simp] theorem State.onLimb_pcie (l : Nat) (f : Limb → Limb) : (s.onLimb l f).pcie = s.pcie := rfl
@[simp] theorem State.onLimb_i3c (l : Nat) (f : Limb → Limb) : (s.onLimb l f).i3c = s.i3c := rfl
@[simp] theorem State.onLimb_pins (l : Nat) (f : Limb → Limb) : (s.onLimb l f).pins = s.pins := rfl
@[simp] theorem State.onLimb_fuses (l : Nat) (f : Limb → Limb) : (s.onLimb l f).fuses = s.fuses := rfl
@[simp] theorem State.onLimb_out (l : Nat) (f : Limb → Limb) : (s.onLimb l f).out = s.out := rfl
@[simp] theorem State.onLimb_free (l : Nat) (f : Limb → Limb) : (s.onLimb l f).free = s.free := rfl
@[simp] theorem State.onLimb_pending (l : Nat) (f : Limb → Limb) : (s.onLimb l f).pending = s.pending := rfl

/-! ### onStand -/

@[simp] theorem State.onStand_regs (st : Nat) (f : Stand → Stand) : (s.onStand st f).regs = s.regs := rfl
@[simp] theorem State.onStand_live (st : Nat) (f : Stand → Stand) : (s.onStand st f).live = s.live := rfl
@[simp] theorem State.onStand_mem (st : Nat) (f : Stand → Stand) : (s.onStand st f).mem = s.mem := rfl
@[simp] theorem State.onStand_lines (st : Nat) (f : Stand → Stand) : (s.onStand st f).lines = s.lines := rfl
@[simp] theorem State.onStand_leaves (st : Nat) (f : Stand → Stand) : (s.onStand st f).leaves = s.leaves := rfl
@[simp] theorem State.onStand_remap (st : Nat) (f : Stand → Stand) : (s.onStand st f).remap = s.remap := rfl
@[simp] theorem State.onStand_restore (st : Nat) (f : Stand → Stand) : (s.onStand st f).restore = s.restore := rfl
@[simp] theorem State.onStand_leafRst (st : Nat) (f : Stand → Stand) : (s.onStand st f).leafRst = s.leafRst := rfl
@[simp] theorem State.onStand_bells (st : Nat) (f : Stand → Stand) : (s.onStand st f).bells = s.bells := rfl
@[simp] theorem State.onStand_fetched (st : Nat) (f : Stand → Stand) : (s.onStand st f).fetched = s.fetched := rfl
@[simp] theorem State.onStand_fence (st : Nat) (f : Stand → Stand) : (s.onStand st f).fence = s.fence := rfl
@[simp] theorem State.onStand_cmds (st : Nat) (f : Stand → Stand) : (s.onStand st f).cmds = s.cmds := rfl
@[simp] theorem State.onStand_knots (st : Nat) (f : Stand → Stand) : (s.onStand st f).knots = s.knots := rfl
@[simp] theorem State.onStand_mirrors (st : Nat) (f : Stand → Stand) : (s.onStand st f).mirrors = s.mirrors := rfl
@[simp] theorem State.onStand_mirrorLog (st : Nat) (f : Stand → Stand) : (s.onStand st f).mirrorLog = s.mirrorLog := rfl
@[simp] theorem State.onStand_granules (st : Nat) (f : Stand → Stand) : (s.onStand st f).granules = s.granules := rfl
@[simp] theorem State.onStand_kops (st : Nat) (f : Stand → Stand) : (s.onStand st f).kops = s.kops := rfl
@[simp] theorem State.onStand_fires (st : Nat) (f : Stand → Stand) : (s.onStand st f).fires = s.fires := rfl
@[simp] theorem State.onStand_ni (st : Nat) (f : Stand → Stand) : (s.onStand st f).ni = s.ni := rfl
@[simp] theorem State.onStand_coll (st : Nat) (f : Stand → Stand) : (s.onStand st f).coll = s.coll := rfl
@[simp] theorem State.onStand_limbs (st : Nat) (f : Stand → Stand) : (s.onStand st f).limbs = s.limbs := rfl
@[simp] theorem State.onStand_hbm (st : Nat) (f : Stand → Stand) : (s.onStand st f).hbm = s.hbm := rfl
@[simp] theorem State.onStand_keys (st : Nat) (f : Stand → Stand) : (s.onStand st f).keys = s.keys := rfl
@[simp] theorem State.onStand_clk (st : Nat) (f : Stand → Stand) : (s.onStand st f).clk = s.clk := rfl
@[simp] theorem State.onStand_pwr (st : Nat) (f : Stand → Stand) : (s.onStand st f).pwr = s.pwr := rfl
@[simp] theorem State.onStand_boot (st : Nat) (f : Stand → Stand) : (s.onStand st f).boot = s.boot := rfl
@[simp] theorem State.onStand_hw (st : Nat) (f : Stand → Stand) : (s.onStand st f).hw = s.hw := rfl
@[simp] theorem State.onStand_fw (st : Nat) (f : Stand → Stand) : (s.onStand st f).fw = s.fw := rfl
@[simp] theorem State.onStand_obs (st : Nat) (f : Stand → Stand) : (s.onStand st f).obs = s.obs := rfl
@[simp] theorem State.onStand_pcie (st : Nat) (f : Stand → Stand) : (s.onStand st f).pcie = s.pcie := rfl
@[simp] theorem State.onStand_i3c (st : Nat) (f : Stand → Stand) : (s.onStand st f).i3c = s.i3c := rfl
@[simp] theorem State.onStand_pins (st : Nat) (f : Stand → Stand) : (s.onStand st f).pins = s.pins := rfl
@[simp] theorem State.onStand_fuses (st : Nat) (f : Stand → Stand) : (s.onStand st f).fuses = s.fuses := rfl
@[simp] theorem State.onStand_out (st : Nat) (f : Stand → Stand) : (s.onStand st f).out = s.out := rfl
@[simp] theorem State.onStand_free (st : Nat) (f : Stand → Stand) : (s.onStand st f).free = s.free := rfl
@[simp] theorem State.onStand_pending (st : Nat) (f : Stand → Stand) : (s.onStand st f).pending = s.pending := rfl

/-! ### setKnot -/

@[simp] theorem State.setKnot_regs (k : Nat) (x : Knot) : (s.setKnot k x).regs = s.regs := rfl
@[simp] theorem State.setKnot_live (k : Nat) (x : Knot) : (s.setKnot k x).live = s.live := rfl
@[simp] theorem State.setKnot_mem (k : Nat) (x : Knot) : (s.setKnot k x).mem = s.mem := rfl
@[simp] theorem State.setKnot_lines (k : Nat) (x : Knot) : (s.setKnot k x).lines = s.lines := rfl
@[simp] theorem State.setKnot_leaves (k : Nat) (x : Knot) : (s.setKnot k x).leaves = s.leaves := rfl
@[simp] theorem State.setKnot_remap (k : Nat) (x : Knot) : (s.setKnot k x).remap = s.remap := rfl
@[simp] theorem State.setKnot_restore (k : Nat) (x : Knot) : (s.setKnot k x).restore = s.restore := rfl
@[simp] theorem State.setKnot_leafRst (k : Nat) (x : Knot) : (s.setKnot k x).leafRst = s.leafRst := rfl
@[simp] theorem State.setKnot_bells (k : Nat) (x : Knot) : (s.setKnot k x).bells = s.bells := rfl
@[simp] theorem State.setKnot_fetched (k : Nat) (x : Knot) : (s.setKnot k x).fetched = s.fetched := rfl
@[simp] theorem State.setKnot_fence (k : Nat) (x : Knot) : (s.setKnot k x).fence = s.fence := rfl
@[simp] theorem State.setKnot_cmds (k : Nat) (x : Knot) : (s.setKnot k x).cmds = s.cmds := rfl
@[simp] theorem State.setKnot_mirrors (k : Nat) (x : Knot) : (s.setKnot k x).mirrors = s.mirrors := rfl
@[simp] theorem State.setKnot_mirrorLog (k : Nat) (x : Knot) : (s.setKnot k x).mirrorLog = s.mirrorLog := rfl
@[simp] theorem State.setKnot_granules (k : Nat) (x : Knot) : (s.setKnot k x).granules = s.granules := rfl
@[simp] theorem State.setKnot_kops (k : Nat) (x : Knot) : (s.setKnot k x).kops = s.kops := rfl
@[simp] theorem State.setKnot_fires (k : Nat) (x : Knot) : (s.setKnot k x).fires = s.fires := rfl
@[simp] theorem State.setKnot_ni (k : Nat) (x : Knot) : (s.setKnot k x).ni = s.ni := rfl
@[simp] theorem State.setKnot_coll (k : Nat) (x : Knot) : (s.setKnot k x).coll = s.coll := rfl
@[simp] theorem State.setKnot_limbs (k : Nat) (x : Knot) : (s.setKnot k x).limbs = s.limbs := rfl
@[simp] theorem State.setKnot_stands (k : Nat) (x : Knot) : (s.setKnot k x).stands = s.stands := rfl
@[simp] theorem State.setKnot_hbm (k : Nat) (x : Knot) : (s.setKnot k x).hbm = s.hbm := rfl
@[simp] theorem State.setKnot_keys (k : Nat) (x : Knot) : (s.setKnot k x).keys = s.keys := rfl
@[simp] theorem State.setKnot_clk (k : Nat) (x : Knot) : (s.setKnot k x).clk = s.clk := rfl
@[simp] theorem State.setKnot_pwr (k : Nat) (x : Knot) : (s.setKnot k x).pwr = s.pwr := rfl
@[simp] theorem State.setKnot_boot (k : Nat) (x : Knot) : (s.setKnot k x).boot = s.boot := rfl
@[simp] theorem State.setKnot_hw (k : Nat) (x : Knot) : (s.setKnot k x).hw = s.hw := rfl
@[simp] theorem State.setKnot_fw (k : Nat) (x : Knot) : (s.setKnot k x).fw = s.fw := rfl
@[simp] theorem State.setKnot_obs (k : Nat) (x : Knot) : (s.setKnot k x).obs = s.obs := rfl
@[simp] theorem State.setKnot_pcie (k : Nat) (x : Knot) : (s.setKnot k x).pcie = s.pcie := rfl
@[simp] theorem State.setKnot_i3c (k : Nat) (x : Knot) : (s.setKnot k x).i3c = s.i3c := rfl
@[simp] theorem State.setKnot_pins (k : Nat) (x : Knot) : (s.setKnot k x).pins = s.pins := rfl
@[simp] theorem State.setKnot_fuses (k : Nat) (x : Knot) : (s.setKnot k x).fuses = s.fuses := rfl
@[simp] theorem State.setKnot_out (k : Nat) (x : Knot) : (s.setKnot k x).out = s.out := rfl
@[simp] theorem State.setKnot_free (k : Nat) (x : Knot) : (s.setKnot k x).free = s.free := rfl
@[simp] theorem State.setKnot_pending (k : Nat) (x : Knot) : (s.setKnot k x).pending = s.pending := rfl

/-! ### onNi -/

@[simp] theorem State.onNi_regs (f : Ni → Ni) : (s.onNi f).regs = s.regs := rfl
@[simp] theorem State.onNi_live (f : Ni → Ni) : (s.onNi f).live = s.live := rfl
@[simp] theorem State.onNi_mem (f : Ni → Ni) : (s.onNi f).mem = s.mem := rfl
@[simp] theorem State.onNi_lines (f : Ni → Ni) : (s.onNi f).lines = s.lines := rfl
@[simp] theorem State.onNi_leaves (f : Ni → Ni) : (s.onNi f).leaves = s.leaves := rfl
@[simp] theorem State.onNi_remap (f : Ni → Ni) : (s.onNi f).remap = s.remap := rfl
@[simp] theorem State.onNi_restore (f : Ni → Ni) : (s.onNi f).restore = s.restore := rfl
@[simp] theorem State.onNi_leafRst (f : Ni → Ni) : (s.onNi f).leafRst = s.leafRst := rfl
@[simp] theorem State.onNi_bells (f : Ni → Ni) : (s.onNi f).bells = s.bells := rfl
@[simp] theorem State.onNi_fetched (f : Ni → Ni) : (s.onNi f).fetched = s.fetched := rfl
@[simp] theorem State.onNi_fence (f : Ni → Ni) : (s.onNi f).fence = s.fence := rfl
@[simp] theorem State.onNi_cmds (f : Ni → Ni) : (s.onNi f).cmds = s.cmds := rfl
@[simp] theorem State.onNi_knots (f : Ni → Ni) : (s.onNi f).knots = s.knots := rfl
@[simp] theorem State.onNi_mirrors (f : Ni → Ni) : (s.onNi f).mirrors = s.mirrors := rfl
@[simp] theorem State.onNi_mirrorLog (f : Ni → Ni) : (s.onNi f).mirrorLog = s.mirrorLog := rfl
@[simp] theorem State.onNi_granules (f : Ni → Ni) : (s.onNi f).granules = s.granules := rfl
@[simp] theorem State.onNi_kops (f : Ni → Ni) : (s.onNi f).kops = s.kops := rfl
@[simp] theorem State.onNi_fires (f : Ni → Ni) : (s.onNi f).fires = s.fires := rfl
@[simp] theorem State.onNi_coll (f : Ni → Ni) : (s.onNi f).coll = s.coll := rfl
@[simp] theorem State.onNi_limbs (f : Ni → Ni) : (s.onNi f).limbs = s.limbs := rfl
@[simp] theorem State.onNi_stands (f : Ni → Ni) : (s.onNi f).stands = s.stands := rfl
@[simp] theorem State.onNi_hbm (f : Ni → Ni) : (s.onNi f).hbm = s.hbm := rfl
@[simp] theorem State.onNi_keys (f : Ni → Ni) : (s.onNi f).keys = s.keys := rfl
@[simp] theorem State.onNi_clk (f : Ni → Ni) : (s.onNi f).clk = s.clk := rfl
@[simp] theorem State.onNi_pwr (f : Ni → Ni) : (s.onNi f).pwr = s.pwr := rfl
@[simp] theorem State.onNi_boot (f : Ni → Ni) : (s.onNi f).boot = s.boot := rfl
@[simp] theorem State.onNi_hw (f : Ni → Ni) : (s.onNi f).hw = s.hw := rfl
@[simp] theorem State.onNi_fw (f : Ni → Ni) : (s.onNi f).fw = s.fw := rfl
@[simp] theorem State.onNi_obs (f : Ni → Ni) : (s.onNi f).obs = s.obs := rfl
@[simp] theorem State.onNi_pcie (f : Ni → Ni) : (s.onNi f).pcie = s.pcie := rfl
@[simp] theorem State.onNi_i3c (f : Ni → Ni) : (s.onNi f).i3c = s.i3c := rfl
@[simp] theorem State.onNi_pins (f : Ni → Ni) : (s.onNi f).pins = s.pins := rfl
@[simp] theorem State.onNi_fuses (f : Ni → Ni) : (s.onNi f).fuses = s.fuses := rfl
@[simp] theorem State.onNi_out (f : Ni → Ni) : (s.onNi f).out = s.out := rfl
@[simp] theorem State.onNi_free (f : Ni → Ni) : (s.onNi f).free = s.free := rfl
@[simp] theorem State.onNi_pending (f : Ni → Ni) : (s.onNi f).pending = s.pending := rfl

/-! ### onColl -/

@[simp] theorem State.onColl_regs (f : Coll → Coll) : (s.onColl f).regs = s.regs := rfl
@[simp] theorem State.onColl_live (f : Coll → Coll) : (s.onColl f).live = s.live := rfl
@[simp] theorem State.onColl_mem (f : Coll → Coll) : (s.onColl f).mem = s.mem := rfl
@[simp] theorem State.onColl_lines (f : Coll → Coll) : (s.onColl f).lines = s.lines := rfl
@[simp] theorem State.onColl_leaves (f : Coll → Coll) : (s.onColl f).leaves = s.leaves := rfl
@[simp] theorem State.onColl_remap (f : Coll → Coll) : (s.onColl f).remap = s.remap := rfl
@[simp] theorem State.onColl_restore (f : Coll → Coll) : (s.onColl f).restore = s.restore := rfl
@[simp] theorem State.onColl_leafRst (f : Coll → Coll) : (s.onColl f).leafRst = s.leafRst := rfl
@[simp] theorem State.onColl_bells (f : Coll → Coll) : (s.onColl f).bells = s.bells := rfl
@[simp] theorem State.onColl_fetched (f : Coll → Coll) : (s.onColl f).fetched = s.fetched := rfl
@[simp] theorem State.onColl_fence (f : Coll → Coll) : (s.onColl f).fence = s.fence := rfl
@[simp] theorem State.onColl_cmds (f : Coll → Coll) : (s.onColl f).cmds = s.cmds := rfl
@[simp] theorem State.onColl_knots (f : Coll → Coll) : (s.onColl f).knots = s.knots := rfl
@[simp] theorem State.onColl_mirrors (f : Coll → Coll) : (s.onColl f).mirrors = s.mirrors := rfl
@[simp] theorem State.onColl_mirrorLog (f : Coll → Coll) : (s.onColl f).mirrorLog = s.mirrorLog := rfl
@[simp] theorem State.onColl_granules (f : Coll → Coll) : (s.onColl f).granules = s.granules := rfl
@[simp] theorem State.onColl_kops (f : Coll → Coll) : (s.onColl f).kops = s.kops := rfl
@[simp] theorem State.onColl_fires (f : Coll → Coll) : (s.onColl f).fires = s.fires := rfl
@[simp] theorem State.onColl_ni (f : Coll → Coll) : (s.onColl f).ni = s.ni := rfl
@[simp] theorem State.onColl_limbs (f : Coll → Coll) : (s.onColl f).limbs = s.limbs := rfl
@[simp] theorem State.onColl_stands (f : Coll → Coll) : (s.onColl f).stands = s.stands := rfl
@[simp] theorem State.onColl_hbm (f : Coll → Coll) : (s.onColl f).hbm = s.hbm := rfl
@[simp] theorem State.onColl_keys (f : Coll → Coll) : (s.onColl f).keys = s.keys := rfl
@[simp] theorem State.onColl_clk (f : Coll → Coll) : (s.onColl f).clk = s.clk := rfl
@[simp] theorem State.onColl_pwr (f : Coll → Coll) : (s.onColl f).pwr = s.pwr := rfl
@[simp] theorem State.onColl_boot (f : Coll → Coll) : (s.onColl f).boot = s.boot := rfl
@[simp] theorem State.onColl_hw (f : Coll → Coll) : (s.onColl f).hw = s.hw := rfl
@[simp] theorem State.onColl_fw (f : Coll → Coll) : (s.onColl f).fw = s.fw := rfl
@[simp] theorem State.onColl_obs (f : Coll → Coll) : (s.onColl f).obs = s.obs := rfl
@[simp] theorem State.onColl_pcie (f : Coll → Coll) : (s.onColl f).pcie = s.pcie := rfl
@[simp] theorem State.onColl_i3c (f : Coll → Coll) : (s.onColl f).i3c = s.i3c := rfl
@[simp] theorem State.onColl_pins (f : Coll → Coll) : (s.onColl f).pins = s.pins := rfl
@[simp] theorem State.onColl_fuses (f : Coll → Coll) : (s.onColl f).fuses = s.fuses := rfl
@[simp] theorem State.onColl_out (f : Coll → Coll) : (s.onColl f).out = s.out := rfl
@[simp] theorem State.onColl_free (f : Coll → Coll) : (s.onColl f).free = s.free := rfl
@[simp] theorem State.onColl_pending (f : Coll → Coll) : (s.onColl f).pending = s.pending := rfl

/-! ### onHbm -/

@[simp] theorem State.onHbm_regs (f : Hbm → Hbm) : (s.onHbm f).regs = s.regs := rfl
@[simp] theorem State.onHbm_live (f : Hbm → Hbm) : (s.onHbm f).live = s.live := rfl
@[simp] theorem State.onHbm_mem (f : Hbm → Hbm) : (s.onHbm f).mem = s.mem := rfl
@[simp] theorem State.onHbm_lines (f : Hbm → Hbm) : (s.onHbm f).lines = s.lines := rfl
@[simp] theorem State.onHbm_leaves (f : Hbm → Hbm) : (s.onHbm f).leaves = s.leaves := rfl
@[simp] theorem State.onHbm_remap (f : Hbm → Hbm) : (s.onHbm f).remap = s.remap := rfl
@[simp] theorem State.onHbm_restore (f : Hbm → Hbm) : (s.onHbm f).restore = s.restore := rfl
@[simp] theorem State.onHbm_leafRst (f : Hbm → Hbm) : (s.onHbm f).leafRst = s.leafRst := rfl
@[simp] theorem State.onHbm_bells (f : Hbm → Hbm) : (s.onHbm f).bells = s.bells := rfl
@[simp] theorem State.onHbm_fetched (f : Hbm → Hbm) : (s.onHbm f).fetched = s.fetched := rfl
@[simp] theorem State.onHbm_fence (f : Hbm → Hbm) : (s.onHbm f).fence = s.fence := rfl
@[simp] theorem State.onHbm_cmds (f : Hbm → Hbm) : (s.onHbm f).cmds = s.cmds := rfl
@[simp] theorem State.onHbm_knots (f : Hbm → Hbm) : (s.onHbm f).knots = s.knots := rfl
@[simp] theorem State.onHbm_mirrors (f : Hbm → Hbm) : (s.onHbm f).mirrors = s.mirrors := rfl
@[simp] theorem State.onHbm_mirrorLog (f : Hbm → Hbm) : (s.onHbm f).mirrorLog = s.mirrorLog := rfl
@[simp] theorem State.onHbm_granules (f : Hbm → Hbm) : (s.onHbm f).granules = s.granules := rfl
@[simp] theorem State.onHbm_kops (f : Hbm → Hbm) : (s.onHbm f).kops = s.kops := rfl
@[simp] theorem State.onHbm_fires (f : Hbm → Hbm) : (s.onHbm f).fires = s.fires := rfl
@[simp] theorem State.onHbm_ni (f : Hbm → Hbm) : (s.onHbm f).ni = s.ni := rfl
@[simp] theorem State.onHbm_coll (f : Hbm → Hbm) : (s.onHbm f).coll = s.coll := rfl
@[simp] theorem State.onHbm_limbs (f : Hbm → Hbm) : (s.onHbm f).limbs = s.limbs := rfl
@[simp] theorem State.onHbm_stands (f : Hbm → Hbm) : (s.onHbm f).stands = s.stands := rfl
@[simp] theorem State.onHbm_keys (f : Hbm → Hbm) : (s.onHbm f).keys = s.keys := rfl
@[simp] theorem State.onHbm_clk (f : Hbm → Hbm) : (s.onHbm f).clk = s.clk := rfl
@[simp] theorem State.onHbm_pwr (f : Hbm → Hbm) : (s.onHbm f).pwr = s.pwr := rfl
@[simp] theorem State.onHbm_boot (f : Hbm → Hbm) : (s.onHbm f).boot = s.boot := rfl
@[simp] theorem State.onHbm_hw (f : Hbm → Hbm) : (s.onHbm f).hw = s.hw := rfl
@[simp] theorem State.onHbm_fw (f : Hbm → Hbm) : (s.onHbm f).fw = s.fw := rfl
@[simp] theorem State.onHbm_obs (f : Hbm → Hbm) : (s.onHbm f).obs = s.obs := rfl
@[simp] theorem State.onHbm_pcie (f : Hbm → Hbm) : (s.onHbm f).pcie = s.pcie := rfl
@[simp] theorem State.onHbm_i3c (f : Hbm → Hbm) : (s.onHbm f).i3c = s.i3c := rfl
@[simp] theorem State.onHbm_pins (f : Hbm → Hbm) : (s.onHbm f).pins = s.pins := rfl
@[simp] theorem State.onHbm_fuses (f : Hbm → Hbm) : (s.onHbm f).fuses = s.fuses := rfl
@[simp] theorem State.onHbm_out (f : Hbm → Hbm) : (s.onHbm f).out = s.out := rfl
@[simp] theorem State.onHbm_free (f : Hbm → Hbm) : (s.onHbm f).free = s.free := rfl
@[simp] theorem State.onHbm_pending (f : Hbm → Hbm) : (s.onHbm f).pending = s.pending := rfl

/-! ### onKeys -/

@[simp] theorem State.onKeys_regs (f : Keys → Keys) : (s.onKeys f).regs = s.regs := rfl
@[simp] theorem State.onKeys_live (f : Keys → Keys) : (s.onKeys f).live = s.live := rfl
@[simp] theorem State.onKeys_mem (f : Keys → Keys) : (s.onKeys f).mem = s.mem := rfl
@[simp] theorem State.onKeys_lines (f : Keys → Keys) : (s.onKeys f).lines = s.lines := rfl
@[simp] theorem State.onKeys_leaves (f : Keys → Keys) : (s.onKeys f).leaves = s.leaves := rfl
@[simp] theorem State.onKeys_remap (f : Keys → Keys) : (s.onKeys f).remap = s.remap := rfl
@[simp] theorem State.onKeys_restore (f : Keys → Keys) : (s.onKeys f).restore = s.restore := rfl
@[simp] theorem State.onKeys_leafRst (f : Keys → Keys) : (s.onKeys f).leafRst = s.leafRst := rfl
@[simp] theorem State.onKeys_bells (f : Keys → Keys) : (s.onKeys f).bells = s.bells := rfl
@[simp] theorem State.onKeys_fetched (f : Keys → Keys) : (s.onKeys f).fetched = s.fetched := rfl
@[simp] theorem State.onKeys_fence (f : Keys → Keys) : (s.onKeys f).fence = s.fence := rfl
@[simp] theorem State.onKeys_cmds (f : Keys → Keys) : (s.onKeys f).cmds = s.cmds := rfl
@[simp] theorem State.onKeys_knots (f : Keys → Keys) : (s.onKeys f).knots = s.knots := rfl
@[simp] theorem State.onKeys_mirrors (f : Keys → Keys) : (s.onKeys f).mirrors = s.mirrors := rfl
@[simp] theorem State.onKeys_mirrorLog (f : Keys → Keys) : (s.onKeys f).mirrorLog = s.mirrorLog := rfl
@[simp] theorem State.onKeys_granules (f : Keys → Keys) : (s.onKeys f).granules = s.granules := rfl
@[simp] theorem State.onKeys_kops (f : Keys → Keys) : (s.onKeys f).kops = s.kops := rfl
@[simp] theorem State.onKeys_fires (f : Keys → Keys) : (s.onKeys f).fires = s.fires := rfl
@[simp] theorem State.onKeys_ni (f : Keys → Keys) : (s.onKeys f).ni = s.ni := rfl
@[simp] theorem State.onKeys_coll (f : Keys → Keys) : (s.onKeys f).coll = s.coll := rfl
@[simp] theorem State.onKeys_limbs (f : Keys → Keys) : (s.onKeys f).limbs = s.limbs := rfl
@[simp] theorem State.onKeys_stands (f : Keys → Keys) : (s.onKeys f).stands = s.stands := rfl
@[simp] theorem State.onKeys_hbm (f : Keys → Keys) : (s.onKeys f).hbm = s.hbm := rfl
@[simp] theorem State.onKeys_clk (f : Keys → Keys) : (s.onKeys f).clk = s.clk := rfl
@[simp] theorem State.onKeys_pwr (f : Keys → Keys) : (s.onKeys f).pwr = s.pwr := rfl
@[simp] theorem State.onKeys_boot (f : Keys → Keys) : (s.onKeys f).boot = s.boot := rfl
@[simp] theorem State.onKeys_hw (f : Keys → Keys) : (s.onKeys f).hw = s.hw := rfl
@[simp] theorem State.onKeys_fw (f : Keys → Keys) : (s.onKeys f).fw = s.fw := rfl
@[simp] theorem State.onKeys_obs (f : Keys → Keys) : (s.onKeys f).obs = s.obs := rfl
@[simp] theorem State.onKeys_pcie (f : Keys → Keys) : (s.onKeys f).pcie = s.pcie := rfl
@[simp] theorem State.onKeys_i3c (f : Keys → Keys) : (s.onKeys f).i3c = s.i3c := rfl
@[simp] theorem State.onKeys_pins (f : Keys → Keys) : (s.onKeys f).pins = s.pins := rfl
@[simp] theorem State.onKeys_fuses (f : Keys → Keys) : (s.onKeys f).fuses = s.fuses := rfl
@[simp] theorem State.onKeys_out (f : Keys → Keys) : (s.onKeys f).out = s.out := rfl
@[simp] theorem State.onKeys_free (f : Keys → Keys) : (s.onKeys f).free = s.free := rfl
@[simp] theorem State.onKeys_pending (f : Keys → Keys) : (s.onKeys f).pending = s.pending := rfl

/-! ### onClk -/

@[simp] theorem State.onClk_regs (f : Clock → Clock) : (s.onClk f).regs = s.regs := rfl
@[simp] theorem State.onClk_live (f : Clock → Clock) : (s.onClk f).live = s.live := rfl
@[simp] theorem State.onClk_mem (f : Clock → Clock) : (s.onClk f).mem = s.mem := rfl
@[simp] theorem State.onClk_lines (f : Clock → Clock) : (s.onClk f).lines = s.lines := rfl
@[simp] theorem State.onClk_leaves (f : Clock → Clock) : (s.onClk f).leaves = s.leaves := rfl
@[simp] theorem State.onClk_remap (f : Clock → Clock) : (s.onClk f).remap = s.remap := rfl
@[simp] theorem State.onClk_restore (f : Clock → Clock) : (s.onClk f).restore = s.restore := rfl
@[simp] theorem State.onClk_leafRst (f : Clock → Clock) : (s.onClk f).leafRst = s.leafRst := rfl
@[simp] theorem State.onClk_bells (f : Clock → Clock) : (s.onClk f).bells = s.bells := rfl
@[simp] theorem State.onClk_fetched (f : Clock → Clock) : (s.onClk f).fetched = s.fetched := rfl
@[simp] theorem State.onClk_fence (f : Clock → Clock) : (s.onClk f).fence = s.fence := rfl
@[simp] theorem State.onClk_cmds (f : Clock → Clock) : (s.onClk f).cmds = s.cmds := rfl
@[simp] theorem State.onClk_knots (f : Clock → Clock) : (s.onClk f).knots = s.knots := rfl
@[simp] theorem State.onClk_mirrors (f : Clock → Clock) : (s.onClk f).mirrors = s.mirrors := rfl
@[simp] theorem State.onClk_mirrorLog (f : Clock → Clock) : (s.onClk f).mirrorLog = s.mirrorLog := rfl
@[simp] theorem State.onClk_granules (f : Clock → Clock) : (s.onClk f).granules = s.granules := rfl
@[simp] theorem State.onClk_kops (f : Clock → Clock) : (s.onClk f).kops = s.kops := rfl
@[simp] theorem State.onClk_fires (f : Clock → Clock) : (s.onClk f).fires = s.fires := rfl
@[simp] theorem State.onClk_ni (f : Clock → Clock) : (s.onClk f).ni = s.ni := rfl
@[simp] theorem State.onClk_coll (f : Clock → Clock) : (s.onClk f).coll = s.coll := rfl
@[simp] theorem State.onClk_limbs (f : Clock → Clock) : (s.onClk f).limbs = s.limbs := rfl
@[simp] theorem State.onClk_stands (f : Clock → Clock) : (s.onClk f).stands = s.stands := rfl
@[simp] theorem State.onClk_hbm (f : Clock → Clock) : (s.onClk f).hbm = s.hbm := rfl
@[simp] theorem State.onClk_keys (f : Clock → Clock) : (s.onClk f).keys = s.keys := rfl
@[simp] theorem State.onClk_pwr (f : Clock → Clock) : (s.onClk f).pwr = s.pwr := rfl
@[simp] theorem State.onClk_boot (f : Clock → Clock) : (s.onClk f).boot = s.boot := rfl
@[simp] theorem State.onClk_hw (f : Clock → Clock) : (s.onClk f).hw = s.hw := rfl
@[simp] theorem State.onClk_fw (f : Clock → Clock) : (s.onClk f).fw = s.fw := rfl
@[simp] theorem State.onClk_obs (f : Clock → Clock) : (s.onClk f).obs = s.obs := rfl
@[simp] theorem State.onClk_pcie (f : Clock → Clock) : (s.onClk f).pcie = s.pcie := rfl
@[simp] theorem State.onClk_i3c (f : Clock → Clock) : (s.onClk f).i3c = s.i3c := rfl
@[simp] theorem State.onClk_pins (f : Clock → Clock) : (s.onClk f).pins = s.pins := rfl
@[simp] theorem State.onClk_fuses (f : Clock → Clock) : (s.onClk f).fuses = s.fuses := rfl
@[simp] theorem State.onClk_out (f : Clock → Clock) : (s.onClk f).out = s.out := rfl
@[simp] theorem State.onClk_free (f : Clock → Clock) : (s.onClk f).free = s.free := rfl
@[simp] theorem State.onClk_pending (f : Clock → Clock) : (s.onClk f).pending = s.pending := rfl

/-! ### onPwr -/

@[simp] theorem State.onPwr_regs (f : Power → Power) : (s.onPwr f).regs = s.regs := rfl
@[simp] theorem State.onPwr_live (f : Power → Power) : (s.onPwr f).live = s.live := rfl
@[simp] theorem State.onPwr_mem (f : Power → Power) : (s.onPwr f).mem = s.mem := rfl
@[simp] theorem State.onPwr_lines (f : Power → Power) : (s.onPwr f).lines = s.lines := rfl
@[simp] theorem State.onPwr_leaves (f : Power → Power) : (s.onPwr f).leaves = s.leaves := rfl
@[simp] theorem State.onPwr_remap (f : Power → Power) : (s.onPwr f).remap = s.remap := rfl
@[simp] theorem State.onPwr_restore (f : Power → Power) : (s.onPwr f).restore = s.restore := rfl
@[simp] theorem State.onPwr_leafRst (f : Power → Power) : (s.onPwr f).leafRst = s.leafRst := rfl
@[simp] theorem State.onPwr_bells (f : Power → Power) : (s.onPwr f).bells = s.bells := rfl
@[simp] theorem State.onPwr_fetched (f : Power → Power) : (s.onPwr f).fetched = s.fetched := rfl
@[simp] theorem State.onPwr_fence (f : Power → Power) : (s.onPwr f).fence = s.fence := rfl
@[simp] theorem State.onPwr_cmds (f : Power → Power) : (s.onPwr f).cmds = s.cmds := rfl
@[simp] theorem State.onPwr_knots (f : Power → Power) : (s.onPwr f).knots = s.knots := rfl
@[simp] theorem State.onPwr_mirrors (f : Power → Power) : (s.onPwr f).mirrors = s.mirrors := rfl
@[simp] theorem State.onPwr_mirrorLog (f : Power → Power) : (s.onPwr f).mirrorLog = s.mirrorLog := rfl
@[simp] theorem State.onPwr_granules (f : Power → Power) : (s.onPwr f).granules = s.granules := rfl
@[simp] theorem State.onPwr_kops (f : Power → Power) : (s.onPwr f).kops = s.kops := rfl
@[simp] theorem State.onPwr_fires (f : Power → Power) : (s.onPwr f).fires = s.fires := rfl
@[simp] theorem State.onPwr_ni (f : Power → Power) : (s.onPwr f).ni = s.ni := rfl
@[simp] theorem State.onPwr_coll (f : Power → Power) : (s.onPwr f).coll = s.coll := rfl
@[simp] theorem State.onPwr_limbs (f : Power → Power) : (s.onPwr f).limbs = s.limbs := rfl
@[simp] theorem State.onPwr_stands (f : Power → Power) : (s.onPwr f).stands = s.stands := rfl
@[simp] theorem State.onPwr_hbm (f : Power → Power) : (s.onPwr f).hbm = s.hbm := rfl
@[simp] theorem State.onPwr_keys (f : Power → Power) : (s.onPwr f).keys = s.keys := rfl
@[simp] theorem State.onPwr_clk (f : Power → Power) : (s.onPwr f).clk = s.clk := rfl
@[simp] theorem State.onPwr_boot (f : Power → Power) : (s.onPwr f).boot = s.boot := rfl
@[simp] theorem State.onPwr_hw (f : Power → Power) : (s.onPwr f).hw = s.hw := rfl
@[simp] theorem State.onPwr_fw (f : Power → Power) : (s.onPwr f).fw = s.fw := rfl
@[simp] theorem State.onPwr_obs (f : Power → Power) : (s.onPwr f).obs = s.obs := rfl
@[simp] theorem State.onPwr_pcie (f : Power → Power) : (s.onPwr f).pcie = s.pcie := rfl
@[simp] theorem State.onPwr_i3c (f : Power → Power) : (s.onPwr f).i3c = s.i3c := rfl
@[simp] theorem State.onPwr_pins (f : Power → Power) : (s.onPwr f).pins = s.pins := rfl
@[simp] theorem State.onPwr_fuses (f : Power → Power) : (s.onPwr f).fuses = s.fuses := rfl
@[simp] theorem State.onPwr_out (f : Power → Power) : (s.onPwr f).out = s.out := rfl
@[simp] theorem State.onPwr_free (f : Power → Power) : (s.onPwr f).free = s.free := rfl
@[simp] theorem State.onPwr_pending (f : Power → Power) : (s.onPwr f).pending = s.pending := rfl

/-! ### onBoot -/

@[simp] theorem State.onBoot_regs (f : Boot → Boot) : (s.onBoot f).regs = s.regs := rfl
@[simp] theorem State.onBoot_live (f : Boot → Boot) : (s.onBoot f).live = s.live := rfl
@[simp] theorem State.onBoot_mem (f : Boot → Boot) : (s.onBoot f).mem = s.mem := rfl
@[simp] theorem State.onBoot_lines (f : Boot → Boot) : (s.onBoot f).lines = s.lines := rfl
@[simp] theorem State.onBoot_leaves (f : Boot → Boot) : (s.onBoot f).leaves = s.leaves := rfl
@[simp] theorem State.onBoot_remap (f : Boot → Boot) : (s.onBoot f).remap = s.remap := rfl
@[simp] theorem State.onBoot_restore (f : Boot → Boot) : (s.onBoot f).restore = s.restore := rfl
@[simp] theorem State.onBoot_leafRst (f : Boot → Boot) : (s.onBoot f).leafRst = s.leafRst := rfl
@[simp] theorem State.onBoot_bells (f : Boot → Boot) : (s.onBoot f).bells = s.bells := rfl
@[simp] theorem State.onBoot_fetched (f : Boot → Boot) : (s.onBoot f).fetched = s.fetched := rfl
@[simp] theorem State.onBoot_fence (f : Boot → Boot) : (s.onBoot f).fence = s.fence := rfl
@[simp] theorem State.onBoot_cmds (f : Boot → Boot) : (s.onBoot f).cmds = s.cmds := rfl
@[simp] theorem State.onBoot_knots (f : Boot → Boot) : (s.onBoot f).knots = s.knots := rfl
@[simp] theorem State.onBoot_mirrors (f : Boot → Boot) : (s.onBoot f).mirrors = s.mirrors := rfl
@[simp] theorem State.onBoot_mirrorLog (f : Boot → Boot) : (s.onBoot f).mirrorLog = s.mirrorLog := rfl
@[simp] theorem State.onBoot_granules (f : Boot → Boot) : (s.onBoot f).granules = s.granules := rfl
@[simp] theorem State.onBoot_kops (f : Boot → Boot) : (s.onBoot f).kops = s.kops := rfl
@[simp] theorem State.onBoot_fires (f : Boot → Boot) : (s.onBoot f).fires = s.fires := rfl
@[simp] theorem State.onBoot_ni (f : Boot → Boot) : (s.onBoot f).ni = s.ni := rfl
@[simp] theorem State.onBoot_coll (f : Boot → Boot) : (s.onBoot f).coll = s.coll := rfl
@[simp] theorem State.onBoot_limbs (f : Boot → Boot) : (s.onBoot f).limbs = s.limbs := rfl
@[simp] theorem State.onBoot_stands (f : Boot → Boot) : (s.onBoot f).stands = s.stands := rfl
@[simp] theorem State.onBoot_hbm (f : Boot → Boot) : (s.onBoot f).hbm = s.hbm := rfl
@[simp] theorem State.onBoot_keys (f : Boot → Boot) : (s.onBoot f).keys = s.keys := rfl
@[simp] theorem State.onBoot_clk (f : Boot → Boot) : (s.onBoot f).clk = s.clk := rfl
@[simp] theorem State.onBoot_pwr (f : Boot → Boot) : (s.onBoot f).pwr = s.pwr := rfl
@[simp] theorem State.onBoot_hw (f : Boot → Boot) : (s.onBoot f).hw = s.hw := rfl
@[simp] theorem State.onBoot_fw (f : Boot → Boot) : (s.onBoot f).fw = s.fw := rfl
@[simp] theorem State.onBoot_obs (f : Boot → Boot) : (s.onBoot f).obs = s.obs := rfl
@[simp] theorem State.onBoot_pcie (f : Boot → Boot) : (s.onBoot f).pcie = s.pcie := rfl
@[simp] theorem State.onBoot_i3c (f : Boot → Boot) : (s.onBoot f).i3c = s.i3c := rfl
@[simp] theorem State.onBoot_pins (f : Boot → Boot) : (s.onBoot f).pins = s.pins := rfl
@[simp] theorem State.onBoot_fuses (f : Boot → Boot) : (s.onBoot f).fuses = s.fuses := rfl
@[simp] theorem State.onBoot_out (f : Boot → Boot) : (s.onBoot f).out = s.out := rfl
@[simp] theorem State.onBoot_free (f : Boot → Boot) : (s.onBoot f).free = s.free := rfl
@[simp] theorem State.onBoot_pending (f : Boot → Boot) : (s.onBoot f).pending = s.pending := rfl

/-! ### onHw -/

@[simp] theorem State.onHw_regs (f : Hw → Hw) : (s.onHw f).regs = s.regs := rfl
@[simp] theorem State.onHw_live (f : Hw → Hw) : (s.onHw f).live = s.live := rfl
@[simp] theorem State.onHw_mem (f : Hw → Hw) : (s.onHw f).mem = s.mem := rfl
@[simp] theorem State.onHw_lines (f : Hw → Hw) : (s.onHw f).lines = s.lines := rfl
@[simp] theorem State.onHw_leaves (f : Hw → Hw) : (s.onHw f).leaves = s.leaves := rfl
@[simp] theorem State.onHw_remap (f : Hw → Hw) : (s.onHw f).remap = s.remap := rfl
@[simp] theorem State.onHw_restore (f : Hw → Hw) : (s.onHw f).restore = s.restore := rfl
@[simp] theorem State.onHw_leafRst (f : Hw → Hw) : (s.onHw f).leafRst = s.leafRst := rfl
@[simp] theorem State.onHw_bells (f : Hw → Hw) : (s.onHw f).bells = s.bells := rfl
@[simp] theorem State.onHw_fetched (f : Hw → Hw) : (s.onHw f).fetched = s.fetched := rfl
@[simp] theorem State.onHw_fence (f : Hw → Hw) : (s.onHw f).fence = s.fence := rfl
@[simp] theorem State.onHw_cmds (f : Hw → Hw) : (s.onHw f).cmds = s.cmds := rfl
@[simp] theorem State.onHw_knots (f : Hw → Hw) : (s.onHw f).knots = s.knots := rfl
@[simp] theorem State.onHw_mirrors (f : Hw → Hw) : (s.onHw f).mirrors = s.mirrors := rfl
@[simp] theorem State.onHw_mirrorLog (f : Hw → Hw) : (s.onHw f).mirrorLog = s.mirrorLog := rfl
@[simp] theorem State.onHw_granules (f : Hw → Hw) : (s.onHw f).granules = s.granules := rfl
@[simp] theorem State.onHw_kops (f : Hw → Hw) : (s.onHw f).kops = s.kops := rfl
@[simp] theorem State.onHw_fires (f : Hw → Hw) : (s.onHw f).fires = s.fires := rfl
@[simp] theorem State.onHw_ni (f : Hw → Hw) : (s.onHw f).ni = s.ni := rfl
@[simp] theorem State.onHw_coll (f : Hw → Hw) : (s.onHw f).coll = s.coll := rfl
@[simp] theorem State.onHw_limbs (f : Hw → Hw) : (s.onHw f).limbs = s.limbs := rfl
@[simp] theorem State.onHw_stands (f : Hw → Hw) : (s.onHw f).stands = s.stands := rfl
@[simp] theorem State.onHw_hbm (f : Hw → Hw) : (s.onHw f).hbm = s.hbm := rfl
@[simp] theorem State.onHw_keys (f : Hw → Hw) : (s.onHw f).keys = s.keys := rfl
@[simp] theorem State.onHw_clk (f : Hw → Hw) : (s.onHw f).clk = s.clk := rfl
@[simp] theorem State.onHw_pwr (f : Hw → Hw) : (s.onHw f).pwr = s.pwr := rfl
@[simp] theorem State.onHw_boot (f : Hw → Hw) : (s.onHw f).boot = s.boot := rfl
@[simp] theorem State.onHw_fw (f : Hw → Hw) : (s.onHw f).fw = s.fw := rfl
@[simp] theorem State.onHw_obs (f : Hw → Hw) : (s.onHw f).obs = s.obs := rfl
@[simp] theorem State.onHw_pcie (f : Hw → Hw) : (s.onHw f).pcie = s.pcie := rfl
@[simp] theorem State.onHw_i3c (f : Hw → Hw) : (s.onHw f).i3c = s.i3c := rfl
@[simp] theorem State.onHw_pins (f : Hw → Hw) : (s.onHw f).pins = s.pins := rfl
@[simp] theorem State.onHw_fuses (f : Hw → Hw) : (s.onHw f).fuses = s.fuses := rfl
@[simp] theorem State.onHw_out (f : Hw → Hw) : (s.onHw f).out = s.out := rfl
@[simp] theorem State.onHw_free (f : Hw → Hw) : (s.onHw f).free = s.free := rfl
@[simp] theorem State.onHw_pending (f : Hw → Hw) : (s.onHw f).pending = s.pending := rfl

/-! ### onFw -/

@[simp] theorem State.onFw_regs (f : Fw → Fw) : (s.onFw f).regs = s.regs := rfl
@[simp] theorem State.onFw_live (f : Fw → Fw) : (s.onFw f).live = s.live := rfl
@[simp] theorem State.onFw_mem (f : Fw → Fw) : (s.onFw f).mem = s.mem := rfl
@[simp] theorem State.onFw_lines (f : Fw → Fw) : (s.onFw f).lines = s.lines := rfl
@[simp] theorem State.onFw_leaves (f : Fw → Fw) : (s.onFw f).leaves = s.leaves := rfl
@[simp] theorem State.onFw_remap (f : Fw → Fw) : (s.onFw f).remap = s.remap := rfl
@[simp] theorem State.onFw_restore (f : Fw → Fw) : (s.onFw f).restore = s.restore := rfl
@[simp] theorem State.onFw_leafRst (f : Fw → Fw) : (s.onFw f).leafRst = s.leafRst := rfl
@[simp] theorem State.onFw_bells (f : Fw → Fw) : (s.onFw f).bells = s.bells := rfl
@[simp] theorem State.onFw_fetched (f : Fw → Fw) : (s.onFw f).fetched = s.fetched := rfl
@[simp] theorem State.onFw_fence (f : Fw → Fw) : (s.onFw f).fence = s.fence := rfl
@[simp] theorem State.onFw_cmds (f : Fw → Fw) : (s.onFw f).cmds = s.cmds := rfl
@[simp] theorem State.onFw_knots (f : Fw → Fw) : (s.onFw f).knots = s.knots := rfl
@[simp] theorem State.onFw_mirrors (f : Fw → Fw) : (s.onFw f).mirrors = s.mirrors := rfl
@[simp] theorem State.onFw_mirrorLog (f : Fw → Fw) : (s.onFw f).mirrorLog = s.mirrorLog := rfl
@[simp] theorem State.onFw_granules (f : Fw → Fw) : (s.onFw f).granules = s.granules := rfl
@[simp] theorem State.onFw_kops (f : Fw → Fw) : (s.onFw f).kops = s.kops := rfl
@[simp] theorem State.onFw_fires (f : Fw → Fw) : (s.onFw f).fires = s.fires := rfl
@[simp] theorem State.onFw_ni (f : Fw → Fw) : (s.onFw f).ni = s.ni := rfl
@[simp] theorem State.onFw_coll (f : Fw → Fw) : (s.onFw f).coll = s.coll := rfl
@[simp] theorem State.onFw_limbs (f : Fw → Fw) : (s.onFw f).limbs = s.limbs := rfl
@[simp] theorem State.onFw_stands (f : Fw → Fw) : (s.onFw f).stands = s.stands := rfl
@[simp] theorem State.onFw_hbm (f : Fw → Fw) : (s.onFw f).hbm = s.hbm := rfl
@[simp] theorem State.onFw_keys (f : Fw → Fw) : (s.onFw f).keys = s.keys := rfl
@[simp] theorem State.onFw_clk (f : Fw → Fw) : (s.onFw f).clk = s.clk := rfl
@[simp] theorem State.onFw_pwr (f : Fw → Fw) : (s.onFw f).pwr = s.pwr := rfl
@[simp] theorem State.onFw_boot (f : Fw → Fw) : (s.onFw f).boot = s.boot := rfl
@[simp] theorem State.onFw_hw (f : Fw → Fw) : (s.onFw f).hw = s.hw := rfl
@[simp] theorem State.onFw_obs (f : Fw → Fw) : (s.onFw f).obs = s.obs := rfl
@[simp] theorem State.onFw_pcie (f : Fw → Fw) : (s.onFw f).pcie = s.pcie := rfl
@[simp] theorem State.onFw_i3c (f : Fw → Fw) : (s.onFw f).i3c = s.i3c := rfl
@[simp] theorem State.onFw_pins (f : Fw → Fw) : (s.onFw f).pins = s.pins := rfl
@[simp] theorem State.onFw_fuses (f : Fw → Fw) : (s.onFw f).fuses = s.fuses := rfl
@[simp] theorem State.onFw_out (f : Fw → Fw) : (s.onFw f).out = s.out := rfl
@[simp] theorem State.onFw_free (f : Fw → Fw) : (s.onFw f).free = s.free := rfl
@[simp] theorem State.onFw_pending (f : Fw → Fw) : (s.onFw f).pending = s.pending := rfl

/-! ### onObs -/

@[simp] theorem State.onObs_regs (f : Obs → Obs) : (s.onObs f).regs = s.regs := rfl
@[simp] theorem State.onObs_live (f : Obs → Obs) : (s.onObs f).live = s.live := rfl
@[simp] theorem State.onObs_mem (f : Obs → Obs) : (s.onObs f).mem = s.mem := rfl
@[simp] theorem State.onObs_lines (f : Obs → Obs) : (s.onObs f).lines = s.lines := rfl
@[simp] theorem State.onObs_leaves (f : Obs → Obs) : (s.onObs f).leaves = s.leaves := rfl
@[simp] theorem State.onObs_remap (f : Obs → Obs) : (s.onObs f).remap = s.remap := rfl
@[simp] theorem State.onObs_restore (f : Obs → Obs) : (s.onObs f).restore = s.restore := rfl
@[simp] theorem State.onObs_leafRst (f : Obs → Obs) : (s.onObs f).leafRst = s.leafRst := rfl
@[simp] theorem State.onObs_bells (f : Obs → Obs) : (s.onObs f).bells = s.bells := rfl
@[simp] theorem State.onObs_fetched (f : Obs → Obs) : (s.onObs f).fetched = s.fetched := rfl
@[simp] theorem State.onObs_fence (f : Obs → Obs) : (s.onObs f).fence = s.fence := rfl
@[simp] theorem State.onObs_cmds (f : Obs → Obs) : (s.onObs f).cmds = s.cmds := rfl
@[simp] theorem State.onObs_knots (f : Obs → Obs) : (s.onObs f).knots = s.knots := rfl
@[simp] theorem State.onObs_mirrors (f : Obs → Obs) : (s.onObs f).mirrors = s.mirrors := rfl
@[simp] theorem State.onObs_mirrorLog (f : Obs → Obs) : (s.onObs f).mirrorLog = s.mirrorLog := rfl
@[simp] theorem State.onObs_granules (f : Obs → Obs) : (s.onObs f).granules = s.granules := rfl
@[simp] theorem State.onObs_kops (f : Obs → Obs) : (s.onObs f).kops = s.kops := rfl
@[simp] theorem State.onObs_fires (f : Obs → Obs) : (s.onObs f).fires = s.fires := rfl
@[simp] theorem State.onObs_ni (f : Obs → Obs) : (s.onObs f).ni = s.ni := rfl
@[simp] theorem State.onObs_coll (f : Obs → Obs) : (s.onObs f).coll = s.coll := rfl
@[simp] theorem State.onObs_limbs (f : Obs → Obs) : (s.onObs f).limbs = s.limbs := rfl
@[simp] theorem State.onObs_stands (f : Obs → Obs) : (s.onObs f).stands = s.stands := rfl
@[simp] theorem State.onObs_hbm (f : Obs → Obs) : (s.onObs f).hbm = s.hbm := rfl
@[simp] theorem State.onObs_keys (f : Obs → Obs) : (s.onObs f).keys = s.keys := rfl
@[simp] theorem State.onObs_clk (f : Obs → Obs) : (s.onObs f).clk = s.clk := rfl
@[simp] theorem State.onObs_pwr (f : Obs → Obs) : (s.onObs f).pwr = s.pwr := rfl
@[simp] theorem State.onObs_boot (f : Obs → Obs) : (s.onObs f).boot = s.boot := rfl
@[simp] theorem State.onObs_hw (f : Obs → Obs) : (s.onObs f).hw = s.hw := rfl
@[simp] theorem State.onObs_fw (f : Obs → Obs) : (s.onObs f).fw = s.fw := rfl
@[simp] theorem State.onObs_pcie (f : Obs → Obs) : (s.onObs f).pcie = s.pcie := rfl
@[simp] theorem State.onObs_i3c (f : Obs → Obs) : (s.onObs f).i3c = s.i3c := rfl
@[simp] theorem State.onObs_pins (f : Obs → Obs) : (s.onObs f).pins = s.pins := rfl
@[simp] theorem State.onObs_fuses (f : Obs → Obs) : (s.onObs f).fuses = s.fuses := rfl
@[simp] theorem State.onObs_out (f : Obs → Obs) : (s.onObs f).out = s.out := rfl
@[simp] theorem State.onObs_free (f : Obs → Obs) : (s.onObs f).free = s.free := rfl
@[simp] theorem State.onObs_pending (f : Obs → Obs) : (s.onObs f).pending = s.pending := rfl

/-! ### onPcie -/

@[simp] theorem State.onPcie_regs (f : Pcie → Pcie) : (s.onPcie f).regs = s.regs := rfl
@[simp] theorem State.onPcie_live (f : Pcie → Pcie) : (s.onPcie f).live = s.live := rfl
@[simp] theorem State.onPcie_mem (f : Pcie → Pcie) : (s.onPcie f).mem = s.mem := rfl
@[simp] theorem State.onPcie_lines (f : Pcie → Pcie) : (s.onPcie f).lines = s.lines := rfl
@[simp] theorem State.onPcie_leaves (f : Pcie → Pcie) : (s.onPcie f).leaves = s.leaves := rfl
@[simp] theorem State.onPcie_remap (f : Pcie → Pcie) : (s.onPcie f).remap = s.remap := rfl
@[simp] theorem State.onPcie_restore (f : Pcie → Pcie) : (s.onPcie f).restore = s.restore := rfl
@[simp] theorem State.onPcie_leafRst (f : Pcie → Pcie) : (s.onPcie f).leafRst = s.leafRst := rfl
@[simp] theorem State.onPcie_bells (f : Pcie → Pcie) : (s.onPcie f).bells = s.bells := rfl
@[simp] theorem State.onPcie_fetched (f : Pcie → Pcie) : (s.onPcie f).fetched = s.fetched := rfl
@[simp] theorem State.onPcie_fence (f : Pcie → Pcie) : (s.onPcie f).fence = s.fence := rfl
@[simp] theorem State.onPcie_cmds (f : Pcie → Pcie) : (s.onPcie f).cmds = s.cmds := rfl
@[simp] theorem State.onPcie_knots (f : Pcie → Pcie) : (s.onPcie f).knots = s.knots := rfl
@[simp] theorem State.onPcie_mirrors (f : Pcie → Pcie) : (s.onPcie f).mirrors = s.mirrors := rfl
@[simp] theorem State.onPcie_mirrorLog (f : Pcie → Pcie) : (s.onPcie f).mirrorLog = s.mirrorLog := rfl
@[simp] theorem State.onPcie_granules (f : Pcie → Pcie) : (s.onPcie f).granules = s.granules := rfl
@[simp] theorem State.onPcie_kops (f : Pcie → Pcie) : (s.onPcie f).kops = s.kops := rfl
@[simp] theorem State.onPcie_fires (f : Pcie → Pcie) : (s.onPcie f).fires = s.fires := rfl
@[simp] theorem State.onPcie_ni (f : Pcie → Pcie) : (s.onPcie f).ni = s.ni := rfl
@[simp] theorem State.onPcie_coll (f : Pcie → Pcie) : (s.onPcie f).coll = s.coll := rfl
@[simp] theorem State.onPcie_limbs (f : Pcie → Pcie) : (s.onPcie f).limbs = s.limbs := rfl
@[simp] theorem State.onPcie_stands (f : Pcie → Pcie) : (s.onPcie f).stands = s.stands := rfl
@[simp] theorem State.onPcie_hbm (f : Pcie → Pcie) : (s.onPcie f).hbm = s.hbm := rfl
@[simp] theorem State.onPcie_keys (f : Pcie → Pcie) : (s.onPcie f).keys = s.keys := rfl
@[simp] theorem State.onPcie_clk (f : Pcie → Pcie) : (s.onPcie f).clk = s.clk := rfl
@[simp] theorem State.onPcie_pwr (f : Pcie → Pcie) : (s.onPcie f).pwr = s.pwr := rfl
@[simp] theorem State.onPcie_boot (f : Pcie → Pcie) : (s.onPcie f).boot = s.boot := rfl
@[simp] theorem State.onPcie_hw (f : Pcie → Pcie) : (s.onPcie f).hw = s.hw := rfl
@[simp] theorem State.onPcie_fw (f : Pcie → Pcie) : (s.onPcie f).fw = s.fw := rfl
@[simp] theorem State.onPcie_obs (f : Pcie → Pcie) : (s.onPcie f).obs = s.obs := rfl
@[simp] theorem State.onPcie_i3c (f : Pcie → Pcie) : (s.onPcie f).i3c = s.i3c := rfl
@[simp] theorem State.onPcie_pins (f : Pcie → Pcie) : (s.onPcie f).pins = s.pins := rfl
@[simp] theorem State.onPcie_fuses (f : Pcie → Pcie) : (s.onPcie f).fuses = s.fuses := rfl
@[simp] theorem State.onPcie_out (f : Pcie → Pcie) : (s.onPcie f).out = s.out := rfl
@[simp] theorem State.onPcie_free (f : Pcie → Pcie) : (s.onPcie f).free = s.free := rfl
@[simp] theorem State.onPcie_pending (f : Pcie → Pcie) : (s.onPcie f).pending = s.pending := rfl

/-! ### onI3c -/

@[simp] theorem State.onI3c_regs (f : I3c → I3c) : (s.onI3c f).regs = s.regs := rfl
@[simp] theorem State.onI3c_live (f : I3c → I3c) : (s.onI3c f).live = s.live := rfl
@[simp] theorem State.onI3c_mem (f : I3c → I3c) : (s.onI3c f).mem = s.mem := rfl
@[simp] theorem State.onI3c_lines (f : I3c → I3c) : (s.onI3c f).lines = s.lines := rfl
@[simp] theorem State.onI3c_leaves (f : I3c → I3c) : (s.onI3c f).leaves = s.leaves := rfl
@[simp] theorem State.onI3c_remap (f : I3c → I3c) : (s.onI3c f).remap = s.remap := rfl
@[simp] theorem State.onI3c_restore (f : I3c → I3c) : (s.onI3c f).restore = s.restore := rfl
@[simp] theorem State.onI3c_leafRst (f : I3c → I3c) : (s.onI3c f).leafRst = s.leafRst := rfl
@[simp] theorem State.onI3c_bells (f : I3c → I3c) : (s.onI3c f).bells = s.bells := rfl
@[simp] theorem State.onI3c_fetched (f : I3c → I3c) : (s.onI3c f).fetched = s.fetched := rfl
@[simp] theorem State.onI3c_fence (f : I3c → I3c) : (s.onI3c f).fence = s.fence := rfl
@[simp] theorem State.onI3c_cmds (f : I3c → I3c) : (s.onI3c f).cmds = s.cmds := rfl
@[simp] theorem State.onI3c_knots (f : I3c → I3c) : (s.onI3c f).knots = s.knots := rfl
@[simp] theorem State.onI3c_mirrors (f : I3c → I3c) : (s.onI3c f).mirrors = s.mirrors := rfl
@[simp] theorem State.onI3c_mirrorLog (f : I3c → I3c) : (s.onI3c f).mirrorLog = s.mirrorLog := rfl
@[simp] theorem State.onI3c_granules (f : I3c → I3c) : (s.onI3c f).granules = s.granules := rfl
@[simp] theorem State.onI3c_kops (f : I3c → I3c) : (s.onI3c f).kops = s.kops := rfl
@[simp] theorem State.onI3c_fires (f : I3c → I3c) : (s.onI3c f).fires = s.fires := rfl
@[simp] theorem State.onI3c_ni (f : I3c → I3c) : (s.onI3c f).ni = s.ni := rfl
@[simp] theorem State.onI3c_coll (f : I3c → I3c) : (s.onI3c f).coll = s.coll := rfl
@[simp] theorem State.onI3c_limbs (f : I3c → I3c) : (s.onI3c f).limbs = s.limbs := rfl
@[simp] theorem State.onI3c_stands (f : I3c → I3c) : (s.onI3c f).stands = s.stands := rfl
@[simp] theorem State.onI3c_hbm (f : I3c → I3c) : (s.onI3c f).hbm = s.hbm := rfl
@[simp] theorem State.onI3c_keys (f : I3c → I3c) : (s.onI3c f).keys = s.keys := rfl
@[simp] theorem State.onI3c_clk (f : I3c → I3c) : (s.onI3c f).clk = s.clk := rfl
@[simp] theorem State.onI3c_pwr (f : I3c → I3c) : (s.onI3c f).pwr = s.pwr := rfl
@[simp] theorem State.onI3c_boot (f : I3c → I3c) : (s.onI3c f).boot = s.boot := rfl
@[simp] theorem State.onI3c_hw (f : I3c → I3c) : (s.onI3c f).hw = s.hw := rfl
@[simp] theorem State.onI3c_fw (f : I3c → I3c) : (s.onI3c f).fw = s.fw := rfl
@[simp] theorem State.onI3c_obs (f : I3c → I3c) : (s.onI3c f).obs = s.obs := rfl
@[simp] theorem State.onI3c_pcie (f : I3c → I3c) : (s.onI3c f).pcie = s.pcie := rfl
@[simp] theorem State.onI3c_pins (f : I3c → I3c) : (s.onI3c f).pins = s.pins := rfl
@[simp] theorem State.onI3c_fuses (f : I3c → I3c) : (s.onI3c f).fuses = s.fuses := rfl
@[simp] theorem State.onI3c_out (f : I3c → I3c) : (s.onI3c f).out = s.out := rfl
@[simp] theorem State.onI3c_free (f : I3c → I3c) : (s.onI3c f).free = s.free := rfl
@[simp] theorem State.onI3c_pending (f : I3c → I3c) : (s.onI3c f).pending = s.pending := rfl

/-! ### onPins -/

@[simp] theorem State.onPins_regs (f : Pins → Pins) : (s.onPins f).regs = s.regs := rfl
@[simp] theorem State.onPins_live (f : Pins → Pins) : (s.onPins f).live = s.live := rfl
@[simp] theorem State.onPins_mem (f : Pins → Pins) : (s.onPins f).mem = s.mem := rfl
@[simp] theorem State.onPins_lines (f : Pins → Pins) : (s.onPins f).lines = s.lines := rfl
@[simp] theorem State.onPins_leaves (f : Pins → Pins) : (s.onPins f).leaves = s.leaves := rfl
@[simp] theorem State.onPins_remap (f : Pins → Pins) : (s.onPins f).remap = s.remap := rfl
@[simp] theorem State.onPins_restore (f : Pins → Pins) : (s.onPins f).restore = s.restore := rfl
@[simp] theorem State.onPins_leafRst (f : Pins → Pins) : (s.onPins f).leafRst = s.leafRst := rfl
@[simp] theorem State.onPins_bells (f : Pins → Pins) : (s.onPins f).bells = s.bells := rfl
@[simp] theorem State.onPins_fetched (f : Pins → Pins) : (s.onPins f).fetched = s.fetched := rfl
@[simp] theorem State.onPins_fence (f : Pins → Pins) : (s.onPins f).fence = s.fence := rfl
@[simp] theorem State.onPins_cmds (f : Pins → Pins) : (s.onPins f).cmds = s.cmds := rfl
@[simp] theorem State.onPins_knots (f : Pins → Pins) : (s.onPins f).knots = s.knots := rfl
@[simp] theorem State.onPins_mirrors (f : Pins → Pins) : (s.onPins f).mirrors = s.mirrors := rfl
@[simp] theorem State.onPins_mirrorLog (f : Pins → Pins) : (s.onPins f).mirrorLog = s.mirrorLog := rfl
@[simp] theorem State.onPins_granules (f : Pins → Pins) : (s.onPins f).granules = s.granules := rfl
@[simp] theorem State.onPins_kops (f : Pins → Pins) : (s.onPins f).kops = s.kops := rfl
@[simp] theorem State.onPins_fires (f : Pins → Pins) : (s.onPins f).fires = s.fires := rfl
@[simp] theorem State.onPins_ni (f : Pins → Pins) : (s.onPins f).ni = s.ni := rfl
@[simp] theorem State.onPins_coll (f : Pins → Pins) : (s.onPins f).coll = s.coll := rfl
@[simp] theorem State.onPins_limbs (f : Pins → Pins) : (s.onPins f).limbs = s.limbs := rfl
@[simp] theorem State.onPins_stands (f : Pins → Pins) : (s.onPins f).stands = s.stands := rfl
@[simp] theorem State.onPins_hbm (f : Pins → Pins) : (s.onPins f).hbm = s.hbm := rfl
@[simp] theorem State.onPins_keys (f : Pins → Pins) : (s.onPins f).keys = s.keys := rfl
@[simp] theorem State.onPins_clk (f : Pins → Pins) : (s.onPins f).clk = s.clk := rfl
@[simp] theorem State.onPins_pwr (f : Pins → Pins) : (s.onPins f).pwr = s.pwr := rfl
@[simp] theorem State.onPins_boot (f : Pins → Pins) : (s.onPins f).boot = s.boot := rfl
@[simp] theorem State.onPins_hw (f : Pins → Pins) : (s.onPins f).hw = s.hw := rfl
@[simp] theorem State.onPins_fw (f : Pins → Pins) : (s.onPins f).fw = s.fw := rfl
@[simp] theorem State.onPins_obs (f : Pins → Pins) : (s.onPins f).obs = s.obs := rfl
@[simp] theorem State.onPins_pcie (f : Pins → Pins) : (s.onPins f).pcie = s.pcie := rfl
@[simp] theorem State.onPins_i3c (f : Pins → Pins) : (s.onPins f).i3c = s.i3c := rfl
@[simp] theorem State.onPins_fuses (f : Pins → Pins) : (s.onPins f).fuses = s.fuses := rfl
@[simp] theorem State.onPins_out (f : Pins → Pins) : (s.onPins f).out = s.out := rfl
@[simp] theorem State.onPins_free (f : Pins → Pins) : (s.onPins f).free = s.free := rfl
@[simp] theorem State.onPins_pending (f : Pins → Pins) : (s.onPins f).pending = s.pending := rfl

/-! ### The field an update changes -/

@[simp] theorem State.onNi_ni (f : Ni → Ni) : (s.onNi f).ni = f s.ni := rfl
@[simp] theorem State.onColl_coll (f : Coll → Coll) : (s.onColl f).coll = f s.coll := rfl
@[simp] theorem State.onHbm_hbm (f : Hbm → Hbm) : (s.onHbm f).hbm = f s.hbm := rfl
@[simp] theorem State.onKeys_keys (f : Keys → Keys) : (s.onKeys f).keys = f s.keys := rfl
@[simp] theorem State.onClk_clk (f : Clock → Clock) : (s.onClk f).clk = f s.clk := rfl
@[simp] theorem State.onPwr_pwr (f : Power → Power) : (s.onPwr f).pwr = f s.pwr := rfl
@[simp] theorem State.onBoot_boot (f : Boot → Boot) : (s.onBoot f).boot = f s.boot := rfl
@[simp] theorem State.onHw_hw (f : Hw → Hw) : (s.onHw f).hw = f s.hw := rfl
@[simp] theorem State.onFw_fw (f : Fw → Fw) : (s.onFw f).fw = f s.fw := rfl
@[simp] theorem State.onObs_obs (f : Obs → Obs) : (s.onObs f).obs = f s.obs := rfl
@[simp] theorem State.onPcie_pcie (f : Pcie → Pcie) : (s.onPcie f).pcie = f s.pcie := rfl
@[simp] theorem State.onI3c_i3c (f : I3c → I3c) : (s.onI3c f).i3c = f s.i3c := rfl
@[simp] theorem State.onPins_pins (f : Pins → Pins) : (s.onPins f).pins = f s.pins := rfl
@[simp] theorem State.drawn_free : s.drawn.free = s.free + 1 := rfl
@[simp] theorem State.emit_out (o : Out) : (s.emit o).out = o :: s.out := rfl

/-! ### Registers and values in force where neither table changes -/

@[simp] theorem State.wr_liveRd (a : Nat) (w : Word) (z : Nat) : (s.wr a w).liveRd z = s.liveRd z := rfl
@[simp] theorem State.wr_liveFld (a : Nat) (w : Word) (z : Fld) : (s.wr a w).liveFld z = s.liveFld z := rfl
@[simp] theorem State.wr_liveFlag (a : Nat) (w : Word) (z : Fld) : (s.wr a w).liveFlag z = s.liveFlag z := rfl
@[simp] theorem State.wr_limb (a : Nat) (w : Word) (z : Nat) : (s.wr a w).limb z = s.limb z := rfl
@[simp] theorem State.wr_leaf (a : Nat) (w : Word) (y z : Nat) : (s.wr a w).leaf y z = s.leaf y z := rfl
@[simp] theorem State.wr_stand (a : Nat) (w : Word) (z : Nat) : (s.wr a w).stand z = s.stand z := rfl
@[simp] theorem State.wr_knot (a : Nat) (w : Word) (z : Nat) : (s.wr a w).knot z = s.knot z := rfl
@[simp] theorem State.setLive_rd (a : Nat) (w : Word) (z : Nat) : (s.setLive a w).rd z = s.rd z := rfl
@[simp] theorem State.setLive_fld (a : Nat) (w : Word) (z : Fld) : (s.setLive a w).fld z = s.fld z := rfl
@[simp] theorem State.setLive_flag (a : Nat) (w : Word) (z : Fld) : (s.setLive a w).flag z = s.flag z := rfl
@[simp] theorem State.setLive_limb (a : Nat) (w : Word) (z : Nat) : (s.setLive a w).limb z = s.limb z := rfl
@[simp] theorem State.setLive_leaf (a : Nat) (w : Word) (y z : Nat) : (s.setLive a w).leaf y z = s.leaf y z := rfl
@[simp] theorem State.setLive_stand (a : Nat) (w : Word) (z : Nat) : (s.setLive a w).stand z = s.stand z := rfl
@[simp] theorem State.setLive_knot (a : Nat) (w : Word) (z : Nat) : (s.setLive a w).knot z = s.knot z := rfl
@[simp] theorem State.setFld_liveRd (f : Fld) (v : Nat) (z : Nat) : (s.setFld f v).liveRd z = s.liveRd z := rfl
@[simp] theorem State.setFld_liveFld (f : Fld) (v : Nat) (z : Fld) : (s.setFld f v).liveFld z = s.liveFld z := rfl
@[simp] theorem State.setFld_liveFlag (f : Fld) (v : Nat) (z : Fld) : (s.setFld f v).liveFlag z = s.liveFlag z := rfl
@[simp] theorem State.setFld_limb (f : Fld) (v : Nat) (z : Nat) : (s.setFld f v).limb z = s.limb z := rfl
@[simp] theorem State.setFld_leaf (f : Fld) (v : Nat) (y z : Nat) : (s.setFld f v).leaf y z = s.leaf y z := rfl
@[simp] theorem State.setFld_stand (f : Fld) (v : Nat) (z : Nat) : (s.setFld f v).stand z = s.stand z := rfl
@[simp] theorem State.setFld_knot (f : Fld) (v : Nat) (z : Nat) : (s.setFld f v).knot z = s.knot z := rfl
@[simp] theorem State.setFlag_liveRd (f : Fld) (b : Bool) (z : Nat) : (s.setFlag f b).liveRd z = s.liveRd z := rfl
@[simp] theorem State.setFlag_liveFld (f : Fld) (b : Bool) (z : Fld) : (s.setFlag f b).liveFld z = s.liveFld z := rfl
@[simp] theorem State.setFlag_liveFlag (f : Fld) (b : Bool) (z : Fld) : (s.setFlag f b).liveFlag z = s.liveFlag z := rfl
@[simp] theorem State.setFlag_limb (f : Fld) (b : Bool) (z : Nat) : (s.setFlag f b).limb z = s.limb z := rfl
@[simp] theorem State.setFlag_leaf (f : Fld) (b : Bool) (y z : Nat) : (s.setFlag f b).leaf y z = s.leaf y z := rfl
@[simp] theorem State.setFlag_stand (f : Fld) (b : Bool) (z : Nat) : (s.setFlag f b).stand z = s.stand z := rfl
@[simp] theorem State.setFlag_knot (f : Fld) (b : Bool) (z : Nat) : (s.setFlag f b).knot z = s.knot z := rfl
@[simp] theorem State.count_liveRd (f : Fld) (n : Nat) (z : Nat) : (s.count f n).liveRd z = s.liveRd z := rfl
@[simp] theorem State.count_liveFld (f : Fld) (n : Nat) (z : Fld) : (s.count f n).liveFld z = s.liveFld z := rfl
@[simp] theorem State.count_liveFlag (f : Fld) (n : Nat) (z : Fld) : (s.count f n).liveFlag z = s.liveFlag z := rfl
@[simp] theorem State.count_limb (f : Fld) (n : Nat) (z : Nat) : (s.count f n).limb z = s.limb z := rfl
@[simp] theorem State.count_leaf (f : Fld) (n : Nat) (y z : Nat) : (s.count f n).leaf y z = s.leaf y z := rfl
@[simp] theorem State.count_stand (f : Fld) (n : Nat) (z : Nat) : (s.count f n).stand z = s.stand z := rfl
@[simp] theorem State.count_knot (f : Fld) (n : Nat) (z : Nat) : (s.count f n).knot z = s.knot z := rfl
@[simp] theorem State.countWrap_liveRd (f : Fld) (n : Nat) (z : Nat) : (s.countWrap f n).liveRd z = s.liveRd z := rfl
@[simp] theorem State.countWrap_liveFld (f : Fld) (n : Nat) (z : Fld) : (s.countWrap f n).liveFld z = s.liveFld z := rfl
@[simp] theorem State.countWrap_liveFlag (f : Fld) (n : Nat) (z : Fld) : (s.countWrap f n).liveFlag z = s.liveFlag z := rfl
@[simp] theorem State.countWrap_limb (f : Fld) (n : Nat) (z : Nat) : (s.countWrap f n).limb z = s.limb z := rfl
@[simp] theorem State.countWrap_leaf (f : Fld) (n : Nat) (y z : Nat) : (s.countWrap f n).leaf y z = s.leaf y z := rfl
@[simp] theorem State.countWrap_stand (f : Fld) (n : Nat) (z : Nat) : (s.countWrap f n).stand z = s.stand z := rfl
@[simp] theorem State.countWrap_knot (f : Fld) (n : Nat) (z : Nat) : (s.countWrap f n).knot z = s.knot z := rfl
@[simp] theorem State.setBits_liveRd (a m : Nat) (z : Nat) : (s.setBits a m).liveRd z = s.liveRd z := rfl
@[simp] theorem State.setBits_liveFld (a m : Nat) (z : Fld) : (s.setBits a m).liveFld z = s.liveFld z := rfl
@[simp] theorem State.setBits_liveFlag (a m : Nat) (z : Fld) : (s.setBits a m).liveFlag z = s.liveFlag z := rfl
@[simp] theorem State.setBits_limb (a m : Nat) (z : Nat) : (s.setBits a m).limb z = s.limb z := rfl
@[simp] theorem State.setBits_leaf (a m : Nat) (y z : Nat) : (s.setBits a m).leaf y z = s.leaf y z := rfl
@[simp] theorem State.setBits_stand (a m : Nat) (z : Nat) : (s.setBits a m).stand z = s.stand z := rfl
@[simp] theorem State.setBits_knot (a m : Nat) (z : Nat) : (s.setBits a m).knot z = s.knot z := rfl
@[simp] theorem State.store_rd (a : Nat) (bs : List Byte) (z : Nat) : (s.store a bs).rd z = s.rd z := rfl
@[simp] theorem State.store_fld (a : Nat) (bs : List Byte) (z : Fld) : (s.store a bs).fld z = s.fld z := rfl
@[simp] theorem State.store_flag (a : Nat) (bs : List Byte) (z : Fld) : (s.store a bs).flag z = s.flag z := rfl
@[simp] theorem State.store_liveRd (a : Nat) (bs : List Byte) (z : Nat) : (s.store a bs).liveRd z = s.liveRd z := rfl
@[simp] theorem State.store_liveFld (a : Nat) (bs : List Byte) (z : Fld) : (s.store a bs).liveFld z = s.liveFld z := rfl
@[simp] theorem State.store_liveFlag (a : Nat) (bs : List Byte) (z : Fld) : (s.store a bs).liveFlag z = s.liveFlag z := rfl
@[simp] theorem State.store_limb (a : Nat) (bs : List Byte) (z : Nat) : (s.store a bs).limb z = s.limb z := rfl
@[simp] theorem State.store_leaf (a : Nat) (bs : List Byte) (y z : Nat) : (s.store a bs).leaf y z = s.leaf y z := rfl
@[simp] theorem State.store_stand (a : Nat) (bs : List Byte) (z : Nat) : (s.store a bs).stand z = s.stand z := rfl
@[simp] theorem State.store_knot (a : Nat) (bs : List Byte) (z : Nat) : (s.store a bs).knot z = s.knot z := rfl
@[simp] theorem State.zeroize_rd (a n : Nat) (z : Nat) : (s.zeroize a n).rd z = s.rd z := rfl
@[simp] theorem State.zeroize_fld (a n : Nat) (z : Fld) : (s.zeroize a n).fld z = s.fld z := rfl
@[simp] theorem State.zeroize_flag (a n : Nat) (z : Fld) : (s.zeroize a n).flag z = s.flag z := rfl
@[simp] theorem State.zeroize_liveRd (a n : Nat) (z : Nat) : (s.zeroize a n).liveRd z = s.liveRd z := rfl
@[simp] theorem State.zeroize_liveFld (a n : Nat) (z : Fld) : (s.zeroize a n).liveFld z = s.liveFld z := rfl
@[simp] theorem State.zeroize_liveFlag (a n : Nat) (z : Fld) : (s.zeroize a n).liveFlag z = s.liveFlag z := rfl
@[simp] theorem State.zeroize_limb (a n : Nat) (z : Nat) : (s.zeroize a n).limb z = s.limb z := rfl
@[simp] theorem State.zeroize_leaf (a n : Nat) (y z : Nat) : (s.zeroize a n).leaf y z = s.leaf y z := rfl
@[simp] theorem State.zeroize_stand (a n : Nat) (z : Nat) : (s.zeroize a n).stand z = s.stand z := rfl
@[simp] theorem State.zeroize_knot (a n : Nat) (z : Nat) : (s.zeroize a n).knot z = s.knot z := rfl
@[simp] theorem State.drawn_rd (z : Nat) : (s.drawn).rd z = s.rd z := rfl
@[simp] theorem State.drawn_fld (z : Fld) : (s.drawn).fld z = s.fld z := rfl
@[simp] theorem State.drawn_flag (z : Fld) : (s.drawn).flag z = s.flag z := rfl
@[simp] theorem State.drawn_liveRd (z : Nat) : (s.drawn).liveRd z = s.liveRd z := rfl
@[simp] theorem State.drawn_liveFld (z : Fld) : (s.drawn).liveFld z = s.liveFld z := rfl
@[simp] theorem State.drawn_liveFlag (z : Fld) : (s.drawn).liveFlag z = s.liveFlag z := rfl
@[simp] theorem State.drawn_limb (z : Nat) : (s.drawn).limb z = s.limb z := rfl
@[simp] theorem State.drawn_leaf (y z : Nat) : (s.drawn).leaf y z = s.leaf y z := rfl
@[simp] theorem State.drawn_stand (z : Nat) : (s.drawn).stand z = s.stand z := rfl
@[simp] theorem State.drawn_knot (z : Nat) : (s.drawn).knot z = s.knot z := rfl
@[simp] theorem State.drawnBytes_rd (n : Nat) (z : Nat) : (s.drawnBytes n).rd z = s.rd z := rfl
@[simp] theorem State.drawnBytes_fld (n : Nat) (z : Fld) : (s.drawnBytes n).fld z = s.fld z := rfl
@[simp] theorem State.drawnBytes_flag (n : Nat) (z : Fld) : (s.drawnBytes n).flag z = s.flag z := rfl
@[simp] theorem State.drawnBytes_liveRd (n : Nat) (z : Nat) : (s.drawnBytes n).liveRd z = s.liveRd z := rfl
@[simp] theorem State.drawnBytes_liveFld (n : Nat) (z : Fld) : (s.drawnBytes n).liveFld z = s.liveFld z := rfl
@[simp] theorem State.drawnBytes_liveFlag (n : Nat) (z : Fld) : (s.drawnBytes n).liveFlag z = s.liveFlag z := rfl
@[simp] theorem State.drawnBytes_limb (n : Nat) (z : Nat) : (s.drawnBytes n).limb z = s.limb z := rfl
@[simp] theorem State.drawnBytes_leaf (n : Nat) (y z : Nat) : (s.drawnBytes n).leaf y z = s.leaf y z := rfl
@[simp] theorem State.drawnBytes_stand (n : Nat) (z : Nat) : (s.drawnBytes n).stand z = s.stand z := rfl
@[simp] theorem State.drawnBytes_knot (n : Nat) (z : Nat) : (s.drawnBytes n).knot z = s.knot z := rfl
@[simp] theorem State.emit_rd (o : Out) (z : Nat) : (s.emit o).rd z = s.rd z := rfl
@[simp] theorem State.emit_fld (o : Out) (z : Fld) : (s.emit o).fld z = s.fld z := rfl
@[simp] theorem State.emit_flag (o : Out) (z : Fld) : (s.emit o).flag z = s.flag z := rfl
@[simp] theorem State.emit_liveRd (o : Out) (z : Nat) : (s.emit o).liveRd z = s.liveRd z := rfl
@[simp] theorem State.emit_liveFld (o : Out) (z : Fld) : (s.emit o).liveFld z = s.liveFld z := rfl
@[simp] theorem State.emit_liveFlag (o : Out) (z : Fld) : (s.emit o).liveFlag z = s.liveFlag z := rfl
@[simp] theorem State.emit_limb (o : Out) (z : Nat) : (s.emit o).limb z = s.limb z := rfl
@[simp] theorem State.emit_leaf (o : Out) (y z : Nat) : (s.emit o).leaf y z = s.leaf y z := rfl
@[simp] theorem State.emit_stand (o : Out) (z : Nat) : (s.emit o).stand z = s.stand z := rfl
@[simp] theorem State.emit_knot (o : Out) (z : Nat) : (s.emit o).knot z = s.knot z := rfl
@[simp] theorem State.onLeaf_rd (t p : Nat) (f : Leaf → Leaf) (z : Nat) : (s.onLeaf t p f).rd z = s.rd z := rfl
@[simp] theorem State.onLeaf_fld (t p : Nat) (f : Leaf → Leaf) (z : Fld) : (s.onLeaf t p f).fld z = s.fld z := rfl
@[simp] theorem State.onLeaf_flag (t p : Nat) (f : Leaf → Leaf) (z : Fld) : (s.onLeaf t p f).flag z = s.flag z := rfl
@[simp] theorem State.onLeaf_liveRd (t p : Nat) (f : Leaf → Leaf) (z : Nat) : (s.onLeaf t p f).liveRd z = s.liveRd z := rfl
@[simp] theorem State.onLeaf_liveFld (t p : Nat) (f : Leaf → Leaf) (z : Fld) : (s.onLeaf t p f).liveFld z = s.liveFld z := rfl
@[simp] theorem State.onLeaf_liveFlag (t p : Nat) (f : Leaf → Leaf) (z : Fld) : (s.onLeaf t p f).liveFlag z = s.liveFlag z := rfl
@[simp] theorem State.onLeaf_limb (t p : Nat) (f : Leaf → Leaf) (z : Nat) : (s.onLeaf t p f).limb z = s.limb z := rfl
@[simp] theorem State.onLeaf_stand (t p : Nat) (f : Leaf → Leaf) (z : Nat) : (s.onLeaf t p f).stand z = s.stand z := rfl
@[simp] theorem State.onLeaf_knot (t p : Nat) (f : Leaf → Leaf) (z : Nat) : (s.onLeaf t p f).knot z = s.knot z := rfl
@[simp] theorem State.onLimb_rd (l : Nat) (f : Limb → Limb) (z : Nat) : (s.onLimb l f).rd z = s.rd z := rfl
@[simp] theorem State.onLimb_fld (l : Nat) (f : Limb → Limb) (z : Fld) : (s.onLimb l f).fld z = s.fld z := rfl
@[simp] theorem State.onLimb_flag (l : Nat) (f : Limb → Limb) (z : Fld) : (s.onLimb l f).flag z = s.flag z := rfl
@[simp] theorem State.onLimb_liveRd (l : Nat) (f : Limb → Limb) (z : Nat) : (s.onLimb l f).liveRd z = s.liveRd z := rfl
@[simp] theorem State.onLimb_liveFld (l : Nat) (f : Limb → Limb) (z : Fld) : (s.onLimb l f).liveFld z = s.liveFld z := rfl
@[simp] theorem State.onLimb_liveFlag (l : Nat) (f : Limb → Limb) (z : Fld) : (s.onLimb l f).liveFlag z = s.liveFlag z := rfl
@[simp] theorem State.onLimb_leaf (l : Nat) (f : Limb → Limb) (y z : Nat) : (s.onLimb l f).leaf y z = s.leaf y z := rfl
@[simp] theorem State.onLimb_stand (l : Nat) (f : Limb → Limb) (z : Nat) : (s.onLimb l f).stand z = s.stand z := rfl
@[simp] theorem State.onLimb_knot (l : Nat) (f : Limb → Limb) (z : Nat) : (s.onLimb l f).knot z = s.knot z := rfl
@[simp] theorem State.onStand_rd (st : Nat) (f : Stand → Stand) (z : Nat) : (s.onStand st f).rd z = s.rd z := rfl
@[simp] theorem State.onStand_fld (st : Nat) (f : Stand → Stand) (z : Fld) : (s.onStand st f).fld z = s.fld z := rfl
@[simp] theorem State.onStand_flag (st : Nat) (f : Stand → Stand) (z : Fld) : (s.onStand st f).flag z = s.flag z := rfl
@[simp] theorem State.onStand_liveRd (st : Nat) (f : Stand → Stand) (z : Nat) : (s.onStand st f).liveRd z = s.liveRd z := rfl
@[simp] theorem State.onStand_liveFld (st : Nat) (f : Stand → Stand) (z : Fld) : (s.onStand st f).liveFld z = s.liveFld z := rfl
@[simp] theorem State.onStand_liveFlag (st : Nat) (f : Stand → Stand) (z : Fld) : (s.onStand st f).liveFlag z = s.liveFlag z := rfl
@[simp] theorem State.onStand_limb (st : Nat) (f : Stand → Stand) (z : Nat) : (s.onStand st f).limb z = s.limb z := rfl
@[simp] theorem State.onStand_leaf (st : Nat) (f : Stand → Stand) (y z : Nat) : (s.onStand st f).leaf y z = s.leaf y z := rfl
@[simp] theorem State.onStand_knot (st : Nat) (f : Stand → Stand) (z : Nat) : (s.onStand st f).knot z = s.knot z := rfl
@[simp] theorem State.setKnot_rd (k : Nat) (x : Knot) (z : Nat) : (s.setKnot k x).rd z = s.rd z := rfl
@[simp] theorem State.setKnot_fld (k : Nat) (x : Knot) (z : Fld) : (s.setKnot k x).fld z = s.fld z := rfl
@[simp] theorem State.setKnot_flag (k : Nat) (x : Knot) (z : Fld) : (s.setKnot k x).flag z = s.flag z := rfl
@[simp] theorem State.setKnot_liveRd (k : Nat) (x : Knot) (z : Nat) : (s.setKnot k x).liveRd z = s.liveRd z := rfl
@[simp] theorem State.setKnot_liveFld (k : Nat) (x : Knot) (z : Fld) : (s.setKnot k x).liveFld z = s.liveFld z := rfl
@[simp] theorem State.setKnot_liveFlag (k : Nat) (x : Knot) (z : Fld) : (s.setKnot k x).liveFlag z = s.liveFlag z := rfl
@[simp] theorem State.setKnot_limb (k : Nat) (x : Knot) (z : Nat) : (s.setKnot k x).limb z = s.limb z := rfl
@[simp] theorem State.setKnot_leaf (k : Nat) (x : Knot) (y z : Nat) : (s.setKnot k x).leaf y z = s.leaf y z := rfl
@[simp] theorem State.setKnot_stand (k : Nat) (x : Knot) (z : Nat) : (s.setKnot k x).stand z = s.stand z := rfl
@[simp] theorem State.onNi_rd (f : Ni → Ni) (z : Nat) : (s.onNi f).rd z = s.rd z := rfl
@[simp] theorem State.onNi_fld (f : Ni → Ni) (z : Fld) : (s.onNi f).fld z = s.fld z := rfl
@[simp] theorem State.onNi_flag (f : Ni → Ni) (z : Fld) : (s.onNi f).flag z = s.flag z := rfl
@[simp] theorem State.onNi_liveRd (f : Ni → Ni) (z : Nat) : (s.onNi f).liveRd z = s.liveRd z := rfl
@[simp] theorem State.onNi_liveFld (f : Ni → Ni) (z : Fld) : (s.onNi f).liveFld z = s.liveFld z := rfl
@[simp] theorem State.onNi_liveFlag (f : Ni → Ni) (z : Fld) : (s.onNi f).liveFlag z = s.liveFlag z := rfl
@[simp] theorem State.onNi_limb (f : Ni → Ni) (z : Nat) : (s.onNi f).limb z = s.limb z := rfl
@[simp] theorem State.onNi_leaf (f : Ni → Ni) (y z : Nat) : (s.onNi f).leaf y z = s.leaf y z := rfl
@[simp] theorem State.onNi_stand (f : Ni → Ni) (z : Nat) : (s.onNi f).stand z = s.stand z := rfl
@[simp] theorem State.onNi_knot (f : Ni → Ni) (z : Nat) : (s.onNi f).knot z = s.knot z := rfl
@[simp] theorem State.onColl_rd (f : Coll → Coll) (z : Nat) : (s.onColl f).rd z = s.rd z := rfl
@[simp] theorem State.onColl_fld (f : Coll → Coll) (z : Fld) : (s.onColl f).fld z = s.fld z := rfl
@[simp] theorem State.onColl_flag (f : Coll → Coll) (z : Fld) : (s.onColl f).flag z = s.flag z := rfl
@[simp] theorem State.onColl_liveRd (f : Coll → Coll) (z : Nat) : (s.onColl f).liveRd z = s.liveRd z := rfl
@[simp] theorem State.onColl_liveFld (f : Coll → Coll) (z : Fld) : (s.onColl f).liveFld z = s.liveFld z := rfl
@[simp] theorem State.onColl_liveFlag (f : Coll → Coll) (z : Fld) : (s.onColl f).liveFlag z = s.liveFlag z := rfl
@[simp] theorem State.onColl_limb (f : Coll → Coll) (z : Nat) : (s.onColl f).limb z = s.limb z := rfl
@[simp] theorem State.onColl_leaf (f : Coll → Coll) (y z : Nat) : (s.onColl f).leaf y z = s.leaf y z := rfl
@[simp] theorem State.onColl_stand (f : Coll → Coll) (z : Nat) : (s.onColl f).stand z = s.stand z := rfl
@[simp] theorem State.onColl_knot (f : Coll → Coll) (z : Nat) : (s.onColl f).knot z = s.knot z := rfl
@[simp] theorem State.onHbm_rd (f : Hbm → Hbm) (z : Nat) : (s.onHbm f).rd z = s.rd z := rfl
@[simp] theorem State.onHbm_fld (f : Hbm → Hbm) (z : Fld) : (s.onHbm f).fld z = s.fld z := rfl
@[simp] theorem State.onHbm_flag (f : Hbm → Hbm) (z : Fld) : (s.onHbm f).flag z = s.flag z := rfl
@[simp] theorem State.onHbm_liveRd (f : Hbm → Hbm) (z : Nat) : (s.onHbm f).liveRd z = s.liveRd z := rfl
@[simp] theorem State.onHbm_liveFld (f : Hbm → Hbm) (z : Fld) : (s.onHbm f).liveFld z = s.liveFld z := rfl
@[simp] theorem State.onHbm_liveFlag (f : Hbm → Hbm) (z : Fld) : (s.onHbm f).liveFlag z = s.liveFlag z := rfl
@[simp] theorem State.onHbm_limb (f : Hbm → Hbm) (z : Nat) : (s.onHbm f).limb z = s.limb z := rfl
@[simp] theorem State.onHbm_leaf (f : Hbm → Hbm) (y z : Nat) : (s.onHbm f).leaf y z = s.leaf y z := rfl
@[simp] theorem State.onHbm_stand (f : Hbm → Hbm) (z : Nat) : (s.onHbm f).stand z = s.stand z := rfl
@[simp] theorem State.onHbm_knot (f : Hbm → Hbm) (z : Nat) : (s.onHbm f).knot z = s.knot z := rfl
@[simp] theorem State.onKeys_rd (f : Keys → Keys) (z : Nat) : (s.onKeys f).rd z = s.rd z := rfl
@[simp] theorem State.onKeys_fld (f : Keys → Keys) (z : Fld) : (s.onKeys f).fld z = s.fld z := rfl
@[simp] theorem State.onKeys_flag (f : Keys → Keys) (z : Fld) : (s.onKeys f).flag z = s.flag z := rfl
@[simp] theorem State.onKeys_liveRd (f : Keys → Keys) (z : Nat) : (s.onKeys f).liveRd z = s.liveRd z := rfl
@[simp] theorem State.onKeys_liveFld (f : Keys → Keys) (z : Fld) : (s.onKeys f).liveFld z = s.liveFld z := rfl
@[simp] theorem State.onKeys_liveFlag (f : Keys → Keys) (z : Fld) : (s.onKeys f).liveFlag z = s.liveFlag z := rfl
@[simp] theorem State.onKeys_limb (f : Keys → Keys) (z : Nat) : (s.onKeys f).limb z = s.limb z := rfl
@[simp] theorem State.onKeys_leaf (f : Keys → Keys) (y z : Nat) : (s.onKeys f).leaf y z = s.leaf y z := rfl
@[simp] theorem State.onKeys_stand (f : Keys → Keys) (z : Nat) : (s.onKeys f).stand z = s.stand z := rfl
@[simp] theorem State.onKeys_knot (f : Keys → Keys) (z : Nat) : (s.onKeys f).knot z = s.knot z := rfl
@[simp] theorem State.onClk_rd (f : Clock → Clock) (z : Nat) : (s.onClk f).rd z = s.rd z := rfl
@[simp] theorem State.onClk_fld (f : Clock → Clock) (z : Fld) : (s.onClk f).fld z = s.fld z := rfl
@[simp] theorem State.onClk_flag (f : Clock → Clock) (z : Fld) : (s.onClk f).flag z = s.flag z := rfl
@[simp] theorem State.onClk_liveRd (f : Clock → Clock) (z : Nat) : (s.onClk f).liveRd z = s.liveRd z := rfl
@[simp] theorem State.onClk_liveFld (f : Clock → Clock) (z : Fld) : (s.onClk f).liveFld z = s.liveFld z := rfl
@[simp] theorem State.onClk_liveFlag (f : Clock → Clock) (z : Fld) : (s.onClk f).liveFlag z = s.liveFlag z := rfl
@[simp] theorem State.onClk_limb (f : Clock → Clock) (z : Nat) : (s.onClk f).limb z = s.limb z := rfl
@[simp] theorem State.onClk_leaf (f : Clock → Clock) (y z : Nat) : (s.onClk f).leaf y z = s.leaf y z := rfl
@[simp] theorem State.onClk_stand (f : Clock → Clock) (z : Nat) : (s.onClk f).stand z = s.stand z := rfl
@[simp] theorem State.onClk_knot (f : Clock → Clock) (z : Nat) : (s.onClk f).knot z = s.knot z := rfl
@[simp] theorem State.onPwr_rd (f : Power → Power) (z : Nat) : (s.onPwr f).rd z = s.rd z := rfl
@[simp] theorem State.onPwr_fld (f : Power → Power) (z : Fld) : (s.onPwr f).fld z = s.fld z := rfl
@[simp] theorem State.onPwr_flag (f : Power → Power) (z : Fld) : (s.onPwr f).flag z = s.flag z := rfl
@[simp] theorem State.onPwr_liveRd (f : Power → Power) (z : Nat) : (s.onPwr f).liveRd z = s.liveRd z := rfl
@[simp] theorem State.onPwr_liveFld (f : Power → Power) (z : Fld) : (s.onPwr f).liveFld z = s.liveFld z := rfl
@[simp] theorem State.onPwr_liveFlag (f : Power → Power) (z : Fld) : (s.onPwr f).liveFlag z = s.liveFlag z := rfl
@[simp] theorem State.onPwr_limb (f : Power → Power) (z : Nat) : (s.onPwr f).limb z = s.limb z := rfl
@[simp] theorem State.onPwr_leaf (f : Power → Power) (y z : Nat) : (s.onPwr f).leaf y z = s.leaf y z := rfl
@[simp] theorem State.onPwr_stand (f : Power → Power) (z : Nat) : (s.onPwr f).stand z = s.stand z := rfl
@[simp] theorem State.onPwr_knot (f : Power → Power) (z : Nat) : (s.onPwr f).knot z = s.knot z := rfl
@[simp] theorem State.onBoot_rd (f : Boot → Boot) (z : Nat) : (s.onBoot f).rd z = s.rd z := rfl
@[simp] theorem State.onBoot_fld (f : Boot → Boot) (z : Fld) : (s.onBoot f).fld z = s.fld z := rfl
@[simp] theorem State.onBoot_flag (f : Boot → Boot) (z : Fld) : (s.onBoot f).flag z = s.flag z := rfl
@[simp] theorem State.onBoot_liveRd (f : Boot → Boot) (z : Nat) : (s.onBoot f).liveRd z = s.liveRd z := rfl
@[simp] theorem State.onBoot_liveFld (f : Boot → Boot) (z : Fld) : (s.onBoot f).liveFld z = s.liveFld z := rfl
@[simp] theorem State.onBoot_liveFlag (f : Boot → Boot) (z : Fld) : (s.onBoot f).liveFlag z = s.liveFlag z := rfl
@[simp] theorem State.onBoot_limb (f : Boot → Boot) (z : Nat) : (s.onBoot f).limb z = s.limb z := rfl
@[simp] theorem State.onBoot_leaf (f : Boot → Boot) (y z : Nat) : (s.onBoot f).leaf y z = s.leaf y z := rfl
@[simp] theorem State.onBoot_stand (f : Boot → Boot) (z : Nat) : (s.onBoot f).stand z = s.stand z := rfl
@[simp] theorem State.onBoot_knot (f : Boot → Boot) (z : Nat) : (s.onBoot f).knot z = s.knot z := rfl
@[simp] theorem State.onHw_rd (f : Hw → Hw) (z : Nat) : (s.onHw f).rd z = s.rd z := rfl
@[simp] theorem State.onHw_fld (f : Hw → Hw) (z : Fld) : (s.onHw f).fld z = s.fld z := rfl
@[simp] theorem State.onHw_flag (f : Hw → Hw) (z : Fld) : (s.onHw f).flag z = s.flag z := rfl
@[simp] theorem State.onHw_liveRd (f : Hw → Hw) (z : Nat) : (s.onHw f).liveRd z = s.liveRd z := rfl
@[simp] theorem State.onHw_liveFld (f : Hw → Hw) (z : Fld) : (s.onHw f).liveFld z = s.liveFld z := rfl
@[simp] theorem State.onHw_liveFlag (f : Hw → Hw) (z : Fld) : (s.onHw f).liveFlag z = s.liveFlag z := rfl
@[simp] theorem State.onHw_limb (f : Hw → Hw) (z : Nat) : (s.onHw f).limb z = s.limb z := rfl
@[simp] theorem State.onHw_leaf (f : Hw → Hw) (y z : Nat) : (s.onHw f).leaf y z = s.leaf y z := rfl
@[simp] theorem State.onHw_stand (f : Hw → Hw) (z : Nat) : (s.onHw f).stand z = s.stand z := rfl
@[simp] theorem State.onHw_knot (f : Hw → Hw) (z : Nat) : (s.onHw f).knot z = s.knot z := rfl
@[simp] theorem State.onFw_rd (f : Fw → Fw) (z : Nat) : (s.onFw f).rd z = s.rd z := rfl
@[simp] theorem State.onFw_fld (f : Fw → Fw) (z : Fld) : (s.onFw f).fld z = s.fld z := rfl
@[simp] theorem State.onFw_flag (f : Fw → Fw) (z : Fld) : (s.onFw f).flag z = s.flag z := rfl
@[simp] theorem State.onFw_liveRd (f : Fw → Fw) (z : Nat) : (s.onFw f).liveRd z = s.liveRd z := rfl
@[simp] theorem State.onFw_liveFld (f : Fw → Fw) (z : Fld) : (s.onFw f).liveFld z = s.liveFld z := rfl
@[simp] theorem State.onFw_liveFlag (f : Fw → Fw) (z : Fld) : (s.onFw f).liveFlag z = s.liveFlag z := rfl
@[simp] theorem State.onFw_limb (f : Fw → Fw) (z : Nat) : (s.onFw f).limb z = s.limb z := rfl
@[simp] theorem State.onFw_leaf (f : Fw → Fw) (y z : Nat) : (s.onFw f).leaf y z = s.leaf y z := rfl
@[simp] theorem State.onFw_stand (f : Fw → Fw) (z : Nat) : (s.onFw f).stand z = s.stand z := rfl
@[simp] theorem State.onFw_knot (f : Fw → Fw) (z : Nat) : (s.onFw f).knot z = s.knot z := rfl
@[simp] theorem State.onObs_rd (f : Obs → Obs) (z : Nat) : (s.onObs f).rd z = s.rd z := rfl
@[simp] theorem State.onObs_fld (f : Obs → Obs) (z : Fld) : (s.onObs f).fld z = s.fld z := rfl
@[simp] theorem State.onObs_flag (f : Obs → Obs) (z : Fld) : (s.onObs f).flag z = s.flag z := rfl
@[simp] theorem State.onObs_liveRd (f : Obs → Obs) (z : Nat) : (s.onObs f).liveRd z = s.liveRd z := rfl
@[simp] theorem State.onObs_liveFld (f : Obs → Obs) (z : Fld) : (s.onObs f).liveFld z = s.liveFld z := rfl
@[simp] theorem State.onObs_liveFlag (f : Obs → Obs) (z : Fld) : (s.onObs f).liveFlag z = s.liveFlag z := rfl
@[simp] theorem State.onObs_limb (f : Obs → Obs) (z : Nat) : (s.onObs f).limb z = s.limb z := rfl
@[simp] theorem State.onObs_leaf (f : Obs → Obs) (y z : Nat) : (s.onObs f).leaf y z = s.leaf y z := rfl
@[simp] theorem State.onObs_stand (f : Obs → Obs) (z : Nat) : (s.onObs f).stand z = s.stand z := rfl
@[simp] theorem State.onObs_knot (f : Obs → Obs) (z : Nat) : (s.onObs f).knot z = s.knot z := rfl
@[simp] theorem State.onPcie_rd (f : Pcie → Pcie) (z : Nat) : (s.onPcie f).rd z = s.rd z := rfl
@[simp] theorem State.onPcie_fld (f : Pcie → Pcie) (z : Fld) : (s.onPcie f).fld z = s.fld z := rfl
@[simp] theorem State.onPcie_flag (f : Pcie → Pcie) (z : Fld) : (s.onPcie f).flag z = s.flag z := rfl
@[simp] theorem State.onPcie_liveRd (f : Pcie → Pcie) (z : Nat) : (s.onPcie f).liveRd z = s.liveRd z := rfl
@[simp] theorem State.onPcie_liveFld (f : Pcie → Pcie) (z : Fld) : (s.onPcie f).liveFld z = s.liveFld z := rfl
@[simp] theorem State.onPcie_liveFlag (f : Pcie → Pcie) (z : Fld) : (s.onPcie f).liveFlag z = s.liveFlag z := rfl
@[simp] theorem State.onPcie_limb (f : Pcie → Pcie) (z : Nat) : (s.onPcie f).limb z = s.limb z := rfl
@[simp] theorem State.onPcie_leaf (f : Pcie → Pcie) (y z : Nat) : (s.onPcie f).leaf y z = s.leaf y z := rfl
@[simp] theorem State.onPcie_stand (f : Pcie → Pcie) (z : Nat) : (s.onPcie f).stand z = s.stand z := rfl
@[simp] theorem State.onPcie_knot (f : Pcie → Pcie) (z : Nat) : (s.onPcie f).knot z = s.knot z := rfl
@[simp] theorem State.onI3c_rd (f : I3c → I3c) (z : Nat) : (s.onI3c f).rd z = s.rd z := rfl
@[simp] theorem State.onI3c_fld (f : I3c → I3c) (z : Fld) : (s.onI3c f).fld z = s.fld z := rfl
@[simp] theorem State.onI3c_flag (f : I3c → I3c) (z : Fld) : (s.onI3c f).flag z = s.flag z := rfl
@[simp] theorem State.onI3c_liveRd (f : I3c → I3c) (z : Nat) : (s.onI3c f).liveRd z = s.liveRd z := rfl
@[simp] theorem State.onI3c_liveFld (f : I3c → I3c) (z : Fld) : (s.onI3c f).liveFld z = s.liveFld z := rfl
@[simp] theorem State.onI3c_liveFlag (f : I3c → I3c) (z : Fld) : (s.onI3c f).liveFlag z = s.liveFlag z := rfl
@[simp] theorem State.onI3c_limb (f : I3c → I3c) (z : Nat) : (s.onI3c f).limb z = s.limb z := rfl
@[simp] theorem State.onI3c_leaf (f : I3c → I3c) (y z : Nat) : (s.onI3c f).leaf y z = s.leaf y z := rfl
@[simp] theorem State.onI3c_stand (f : I3c → I3c) (z : Nat) : (s.onI3c f).stand z = s.stand z := rfl
@[simp] theorem State.onI3c_knot (f : I3c → I3c) (z : Nat) : (s.onI3c f).knot z = s.knot z := rfl
@[simp] theorem State.onPins_rd (f : Pins → Pins) (z : Nat) : (s.onPins f).rd z = s.rd z := rfl
@[simp] theorem State.onPins_fld (f : Pins → Pins) (z : Fld) : (s.onPins f).fld z = s.fld z := rfl
@[simp] theorem State.onPins_flag (f : Pins → Pins) (z : Fld) : (s.onPins f).flag z = s.flag z := rfl
@[simp] theorem State.onPins_liveRd (f : Pins → Pins) (z : Nat) : (s.onPins f).liveRd z = s.liveRd z := rfl
@[simp] theorem State.onPins_liveFld (f : Pins → Pins) (z : Fld) : (s.onPins f).liveFld z = s.liveFld z := rfl
@[simp] theorem State.onPins_liveFlag (f : Pins → Pins) (z : Fld) : (s.onPins f).liveFlag z = s.liveFlag z := rfl
@[simp] theorem State.onPins_limb (f : Pins → Pins) (z : Nat) : (s.onPins f).limb z = s.limb z := rfl
@[simp] theorem State.onPins_leaf (f : Pins → Pins) (y z : Nat) : (s.onPins f).leaf y z = s.leaf y z := rfl
@[simp] theorem State.onPins_stand (f : Pins → Pins) (z : Nat) : (s.onPins f).stand z = s.stand z := rfl
@[simp] theorem State.onPins_knot (f : Pins → Pins) (z : Nat) : (s.onPins f).knot z = s.knot z := rfl

end Sys2Proof.Machine
end

