-- ==== Sys2Proof/Laws/Memory.lean ====
section
/-! SUPPORT. The laws of memory: a byte reads what was written to it and every other byte what it held; every memory operation
keeps the canonical form, and the memory after reset has it. -/

namespace Sys2Proof.Machine

theorem Memory.read_write (m : List Host.Cell) (a b : Nat) (v : Byte) :
    Memory.read (Memory.write m a v) b = if b = a then v else Memory.read m b := by
  unfold Memory.read Memory.write
  by_cases h : b = a
  · simp [h, SMap.get_set_self]
  · simp [h, SMap.get_set_ne _ _ _ _ h]

theorem Memory.read_writeN (m : List Host.Cell) (a b : Nat) (bs : List Byte) :
    Memory.read (Memory.writeN m a bs) b = if a ≤ b ∧ b < a + bs.length then bs.getD (b - a) 0#8 else Memory.read m b := by
  induction bs generalizing m a with
  | nil =>
    rw [Memory.writeN, List.length_nil, if_neg (by omega)]
  | cons x bs ih =>
    rw [Memory.writeN, ih, Memory.read_write, List.length_cons]
    by_cases h : b = a
    · subst h
      rw [if_neg (by omega), if_pos rfl, if_pos (by omega), Nat.sub_self, List.getD_cons_zero]
    · by_cases h1 : a + 1 ≤ b ∧ b < a + 1 + bs.length
      · have h2 : a ≤ b ∧ b < a + (bs.length + 1) := by omega
        have h3 : b - a = (b - (a + 1)) + 1 := by omega
        rw [if_pos h1, if_pos h2, h3, List.getD_cons_succ]
      · have h2 : ¬ (a ≤ b ∧ b < a + (bs.length + 1)) := by omega
        rw [if_neg h1, if_neg h2, if_neg h]

/-- Bytes outside those written read as before. -/
theorem Memory.read_writeN_of_outside (m : List Host.Cell) (a b : Nat) (bs : List Byte) (h : b < a ∨ a + bs.length ≤ b) :
    Memory.read (Memory.writeN m a bs) b = Memory.read m b := by
  have : ¬ (a ≤ b ∧ b < a + bs.length) := by omega
  rw [Memory.read_writeN, if_neg this]

theorem Memory.read_blank (m : List Host.Cell) (a n b : Nat) :
    Memory.read (Memory.blank m a n) b = if a ≤ b ∧ b < a + n then memDefault b else Memory.read m b :=
  SMap.get_clear (memDefault b) m a (a + n) b

theorem Memory.readN_writeN (m : List Host.Cell) (a : Nat) (bs : List Byte) :
    Memory.readN (Memory.writeN m a bs) a bs.length = bs := by
  unfold Memory.readN
  apply List.ext_getElem
  · simp
  · intro i h1 h2
    simp only [List.getElem_map, List.getElem_range, Memory.read_writeN]
    have : a ≤ a + i ∧ a + i < a + bs.length := by omega
    rw [if_pos this]
    simp [List.getD, List.getElem?_eq_getElem h2]

theorem Memory.wf_write (m : List Host.Cell) (a : Nat) (v : Byte) (h : Memory.wf m = true) : Memory.wf (Memory.write m a v) = true :=
  SMap.wf_set memDefault m a v h

theorem Memory.wf_writeN (m : List Host.Cell) (a : Nat) (bs : List Byte) (h : Memory.wf m = true) :
    Memory.wf (Memory.writeN m a bs) = true := by
  induction bs generalizing m a with
  | nil => exact h
  | cons x bs ih => exact ih _ _ (Memory.wf_write m a x h)

theorem Memory.wf_blank (m : List Host.Cell) (a n : Nat) (h : Memory.wf m = true) : Memory.wf (Memory.blank m a n) = true :=
  SMap.wf_clear memDefault m a (a + n) h

theorem State.reset_mem_wf : Memory.wf State.reset.mem = true := rfl

variable (s : State)

theorem State.store_read (a b : Nat) (bs : List Byte) :
    Memory.read (s.store a bs).mem b = if a ≤ b ∧ b < a + bs.length then bs.getD (b - a) 0#8 else Memory.read s.mem b :=
  Memory.read_writeN s.mem a b bs

theorem State.bytes_store (a : Nat) (bs : List Byte) : (s.store a bs).bytes a bs.length = bs := Memory.readN_writeN s.mem a bs

theorem State.zeroize_read (a n b : Nat) :
    Memory.read (s.zeroize a n).mem b = if a ≤ b ∧ b < a + n then memDefault b else Memory.read s.mem b :=
  Memory.read_blank s.mem a n b

end Sys2Proof.Machine
end

