-- ==== Sys2Proof/Laws/Regs.lean ====
section
/-! SUPPORT. The laws of registers and their fields: a register reads what was written, every other register what it held; a
field set reads the value set, and a field of other bits or another register what it held. -/

namespace Sys2Proof.Machine

/-! ### Fields of a word -/

theorem getLsbD_maskOf (hi lo i : Nat) : (maskOf hi lo).getLsbD i = (decide (i < 64) && decide (lo ≤ i) && decide (i - lo < hi + 1 - lo)) := by
  unfold maskOf
  rw [BitVec.getLsbD_ofNat, Nat.testBit_shiftLeft, Nat.testBit_two_pow_sub_one, Bool.and_assoc]

theorem getLsbD_putBits (w : Word) (hi lo v i : Nat) (h : lo ≤ hi) :
    (putBits w hi lo v).getLsbD i =
      if lo ≤ i ∧ i ≤ hi ∧ i < 64 then v.testBit (i - lo) else w.getLsbD i := by
  unfold putBits
  rw [BitVec.getLsbD_or, BitVec.getLsbD_and, BitVec.getLsbD_and, BitVec.getLsbD_not, getLsbD_maskOf, BitVec.getLsbD_ofNat,
    Nat.testBit_shiftLeft]
  by_cases h64 : i < 64
  · by_cases h1 : lo ≤ i
    · by_cases h2 : i ≤ hi
      · have : i - lo < hi + 1 - lo := by omega
        simp [h64, h1, h2, this]
      · have : ¬ i - lo < hi + 1 - lo := by omega
        simp [h64, h1, h2, this]
    · simp [h64, h1]
  · simp [h64, BitVec.getLsbD_of_ge w i (by omega)]

theorem testBit_bitsOf (x hi lo i : Nat) : (bitsOf x hi lo).testBit i = (decide (i < hi + 1 - lo) && x.testBit (lo + i)) := by
  unfold bitsOf
  rw [Nat.testBit_mod_two_pow, Nat.testBit_shiftRight]

/-- A field that lies in its register. -/
def Fld.ok (f : Fld) : Bool := decide (f.lo ≤ f.hi) && decide (f.hi < 64)

/-- Two fields that share no bit. -/
def Fld.apart (f g : Fld) : Bool := decide (f.hi < g.lo) || decide (g.hi < f.lo) || decide (f.reg ≠ g.reg)

theorem Fld.of_put (f : Fld) (w : Word) (v : Nat) (h : f.ok = true) : f.of (f.put w v) = v % 2 ^ (f.hi + 1 - f.lo) := by
  simp only [Fld.ok, Bool.and_eq_true, decide_eq_true_eq] at h
  apply Nat.eq_of_testBit_eq
  intro i
  unfold Fld.of Fld.put
  rw [testBit_bitsOf, BitVec.testBit_toNat, getLsbD_putBits _ _ _ _ _ h.1, Nat.testBit_mod_two_pow]
  by_cases hi : i < f.hi + 1 - f.lo
  · have : f.lo ≤ f.lo + i ∧ f.lo + i ≤ f.hi ∧ f.lo + i < 64 := by omega
    simp [hi, this]
  · simp [hi]

theorem Fld.of_put_apart (f g : Fld) (w : Word) (v : Nat) (hf : f.ok = true) (h : f.hi < g.lo ∨ g.hi < f.lo) :
    g.of (f.put w v) = g.of w := by
  simp only [Fld.ok, Bool.and_eq_true, decide_eq_true_eq] at hf
  apply Nat.eq_of_testBit_eq
  intro i
  unfold Fld.of Fld.put
  rw [testBit_bitsOf, testBit_bitsOf, BitVec.testBit_toNat, BitVec.testBit_toNat, getLsbD_putBits _ _ _ _ _ hf.1]
  by_cases hi : i < g.hi + 1 - g.lo
  · have : ¬ (f.lo ≤ g.lo + i ∧ g.lo + i ≤ f.hi ∧ g.lo + i < 64) := by omega
    simp [this]
  · simp [hi]

/-! ### Registers -/

variable (s : State)

theorem State.rd_wr (a b : Nat) (w : Word) : (s.wr a w).rd b = if b = a then w else s.rd b := by
  unfold State.rd State.wr
  by_cases h : b = a
  · simp [h, SMap.get_set_self]
  · simp [h, SMap.get_set_ne _ _ _ _ h]

@[simp] theorem State.rd_wr_self (a : Nat) (w : Word) : (s.wr a w).rd a = w := by simp [State.rd_wr]

theorem State.rd_wr_ne {a b : Nat} (w : Word) (h : b ≠ a) : (s.wr a w).rd b = s.rd b := by simp [State.rd_wr, h]

theorem State.liveRd_setLive (a b : Nat) (w : Word) : (s.setLive a w).liveRd b = if b = a then w else s.liveRd b := by
  unfold State.liveRd State.setLive
  by_cases h : b = a
  · simp [h, SMap.get_set_self]
  · simp [h, SMap.get_set_ne _ _ _ _ h]

@[simp] theorem State.liveRd_setLive_self (a : Nat) (w : Word) : (s.setLive a w).liveRd a = w := by simp [State.liveRd_setLive]

theorem State.rd_setFld_ne {a : Nat} (f : Fld) (v : Nat) (h : a ≠ f.reg) : (s.setFld f v).rd a = s.rd a := by
  simp [State.setFld, State.rd_wr, h]

theorem State.fld_setFld_self (f : Fld) (v : Nat) (h : f.ok = true) : (s.setFld f v).fld f = v % 2 ^ (f.hi + 1 - f.lo) := by
  simp [State.fld, State.setFld, Fld.of_put _ _ _ h]

theorem State.fld_setFld_apart (f g : Fld) (v : Nat) (hf : f.ok = true) (h : f.apart g = true) : (s.setFld f v).fld g = s.fld g := by
  simp only [Fld.apart, Bool.or_eq_true, decide_eq_true_eq] at h
  by_cases hr : g.reg = f.reg
  · have h' : f.hi < g.lo ∨ g.hi < f.lo := by
      rcases h with (h | h) | h
      · exact .inl h
      · exact .inr h
      · exact absurd hr.symm h
    unfold State.fld State.setFld
    rw [hr, State.rd_wr_self, Fld.of_put_apart f g _ v hf h']
  · unfold State.fld
    rw [State.rd_setFld_ne s f v hr]

theorem State.flag_setFlag_self (f : Fld) (b : Bool) (h : f.ok = true) : (s.setFlag f b).flag f = b := by
  have hn : 1 < 2 ^ (f.hi + 1 - f.lo) := by
    simp only [Fld.ok, Bool.and_eq_true, decide_eq_true_eq] at h
    exact Nat.one_lt_two_pow (by omega)
  unfold State.flag State.setFlag
  rw [State.fld_setFld_self s f _ h]
  cases b <;> simp [bit, Nat.mod_eq_of_lt hn]

theorem State.fld_setFlag_apart (f g : Fld) (b : Bool) (hf : f.ok = true) (h : f.apart g = true) : (s.setFlag f b).fld g = s.fld g :=
  State.fld_setFld_apart s f g _ hf h

theorem State.flag_setFlag_apart (f g : Fld) (b : Bool) (hf : f.ok = true) (h : f.apart g = true) :
    (s.setFlag f b).flag g = s.flag g := by
  unfold State.flag
  rw [State.fld_setFlag_apart s f g b hf h]

theorem State.flag_setFld_apart (f g : Fld) (v : Nat) (hf : f.ok = true) (h : f.apart g = true) :
    (s.setFld f v).flag g = s.flag g := by
  unfold State.flag
  rw [State.fld_setFld_apart s f g v hf h]

theorem State.rd_setFlag_ne {a : Nat} (f : Fld) (b : Bool) (h : a ≠ f.reg) : (s.setFlag f b).rd a = s.rd a :=
  State.rd_setFld_ne s f _ h

theorem State.rd_count_ne {a : Nat} (f : Fld) (n : Nat) (h : a ≠ f.reg) : (s.count f n).rd a = s.rd a :=
  State.rd_setFld_ne s f _ h

theorem State.rd_countWrap_ne {a : Nat} (f : Fld) (n : Nat) (h : a ≠ f.reg) : (s.countWrap f n).rd a = s.rd a :=
  State.rd_setFld_ne s f _ h

/-- A counter counts up to the largest value its field holds and stays there. -/
theorem State.fld_count_self (f : Fld) (n : Nat) (h : f.ok = true) : (s.count f n).fld f = min f.max (s.fld f + n) := by
  unfold State.count
  rw [State.fld_setFld_self s f _ h, Nat.mod_eq_of_lt]
  have : 0 < 2 ^ (f.hi + 1 - f.lo) := Nat.two_pow_pos _
  unfold Fld.max
  omega

theorem State.fld_count_apart (f g : Fld) (n : Nat) (hf : f.ok = true) (h : f.apart g = true) : (s.count f n).fld g = s.fld g :=
  State.fld_setFld_apart s f g _ hf h

/-! ### Parts kept in tables -/

theorem State.leaf_onLeaf (t p u q : Nat) (f : Leaf → Leaf) :
    (s.onLeaf t p f).leaf u q = if u * 33 + q = t * 33 + p then f (s.leaf t p) else s.leaf u q := SMap.get_modify _ _ _ _ f

@[simp] theorem State.leaf_onLeaf_self (t p : Nat) (f : Leaf → Leaf) : (s.onLeaf t p f).leaf t p = f (s.leaf t p) := by
  simp [State.leaf_onLeaf]

theorem State.limb_onLimb (l k : Nat) (f : Limb → Limb) : (s.onLimb l f).limb k = if k = l then f (s.limb l) else s.limb k :=
  SMap.get_modify _ _ _ _ f

@[simp] theorem State.limb_onLimb_self (l : Nat) (f : Limb → Limb) : (s.onLimb l f).limb l = f (s.limb l) := by
  simp [State.limb_onLimb]

theorem State.stand_onStand (x y : Nat) (f : Stand → Stand) : (s.onStand x f).stand y = if y = x then f (s.stand x) else s.stand y :=
  SMap.get_modify _ _ _ _ f

@[simp] theorem State.stand_onStand_self (x : Nat) (f : Stand → Stand) : (s.onStand x f).stand x = f (s.stand x) := by
  simp [State.stand_onStand]

theorem State.knot_setKnot (k j : Nat) (x : Knot) : (s.setKnot k x).knot j = if j = k then x else s.knot j := SMap.get_set _ _ _ _ x

@[simp] theorem State.knot_setKnot_self (k : Nat) (x : Knot) : (s.setKnot k x).knot k = x := by simp [State.knot_setKnot]

end Sys2Proof.Machine
end

