-- ==== Sys2Proof/Laws/Ops.lean ====
section
/-! SUPPORT. What the shared operations can do: a guarded effect, a step over a list, messages, wakes, the event log and events. -/

namespace Sys2Proof.Machine

variable (s : State)

theorem State.when_true (t : State) : s.when true t = .next t := rfl
theorem State.when_false (t : State) : s.when false t = .next s := rfl

/-- A guarded effect always answers a next state: its effect, or the state itself. -/
theorem State.when_next (c : Bool) (t : State) : s.when c t = .next (if c then t else s) := rfl

@[simp] theorem length_leBytes (n v : Nat) : (leBytes n v).length = n := by
  induction n generalizing v with
  | zero => rfl
  | succ n ih => simp [leBytes, ih]
@[simp] theorem length_padTo (n : Nat) (bs : List Byte) : (padTo n bs).length = n := by
  simp only [padTo, List.length_append, List.length_take, List.length_replicate]
  omega

/-- What every step over a list keeps, the whole keeps. -/
theorem State.forEach_keeps {α : Type} (P : State → Prop) (l : List α) (f : α → State → State) (h : ∀ x t, P t → P (f x t)) (s : State)
    (h0 : P s) : P (s.forEach l f) := by
  unfold State.forEach
  induction l generalizing s with
  | nil => exact h0
  | cons x l ih => exact ih (f x s) (h x s h0)

/-- `t` differs from `s` only where a message, a wake, the log or an event may change it. -/
def State.OnlyEvents (s t : State) : Prop :=
  ∃ r m h i o p, t = { s with regs := r, mem := m, hw := h, i3c := i, out := o, pcie := p }

theorem State.OnlyEvents.refl : s.OnlyEvents s := ⟨_, _, _, _, _, _, rfl⟩

theorem State.OnlyEvents.trans {s t u : State} (h : s.OnlyEvents t) (k : t.OnlyEvents u) : s.OnlyEvents u := by
  obtain ⟨_, _, _, _, _, _, rfl⟩ := h
  obtain ⟨_, _, _, _, _, _, rfl⟩ := k
  exact ⟨_, _, _, _, _, _, rfl⟩

theorem State.OnlyEvents.onHw {s t : State} (h : s.OnlyEvents t) (f : Hw → Hw) : s.OnlyEvents (t.onHw f) := h.trans ⟨_, _, _, _, _, _, rfl⟩
theorem State.OnlyEvents.setFld {s t : State} (h : s.OnlyEvents t) (f : Fld) (v : Nat) : s.OnlyEvents (t.setFld f v) :=
  h.trans ⟨_, _, _, _, _, _, rfl⟩
theorem State.OnlyEvents.store {s t : State} (h : s.OnlyEvents t) (a : Nat) (bs : List Byte) : s.OnlyEvents (t.store a bs) :=
  h.trans ⟨_, _, _, _, _, _, rfl⟩

/-- A message adds to what the block puts out, or is lost. -/
theorem State.msix_cases (fn vector : Nat) : s.msix fn vector = s ∨ s.msix fn vector = s.emit (.msix fn vector) := by
  unfold State.msix
  split
  · exact .inr rfl
  · exact .inl rfl

theorem State.msix_only (fn vector : Nat) : s.OnlyEvents (s.msix fn vector) := by
  rcases s.msix_cases fn vector with h | h <;> rw [h] <;> exact ⟨_, _, _, _, _, _, rfl⟩

/-- Noting a cause of the in-band interrupt changes the I3C port only. -/
theorem State.ibi_only (cause : Nat) : s.ibi cause = { s with i3c := (s.ibi cause).i3c } := by
  unfold State.ibi
  split <;> rfl

/-- A wake changes PWR_WAKE and the endpoint only. -/
theorem State.wake_only (reason : Nat) :
    (s.wake reason = { s with regs := (s.wake reason).regs, pcie := (s.wake reason).pcie }) ∧
    ∀ a, a ≠ PWR_WAKE → (s.wake reason).rd a = s.rd a := by
  refine ⟨?_, fun a h => ?_⟩ <;> unfold State.wake <;> dsimp only <;> split
  · split
    · split <;> rfl
    · rfl
  · rfl
  · have hr (f : Fld) (t : State) (v : Nat) (hf : f.reg = PWR_WAKE) : (t.setFld f v).rd a = t.rd a := State.rd_setFld_ne t f v (hf ▸ h)
    have hp (t : State) (g : Pcie → Pcie) : (t.onPcie g).rd a = t.rd a := rfl
    split
    · have hq : ∀ t : State, ((((t.setFlag PWR_WAKE_pending true).setFld PWR_WAKE_ring t.ring).onPcie fun p => { p with pmeDue := true }).rd a) = t.rd a :=
        fun t => by rw [hp, hr _ _ _ rfl, State.rd_setFlag_ne t PWR_WAKE_pending true h]
      split
      · rw [State.rd_setFlag_ne _ PWR_WAKE_wake_n true h, hq, hr _ _ _ rfl]
      · rw [hq, hr _ _ _ rfl]
    · exact hr _ _ _ rfl
  · rfl

/-- Driving ALERT_N changes the pin and the I3C port only. -/
theorem State.alertPin_only : s.alertPin = { s with pins := s.alertPin.pins, i3c := s.alertPin.i3c } := by
  unfold State.alertPin
  dsimp only
  split
  · rw [State.ibi_only]; rfl
  · rfl

/-- An entry of the log changes the management complex and MBX_LOG_STATUS only. -/
theorem State.logKind_only (kind code severity stand : Nat) (data : List Byte) :
    (s.logKind kind code severity stand data =
      { s with regs := (s.logKind kind code severity stand data).regs, hw := (s.logKind kind code severity stand data).hw }) ∧
    ∀ a, a ≠ MBX_LOG_STATUS → (s.logKind kind code severity stand data).rd a = s.rd a := by
  refine ⟨rfl, fun a h => ?_⟩
  unfold State.logKind
  rw [State.rd_countWrap_ne _ _ _ h, State.rd_setFld_ne _ _ _ h]
  rfl

/-- The posting of an event signals it, and changes no byte of memory. -/
theorem State.evtSignal_only (m : Nat) : s.OnlyEvents (s.evtSignal m) ∧ (s.evtSignal m).mem = s.mem := by
  have mx (t : State) (f v : Nat) : (t.msix f v).mem = t.mem := by
    rcases t.msix_cases f v with h | h
    · rw [h]
    · rw [h]; rfl
  have hw {t : State} (r : Nat) (h : s.OnlyEvents t ∧ t.mem = s.mem) : s.OnlyEvents (t.wake r) ∧ (t.wake r).mem = s.mem :=
    ⟨h.1.trans (by rw [(t.wake_only r).1]; exact ⟨_, _, _, _, _, _, rfl⟩), by rw [(t.wake_only r).1]; exact h.2⟩
  unfold State.evtSignal
  split
  · exact ⟨by rw [s.ibi_only]; exact ⟨_, _, _, _, _, _, rfl⟩, by rw [s.ibi_only]⟩
  · refine hw _ ?_
    split
    · split
      · exact ⟨s.msix_only _ _, mx _ _ _⟩
      · exact ⟨s.msix_only _ _, mx _ _ _⟩
    · exact ⟨.refl s, rfl⟩

/-- Posting an event writes one slot of its mailbox's ring, or drops the event and says so. -/
theorem State.postTo_only (code severity stand logSeq m : Nat) (data : List Byte) :
    s.OnlyEvents (s.postTo code severity stand logSeq m data) ∧
    ∀ a, a < mbxAt m ∨ mbxAt m + 65536 ≤ a → Memory.read (s.postTo code severity stand logSeq m data).mem a = Memory.read s.mem a := by
  unfold State.postTo
  dsimp only
  by_cases hf : (decide (evtSlots m ≤ sub16 (s.fld (MBX_EVT_STATE_tail m)) (s.fld (MBX_EVT_HEAD_head m)))) = true
  · rw [if_pos hf]
    exact ⟨State.OnlyEvents.onHw (.setFld (.setFld (.refl s) _ _) _ _) _, fun a _ => rfl⟩
  · rw [if_neg hf]
    have hs : evtSlots m ≤ 32 ∧ 0 < evtSlots m := by unfold evtSlots; split <;> omega
    have hl : (s.eventSlot m code severity stand logSeq data).length = 64 := by
      unfold State.eventSlot
      rw [List.length_append, length_padTo]
      simp only [List.length_append, length_leBytes]
    generalize hd : s.eventSlot m code severity stand logSeq data = slot at hl
    generalize hu : (s.onHw fun h => { h with evtSeq := h.evtSeq.set 0 m ((s.hw.evtSeq.get 0 m + 1) % 2 ^ 32), evtLost := h.evtLost.set false m false }) = u
    have hmem : u.mem = s.mem := by rw [← hu]; rfl
    have hon : s.OnlyEvents u := hu ▸ State.OnlyEvents.onHw (.refl s) _
    have hmod := Nat.mod_lt (s.hw.evtSeq.get 0 m) hs.2
    generalize hv : (u.store (mbxAt m + 0x3000 + 64 * (s.hw.evtSeq.get 0 m % evtSlots m)) slot).countWrap (MBX_EVT_STATE_tail m) 1 = v
    have hov : s.OnlyEvents v := hv ▸ State.OnlyEvents.setFld (.store hon _ _) _ _
    have hmv : ∀ a, a < mbxAt m ∨ mbxAt m + 65536 ≤ a → Memory.read v.mem a = Memory.read s.mem a := fun a ha => by
      rw [← hv, ← hmem]
      show Memory.read (u.store _ _).mem a = _
      rw [State.store_read, hl, if_neg (by omega)]
    refine ⟨OnlyEvents.trans ?_ (State.evtSignal_only _ m).1, fun a ha => ?_⟩
    · split
      · exact hov.trans ⟨_, _, _, _, _, _, rfl⟩
      · exact hov
    · rw [(State.evtSignal_only _ m).2]
      split
      · exact hmv a ha
      · exact hmv a ha

/-- Logging and posting changes what an event may change. -/
theorem State.postNow_only (e : EventReq) : s.OnlyEvents (s.postNow e) :=
  State.forEach_keeps s.OnlyEvents _ _ (fun _ t h => h.trans (t.postTo_only ..).1) _
    (State.OnlyEvents.setFld (.setFld (.onHw (.refl s) _) _ _) _ _)

/-- An event is posted, or queued behind a takeover: either way it changes only what an event may change. -/
theorem State.event_only (e : EventReq) : s.OnlyEvents (s.event e) := by
  unfold State.event
  split
  · exact s.postNow_only e
  · exact .onHw (.refl s) _

theorem State.eventOwner_only (code severity stand : Nat) (data : List Byte) : s.OnlyEvents (s.eventOwner code severity stand data) :=
  s.event_only _

theorem State.eventBoth_only (code severity stand : Nat) (data vf : List Byte) :
    s.OnlyEvents (s.eventBoth code severity stand data vf) := s.event_only _

theorem State.eventOnce_only (code severity stand : Nat) (data : List Byte) : s.OnlyEvents (s.eventOnce code severity stand data) := by
  unfold State.eventOnce
  split
  · exact .refl s
  · exact (State.OnlyEvents.onHw (.refl s) _).trans (State.eventOwner_only _ _ _ _ _)

end Sys2Proof.Machine
end

