-- ==== Sys2Proof/Laws/Mailbox.lean ====
section
/-! SUPPORT. What serving a request and writing its response can do. -/

namespace Sys2Proof.Machine

variable {s t : State} {op size : Nat} {reserved : List (Nat × Nat)} {needStand serial : Bool} {f : Handler} {r : Req} {x : Reply}

/-- Without a request of its opcode next to be served, an opcode changes nothing. -/
theorem State.serve_none (h : s.serving? op = none) : s.serve op size reserved needStand serial f = s := by
  unfold State.serve
  rw [h]

/-- A request that fails check 9 is answered with that status. -/
theorem State.serve_refused (h : s.serving? op = some r) (hc : (s.takeReq r).commonCheck r size reserved needStand serial = some x) :
    s.serve op size reserved needStand serial f = (s.takeReq r).answer r x := by
  unfold State.serve
  rw [h]
  dsimp only
  rw [hc]

/-- A request that passes is answered with what its opcode answers, on the state its opcode leaves. -/
theorem State.serve_answered (h : s.serving? op = some r) (hc : (s.takeReq r).commonCheck r size reserved needStand serial = none)
    (hf : f r (s.takeReq r) = (some x, t)) : s.serve op size reserved needStand serial f = t.answer r x := by
  unfold State.serve
  rw [h]
  dsimp only
  rw [hc, hf]

/-- A request that is held is not answered yet. -/
theorem State.serve_held (h : s.serving? op = some r) (hc : (s.takeReq r).commonCheck r size reserved needStand serial = none)
    (hf : f r (s.takeReq r) = (none, t)) : s.serve op size reserved needStand serial f = t.showIntake := by
  unfold State.serve
  rw [h]
  dsimp only
  rw [hc, hf]

theorem State.showIntake_only (s : State) : s.OnlyEvents s.showIntake := by
  unfold State.showIntake
  exact ⟨_, _, _, _, _, _, rfl⟩

theorem State.rspSignal_only (s : State) (m : Nat) (slot : List Byte) : s.OnlyEvents (s.rspSignal m slot) := by
  unfold State.rspSignal
  split
  · rw [State.ibi_only]
    exact ⟨_, _, _, _, _, _, rfl⟩
  · split
    · split <;> exact s.msix_only _ _
    · exact .refl s

/-- A response changes only what an event may change. -/
theorem State.answerIn_only (s : State) (r : Req) (x : Reply) (ver : Nat × Nat) : s.OnlyEvents (s.answerIn r x ver) := by
  unfold State.answerIn
  dsimp only
  refine State.OnlyEvents.trans ?_ (State.showIntake_only _)
  refine State.OnlyEvents.trans ?_ (State.rspSignal_only _ _ _)
  have h : ∀ t : State, s.OnlyEvents t → ∀ c : Record, s.OnlyEvents (if t.healthy (otherNo t.token) then t.onHw fun h => { h with records := h.records ++ [c] } else t) :=
    fun t ht c => by
      split
      · exact ht.onHw _
      · exact ht
  refine h _ ?_ _
  refine State.OnlyEvents.trans ?_ ⟨_, _, _, _, _, _, rfl⟩
  split
  · refine State.OnlyEvents.store ?_ _ _
    split
    · exact .setFld (.refl s) _ _
    · exact .refl s
  · split
    · exact .setFld (.refl s) _ _
    · exact .refl s

end Sys2Proof.Machine
end

