-- ==== Sys2Proof/WellFormed.lean ====
section
/-! DEFINITION. Which commands name things the Crown has: every operand lies in the range its rule gives it. -/

namespace Sys2Proof

/-- The ranges of the header fields of R238. -/
def Packet.wf (p : Packet) : Bool :=
  decide (p.type < 256) && decide (p.flags < 256) && decide (p.dstStand < 16) && decide (p.srcStand < 16)
    && decide (p.srcLimb < 256) && decide (p.dstNode < 4096) && decide (p.srcNode < 4096) && decide (p.dstEpoch < 65536)
    && decide (p.srcEpoch < 65536) && decide (p.knot < 4096) && decide (p.payload.length ≤ 4096)

/-- A packet at an NI comes from a limb under a key index 0-15, or 16 for the management key (R223). -/
def Rx.wf (r : Rx) : Bool := decide (r.limb < 18) && decide (r.keyIndex < 17) && r.pkt.wf

/-- Every operand lies in its range. -/
def Instr.wf : Instr → Bool
  | .vinApplied => true
  | .vinLost => true
  | .holdupCommitDone => true
  | .vauxRise => true
  | .vauxLoss => true
  | .warmRstNAssert => true
  | .warmRstNDeassert => true
  | .idResetWrite _ _ => true
  | .idResetEffect => true
  | .perstNAssert => true
  | .pcieHotReset => true
  | .pcieFlr stand => decide (stand < 16)
  | .vfEnableChange _ numVfs => decide (numVfs < 17)
  | .pmcsrWrite _ _ _ => true
  | .pmeTurnOff => true
  | .pmPmeSend => true
  | .regulationUp => true
  | .refEdgesPresent => true
  | .ioscTrimDone trim => decide (trim < 1024)
  | .monitorWindowsPassed => true
  | .taprootStageDone _ _ => true
  | .heartwoodReady _ => true
  | .tokenBFallback => true
  | .clockStageDone => true
  | .hbmStageDone failedTwice => decide (failedTwice < 4096)
  | .bringupStageTimeout cause => decide (cause < 6)
  | .leafStageStart => true
  | .leafWaveEnable wave => decide (wave < 8)
  | .leafWaveScanDone wave _ => decide (wave < 8)
  | .bringupComplete _ => true
  | .syncPulse _ => true
  | .slotBoundary slot => decide (slot < 62)
  | .guardBand => true
  | .ringBoundary => true
  | .faultEntryFree entry => decide (entry < 256)
  | .monitorWindowEnd count => decide (count < 65536)
  | .edgeTimeout => true
  | .pllUnlock => true
  | .pllLock => true
  | .safeHoldEnter => true
  | .clkGateWrite _ _ => true
  | .registerWrite _ addr _ _ => decide (addr < 134217728)
  | .cqDoorbellTail stand queue _ _ => decide (stand < 16) && decide (queue < 4)
  | .cqResume stand queue _ _ => decide (stand < 16) && decide (queue < 4)
  | .descriptorFetch stand queue => decide (stand < 16) && decide (queue < 4)
  | .nop leaf => decide (leaf < 4608)
  | .matmul leaf => decide (leaf < 4608)
  | .accSave leaf => decide (leaf < 4608)
  | .accRestore leaf => decide (leaf < 4608)
  | .vecMap leaf => decide (leaf < 4608)
  | .vecSfu leaf => decide (leaf < 4608)
  | .vecReduce leaf => decide (leaf < 4608)
  | .attnInit leaf => decide (leaf < 4608)
  | .attnTile leaf => decide (leaf < 4608)
  | .attnFinal leaf => decide (leaf < 4608)
  | .attnSave leaf => decide (leaf < 4608)
  | .attnLoad leaf => decide (leaf < 4608)
  | .moveLocal leaf => decide (leaf < 4608)
  | .moveRemote leaf _ => decide (leaf < 4608)
  | .subdescComplete leaf _ => decide (leaf < 4608)
  | .commandComplete stand queue index => decide (stand < 16) && decide (queue < 4) && decide (index < 65536)
  | .leafPacketAtRouter twig phys stamp => decide (twig < 144) && decide (phys < 33) && decide (stamp < 256)
  | .twigRemapWrite _ _ => true
  | .twigRestoreWrite _ _ => true
  | .remapApply => true
  | .restoreBistDone _ => true
  | .idLeafResetWrite _ _ => true
  | .leafReset leaf => decide (leaf < 4608)
  | .twigBbufRegionWrite bough stand _ => decide (bough < 4) && decide (stand < 16)
  | .knotAdd _ knot data _ => decide (knot < 4096) && decide (data < 4294967296)
  | .knotSet _ knot data _ => decide (knot < 4096) && decide (data < 4294967296)
  | .knotSignal _ knot data _ => decide (knot < 4096) && decide (data < 4294967296)
  | .knotArrive _ knot _ => decide (knot < 4096)
  | .knotThreshWrite _ knot _ _ => decide (knot < 4096)
  | .knotConfigWrite _ knot _ _ => decide (knot < 4096)
  | .knotTest _ knot word => decide (knot < 4096) && decide (word.word < 8)
  | .knotUpdateApply knot _ => decide (knot < 4096)
  | .knotRefire knot _ => decide (knot < 4096)
  | .mirrorApply knot _ => decide (knot < 4096)
  | .fireMessageReceive io knot _ => decide (io < 2) && decide (knot < 4096)
  | .hbmRegionWrite stand region _ => decide (stand < 16) && decide (region < 4)
  | .hbmReserveWrite _ => true
  | .pf0Bar0Access addr _ _ => decide (addr < 1099511627776)
  | .vfBar0Access stand addr _ _ => decide (stand < 16) && decide (addr < 4398046511104)
  | .granuleFillStart granule => decide (granule < 576)
  | .granuleFillDone granule => decide (granule < 576)
  | .regionBecomesValid stand region => decide (stand < 16) && decide (region < 4)
  | .patrolScrubLine line _ => decide (line < 9663676416)
  | .rowCopyDone stack _ => decide (stack < 12)
  | .thermalSample _ _ => true
  | .pwrBrakeNAssert => true
  | .pwrBrakeNDeassert => true
  | .upwardStep => true
  | .vddLcFall => true
  | .envelopeRechoose => true
  | .parkMaskWrite reg _ => decide (reg < 3)
  | .deepSleepExitDone => true
  | .limbRetrain limb _ => decide (limb < 18)
  | .limbEnableWrite limb _ => decide (limb < 18)
  | .limbDetectDone limb polarity _ failedLanes => decide (limb < 18) && decide (polarity < 256) && decide (failedLanes < 256)
  | .limbBaseEqDone limb failedLanes => decide (limb < 18) && decide (failedLanes < 256)
  | .capReceive limb _ => decide (limb < 18)
  | .limbFullEqDone limb failedLanes => decide (limb < 18) && decide (failedLanes < 256)
  | .limbDeskewDone limb _ _ => decide (limb < 18)
  | .keycheckReceive limb _ => decide (limb < 18)
  | .limbTrainingTimeout limb => decide (limb < 18)
  | .flitReceive limb f => decide (limb < 18) && f.bytes.length == 200
  | .compIdleSend limb => decide (limb < 18)
  | .nakReceive limb group => decide (limb < 18) && decide (group < 64)
  | .markerReceive limb _ _ => decide (limb < 18)
  | .creditReceive limb _ _ => decide (limb < 18)
  | .statusHoldReceive limb => decide (limb < 18)
  | .holdStatusSend limb => decide (limb < 18)
  | .keyOldGenExpire limb keyIndex => decide (limb < 18) && decide (keyIndex < 17)
  | .packetInjectScheduled limb cycle => decide (limb < 20) && decide (cycle < 262144)
  | .packetInjectBestEffort dep => decide (dep.io < 2) && decide (dep.cycle < 262144)
  | .putReceive rx => rx.wf
  | .getReqReceive rx => rx.wf
  | .getRespReceive rx => rx.wf
  | .knotPacketReceive rx => rx.wf
  | .reduceReceive rx => rx.wf
  | .mcastPutReceive rx => rx.wf
  | .mackReceive rx => rx.wf
  | .errReceive rx => rx.wf
  | .faultReceive rx => rx.wf
  | .chainReceive rx _ => rx.wf
  | .opExpire _ => true
  | .packetResend _ => true
  | .resendTimeout _ => true
  | .niDrainStart _ => true
  | .drainComplete => true
  | .niDrainRelease _ => true
  | .niFslotMaskWrite stand _ => decide (stand < 16)
  | .niRankGrantWrite stand _ => decide (stand < 16)
  | .mcastBitmapDue stand index => decide (stand < 16) && decide (index < 65536)
  | .faultNoticeSend dep => decide (dep.io < 2) && decide (dep.cycle < 262144)
  | .cqTrigDoorbellTail stand _ _ => decide (stand < 16)
  | .cqTrigResume stand _ _ => decide (stand < 16)
  | .triggerFetch stand => decide (stand < 16)
  | .trigPut stand index => decide (stand < 16) && decide (index < 65536)
  | .trigGet stand index => decide (stand < 16) && decide (index < 65536)
  | .trigKnot stand index => decide (stand < 16) && decide (index < 65536)
  | .trigReduce stand index => decide (stand < 16) && decide (index < 65536)
  | .trigMcastPut stand index => decide (stand < 16) && decide (index < 65536)
  | .trigFold stand index => decide (stand < 16) && decide (index < 65536)
  | .trigA2a stand index => decide (stand < 16) && decide (index < 65536)
  | .foldSlice channel => decide (channel < 64)
  | .triggerComplete stand index => decide (stand < 16) && decide (index < 65536)
  | .crcWindowExpire channel => decide (channel < 64)
  | .chanAreaZeroizeDone channel => decide (channel < 64)
  | .collChanCfgWrite channel _ => decide (channel < 64)
  | .collSchedWrite engine reg _ => decide (engine < 2) && decide (reg < 8)
  | .collStandQuotaWrite stand _ => decide (stand < 16)
  | .standCtrlReset stand _ => decide (stand < 16)
  | .standResetEntry stand => decide (stand < 16)
  | .standResetDone stand => decide (stand < 16)
  | .standTwigOwnerWrite twig _ => decide (twig < 144)
  | .standMemSlotsWrite stand _ => decide (stand < 16)
  | .standKeyGenerate stand _ => decide (stand < 16)
  | .standActivate stand => decide (stand < 16)
  | .standFreed stand => decide (stand < 16)
  | .mbxReqDoorbell mbx _ => decide (mbx < 18)
  | .mbxReqRetire mbx _ => decide (mbx < 18)
  | .mbxRequestFetch mbx => decide (mbx < 18)
  | .hwResponderAnswer mbx => decide (mbx < 18)
  | .mirrorRecordReceive => true
  | .mirrorDoneReceive => true
  | .hello => true
  | .status => true
  | .close => true
  | .standCreate => true
  | .standModify => true
  | .standTeardown => true
  | .standReset => true
  | .standQuery => true
  | .precisionConsent => true
  | .pwrEnvelope => true
  | .pwrState => true
  | .pwrQuery => true
  | .ringConfig => true
  | .sscConfig => true
  | .clockQuery => true
  | .nodeSet => true
  | .rankWrite => true
  | .rankRead => true
  | .fslotSet => true
  | .mcastSet => true
  | .limbKeyLoad _ => true
  | .transportKey => true
  | .congRead => true
  | .chanBind => true
  | .chanUnbind => true
  | .foldSched => true
  | .trigQuota => true
  | .chanCrc => true
  | .chanQuery => true
  | .counterRead => true
  | .counterSelect => true
  | .traceSet => true
  | .frost => true
  | .fwChainSet => true
  | .fwHeader _ => true
  | .fwPiece => true
  | .fwStatus => true
  | .fwActivate => true
  | .fwAbort => true
  | .fwPolicy => true
  | .identity => true
  | .identityRecord => true
  | .calSet => true
  | .calRead => true
  | .logRead => true
  | .locate => true
  | .redStatus => true
  | .swapDrill => true
  | .leafRemap => true
  | .leafRestore => true
  | .csrRead => true
  | .csrWrite => true
  | .dumpRead => true
  | .dumpTrigger => true
  | .leaseExpire => true
  | .coreWatchdogExpire _ => true
  | .surrender => true
  | .selfDiagFail _ => true
  | .tokenMove _ => true
  | .plannedTransfer _ => true
  | .takeoverComplete => true
  | .reversion => true
  | .crosslinkError => true
  | .mirrorSyncTimeout => true
  | .calendarEnd => true
  | .blockStore _ _ => true
  | .chainForward => true
  | .fwTransferTimeout => true
  | .activationPause _ _ => true
  | .recoveryPieceSubmit _ _ _ => true
  | .frostPinEdge => true
  | .trcFrostFreezeNext _ => true
  | .trcFrostRelease _ => true
  | .sampleWrite leaf counter => decide (leaf < 4608) && decide (counter < 4)
  | .hangWatchdogExpire stand queue => decide (stand < 16) && decide (queue < 5)
  | .hangDumpDone => true
  | .i3cReq slot => slot.length == 64
  | .i3cRsp => true
  | .i3cEvt => true
  | .i3cRegRd selector => decide (selector < 256)
  | .i3cRegWr selector _ => decide (selector < 256)
  | .entdaa _ addr => decide (addr < 128)
  | .setnewda addr => decide (addr < 128)
  | .rstdaa => true
  | .enec _ _ => true
  | .disec _ _ => true
  | .getpid => true
  | .getbcr => true
  | .getdcr => true
  | .getstatus => true
  | .getmwl => true
  | .getmrl => true
  | .setmwl n => decide (n < 65536)
  | .setmrl n => decide (n < 65536)
  | .hotJoinRequest => true
  | .ibiRaise => true
  | .perstNDeassert => true
  | .leafFaultReport leaf => decide (leaf < 4608)
  | .locateExpire => true
  | .holdupCharged => true
  | .limbSignalLoss limb => decide (limb < 18)

end Sys2Proof
end

