-- ==== Sys2Proof/Tests/Slice0.lean ====
section
/-! SUPPORT. The model's own tests: terms that WellFormed refuses, the values of the spec's worked examples, and for every obligation
with hypotheses a witness: concrete states and operands that meet the hypotheses of each of its clauses. -/

namespace Sys2Proof.Tests

open Sys2Proof Sys2Proof.Machine

-- One theorem is checked after another: so many kernel evaluations at once would each hold a thread's stack.
set_option Elab.async false

/-! ### States -/

/-- Fields of registers set one after another. -/
def put (l : List (Fld × Nat)) (s : State) : State := l.foldl (fun s x => s.setFld x.1 x.2) s

/-- Fields of the values in force set one after another. -/
def live (l : List (Fld × Nat)) (s : State) : State :=
  l.foldl (fun s x => s.setLive x.1.reg (x.1.put (s.liveRd x.1.reg) x.2)) s

/-- VAUX alone. -/
def off : State := { State.reset with boot := { vaux := true, vin := false } }

/-- Serving: Heartwood A holds the token, both are healthy, the epoch is valid, the monitor runs and the link is up. The words are those
of bring-up done at stage 6. -/
def up : State :=
  { State.reset with
    regs := [(CLK_STATUS, 0x4#64), (RING_STATUS, 0x11#64), (MBX_HEARTWOOD, 0x40#64), (MBX_RED_STATUS, 0x3000000000000000#64),
      (ID_BOOT, 0x2600000000000000#64)]
    boot := { everDone := true, endpoint := true },
    clk := { r33 := .finished, ringOn := true, rings := 300 },
    pcie := { perst := false, link := true, vfEnable := true, numVfs := 16 } }

/-- Stand 0 ACTIVE with twig 0, granule 0 of HBM and knots 0 to 15. -/
def act : State :=
  { up with
    regs := [(CLK_STATUS, 0x4#64), (RING_STATUS, 0x11#64), (STAND_CFG 0, 0x2000FFFF00000000#64), (MBX_HEARTWOOD, 0x40#64),
      (MBX_RED_STATUS, 0x3000000000000000#64), (ID_BOOT, 0x2600000000000000#64)]
    live := [(KNOT_GRANULE_OWNER 0, 0x8000000000000000#64), (HBM_REGION 0 0, 0x8000000000000000#64), (STAND_TWIG_OWNER 0, 0x8000000000000000#64)] }

/-- The same in step 2 of the guard band of ring 300. -/
def inBand : State := { act with clk := { act.clk with slot := 62, band := 2 } }

theorem test_states : up = put [(ID_BOOT_done, 1), (ID_BOOT_stage, 6), (MBX_HEARTWOOD_token, 1), (MBX_RED_STATUS_a_healthy, 1),
      (MBX_RED_STATUS_b_healthy, 1), (RING_STATUS_epoch_valid, 1), (CLK_STATUS_mon_running, 1)] { up with regs := [] } ∧
    act = live [(STAND_TWIG_OWNER_valid 0, 1), (HBM_REGION_valid 0 0, 1), (KNOT_GRANULE_OWNER_valid 0, 1)] (put [(STAND_CFG_state 0, 2)] up) := by
  decide +kernel

/-! ### WellFormed: for each check a term it refuses, and the largest operands it takes -/

/-- A packet, the receipt of one, a capability record, a flit, a marker and a slot, for operands a test does not look at. -/
def aPacket : Packet :=
  { type := 1, flags := 0, dstStand := 0, srcStand := 0, srcLimb := 0, target := 1, dstNode := 5, dstEpoch := 1, srcNode := 7, srcEpoch := 1,
    srcRank := 0, group := 0, length := 0, knot := 0, knotOp := 15, knotValue := 0, remote := 0, opId := 9, channel := 0, reserved := 0,
    inject := 0, pktIndex := 0, pktCount := 1, deliverBy := 0, coll := 0, payload := [] }
@[inherit_doc aPacket] def anRx : Rx := { limb := 3, keyIndex := 0, late := false, sched := false, pkt := aPacket }
@[inherit_doc aPacket] def aCap : Cap := ⟨2, 1, 4, 7, 3, 5, 1, 1, true, 255⟩

/-- A flit as a limb receives it: the fields of its first word, with a CRC that matches. -/
def flit (ty vc : Nat) (h : FlitHead) (body : List Byte) : Flit := ⟨flitBytes (flitWord ty vc true true h 0) body, false, false, false, true, 0⟩

@[inherit_doc flit] def aFlit : Flit := flit 1 0 { seq := 0, ackGroup := 63, nak := false } []

@[inherit_doc aPacket] def aMarker : Marker := ⟨5, 1, true, 3, 1, 5, false⟩
@[inherit_doc aPacket] def aSlot : List Byte := (List.range 64).map (BitVec.ofNat 8)

theorem test_wf_refuses0 :
    ∀ i ∈ ([
     .pcieFlr 16, .vfEnableChange false 17, .ioscTrimDone 1024, .hbmStageDone 4096, .bringupStageTimeout 6, .leafWaveEnable 8,
     .leafWaveScanDone 8 [], .slotBoundary 62, .faultEntryFree 256, .monitorWindowEnd 65536, .registerWrite .pf0 134217728 0 0#64,
     .cqDoorbellTail 16 0 0#64 false, .cqDoorbellTail 0 4 0#64 false, .cqResume 16 0 0#64 false, .cqResume 0 4 0#64 false,
     .descriptorFetch 16 0, .descriptorFetch 0 4, .nop 4608, .matmul 4608, .accSave 4608, .accRestore 4608, .vecMap 4608, .vecSfu 4608,
     .vecReduce 4608] : List Instr),
      i.wf = false := by decide +kernel

theorem test_wf_refuses1 :
    ∀ i ∈ ([
     .attnInit 4608, .attnTile 4608, .attnFinal 4608, .attnSave 4608, .attnLoad 4608, .moveLocal 4608, .moveRemote 4608 [],
     .subdescComplete 4608 0, .commandComplete 16 0 0, .commandComplete 0 4 0, .commandComplete 0 0 65536, .leafPacketAtRouter 144 0 0,
     .leafPacketAtRouter 0 33 0, .leafPacketAtRouter 0 0 256, .leafReset 4608, .twigBbufRegionWrite 4 0 0#64,
     .twigBbufRegionWrite 0 16 0#64, .knotAdd .pf0 4096 0 0, .knotAdd .pf0 0 4294967296 0, .knotSet .pf0 4096 0 0,
     .knotSet .pf0 0 4294967296 0, .knotSignal .pf0 4096 0 0, .knotSignal .pf0 0 4294967296 0, .knotArrive .pf0 4096 0] : List Instr),
      i.wf = false := by decide +kernel

theorem test_wf_refuses2 :
    ∀ i ∈ ([
     .knotThreshWrite .pf0 4096 0#64 0, .knotConfigWrite .pf0 4096 0#64 0, .knotTest .pf0 4096 ⟨0, 0⟩, .knotTest .pf0 0 ⟨8, 0⟩,
     .knotUpdateApply 4096 0, .knotRefire 4096 0, .mirrorApply 4096 0, .fireMessageReceive 2 0 0, .fireMessageReceive 0 4096 0,
     .hbmRegionWrite 16 0 0#64, .hbmRegionWrite 0 4 0#64, .pf0Bar0Access 1099511627776 (.read 8) [], .vfBar0Access 16 0 (.read 8) [],
     .vfBar0Access 0 4398046511104 (.read 8) [], .granuleFillStart 576, .granuleFillDone 576, .regionBecomesValid 16 0,
     .regionBecomesValid 0 4, .patrolScrubLine 9663676416 .clean, .rowCopyDone 12 0, .parkMaskWrite 3 0#64, .limbRetrain 18 0#64,
     .limbEnableWrite 18 0#64, .limbDetectDone 18 0 false 0] : List Instr),
      i.wf = false := by decide +kernel

theorem test_wf_refuses3 :
    ∀ i ∈ ([
     .limbDetectDone 0 256 false 0, .limbDetectDone 0 0 false 256, .limbBaseEqDone 18 0, .limbBaseEqDone 0 256, .capReceive 18 aCap,
     .limbFullEqDone 18 0, .limbFullEqDone 0 256, .limbDeskewDone 18 0 0, .keycheckReceive 18 false, .limbTrainingTimeout 18,
     .flitReceive 18 aFlit, .compIdleSend 18, .nakReceive 18 0, .nakReceive 0 64, .markerReceive 18 aMarker 0, .creditReceive 18 0 0,
     .statusHoldReceive 18, .holdStatusSend 18, .keyOldGenExpire 18 0, .keyOldGenExpire 0 17, .packetInjectScheduled 20 0, .packetInjectScheduled 0 262144,
     .flitReceive 0 { aFlit with bytes := [] }, .packetInjectBestEffort ⟨0, 262144⟩,
     .packetInjectBestEffort ⟨2, 0⟩, .putReceive { anRx with limb := 18 }, .getReqReceive { anRx with limb := 18 }] : List Instr),
      i.wf = false := by decide +kernel

theorem test_wf_refuses4 :
    ∀ i ∈ ([
     .getRespReceive { anRx with limb := 18 }, .knotPacketReceive { anRx with limb := 18 }, .reduceReceive { anRx with limb := 18 },
     .mcastPutReceive { anRx with limb := 18 }, .mackReceive { anRx with limb := 18 }, .errReceive { anRx with limb := 18 },
     .faultReceive { anRx with limb := 18 }, .chainReceive { anRx with limb := 18 } ⟨true, true, true⟩, .niFslotMaskWrite 16 0#64,
     .niRankGrantWrite 16 0#64, .mcastBitmapDue 16 0, .mcastBitmapDue 0 65536, .faultNoticeSend ⟨2, 0⟩, .faultNoticeSend ⟨0, 262144⟩, .cqTrigDoorbellTail 16 0#64 false,
     .cqTrigResume 16 0#64 false, .triggerFetch 16, .trigPut 16 0, .trigPut 0 65536, .trigGet 16 0, .trigGet 0 65536, .trigKnot 16 0,
     .trigKnot 0 65536, .trigReduce 16 0, .trigReduce 0 65536] : List Instr),
      i.wf = false := by decide +kernel

theorem test_wf_refuses5 :
    ∀ i ∈ ([
     .trigMcastPut 16 0, .trigMcastPut 0 65536, .trigFold 16 0, .trigFold 0 65536, .trigA2a 16 0, .trigA2a 0 65536, .foldSlice 64,
     .triggerComplete 16 0, .triggerComplete 0 65536, .crcWindowExpire 64, .chanAreaZeroizeDone 64, .collChanCfgWrite 64 0#64,
     .collSchedWrite 2 0 0#64, .collSchedWrite 0 8 0#64, .collStandQuotaWrite 16 0#64, .standCtrlReset 16 0#64, .standResetEntry 16,
     .standResetDone 16, .standTwigOwnerWrite 144 0#64, .standMemSlotsWrite 16 0#64, .standKeyGenerate 16 0#64, .standActivate 16,
     .standFreed 16, .mbxReqDoorbell 18 0#64] : List Instr),
      i.wf = false := by decide +kernel

theorem test_wf_refuses6 :
    ∀ i ∈ ([
     .mbxReqRetire 18 0#64, .mbxRequestFetch 18, .hwResponderAnswer 18, .sampleWrite 4608 0, .sampleWrite 0 4, .hangWatchdogExpire 16 0,
     .hangWatchdogExpire 0 5, .i3cReq (aSlot ++ [0#8]), .i3cRegRd 256, .i3cRegWr 256 0#64, .entdaa false 128, .setnewda 128, .setmwl 65536,
     .setmrl 65536, .leafFaultReport 4608, .limbSignalLoss 18, .putReceive { anRx with pkt := { aPacket with type := 256 } },
     .putReceive { anRx with pkt := { aPacket with flags := 256 } }, .putReceive { anRx with pkt := { aPacket with dstStand := 16 } },
     .putReceive { anRx with pkt := { aPacket with srcStand := 16 } }, .putReceive { anRx with pkt := { aPacket with srcLimb := 256 } },
     .putReceive { anRx with pkt := { aPacket with dstNode := 4096 } }, .putReceive { anRx with pkt := { aPacket with srcNode := 4096 } },
     .putReceive { anRx with pkt := { aPacket with dstEpoch := 65536 } }] : List Instr),
      i.wf = false := by decide +kernel

theorem test_wf_refuses7 :
    ∀ i ∈ ([
     .putReceive { anRx with pkt := { aPacket with srcEpoch := 65536 } }, .putReceive { anRx with pkt := { aPacket with knot := 4096 } },
     .putReceive { anRx with pkt := { aPacket with payload := List.replicate 4097 0#8 } }, .putReceive { anRx with keyIndex := 17 }] : List Instr),
      i.wf = false := by decide +kernel

theorem test_wf_takes0 :
    ∀ i ∈ ([
     .pcieFlr 15, .vfEnableChange false 16, .ioscTrimDone 1023, .hbmStageDone 4095, .bringupStageTimeout 5, .leafWaveEnable 7,
     .leafWaveScanDone 7 [], .slotBoundary 61, .faultEntryFree 255, .monitorWindowEnd 65535, .registerWrite .pf0 134217727 0 0#64,
     .cqDoorbellTail 15 3 0#64 false, .cqResume 15 3 0#64 false, .descriptorFetch 15 3, .nop 4607, .matmul 4607, .accSave 4607,
     .accRestore 4607, .vecMap 4607, .vecSfu 4607, .vecReduce 4607, .attnInit 4607, .attnTile 4607, .attnFinal 4607] : List Instr),
      i.wf = true := by decide +kernel

theorem test_wf_takes1 :
    ∀ i ∈ ([
     .attnSave 4607, .attnLoad 4607, .moveLocal 4607, .moveRemote 4607 [], .subdescComplete 4607 0, .commandComplete 15 3 65535,
     .leafPacketAtRouter 143 32 255, .leafReset 4607, .twigBbufRegionWrite 3 15 0#64, .knotAdd .pf0 4095 4294967295 0,
     .knotSet .pf0 4095 4294967295 0, .knotSignal .pf0 4095 4294967295 0, .knotArrive .pf0 4095 0, .knotThreshWrite .pf0 4095 0#64 0,
     .knotConfigWrite .pf0 4095 0#64 0, .knotTest .pf0 4095 ⟨7, 0⟩, .knotUpdateApply 4095 0, .knotRefire 4095 0, .mirrorApply 4095 0,
     .fireMessageReceive 1 4095 0, .hbmRegionWrite 15 3 0#64, .pf0Bar0Access 1099511627775 (.read 8) [],
     .vfBar0Access 15 4398046511103 (.read 8) [], .granuleFillStart 575] : List Instr),
      i.wf = true := by decide +kernel

theorem test_wf_takes2 :
    ∀ i ∈ ([
     .granuleFillDone 575, .regionBecomesValid 15 3, .patrolScrubLine 9663676415 .clean, .rowCopyDone 11 0, .parkMaskWrite 2 0#64,
     .limbRetrain 17 0#64, .limbEnableWrite 17 0#64, .limbDetectDone 17 255 false 255, .limbBaseEqDone 17 255, .capReceive 17 aCap,
     .limbFullEqDone 17 255, .limbDeskewDone 17 0 0, .keycheckReceive 17 false, .limbTrainingTimeout 17, .flitReceive 17 aFlit,
     .compIdleSend 17, .nakReceive 17 63, .markerReceive 17 aMarker 0, .creditReceive 17 0 0, .statusHoldReceive 17, .holdStatusSend 17,
     .keyOldGenExpire 17 16, .packetInjectScheduled 19 262143,
     .packetInjectBestEffort ⟨1, 262143⟩] : List Instr),
      i.wf = true := by decide +kernel

theorem test_wf_takes3 :
    ∀ i ∈ ([
     .putReceive anRx, .getReqReceive anRx, .getRespReceive anRx, .knotPacketReceive anRx, .reduceReceive anRx, .mcastPutReceive anRx,
     .mackReceive anRx, .errReceive anRx, .faultReceive anRx, .chainReceive anRx ⟨true, true, true⟩, .niFslotMaskWrite 15 0#64,
     .niRankGrantWrite 15 0#64, .mcastBitmapDue 15 65535, .faultNoticeSend ⟨1, 262143⟩, .cqTrigDoorbellTail 15 0#64 false,
     .cqTrigResume 15 0#64 false, .triggerFetch 15, .trigPut 15 65535, .trigGet 15 65535, .trigKnot 15 65535, .trigReduce 15 65535,
     .trigMcastPut 15 65535, .trigFold 15 65535, .trigA2a 15 65535] : List Instr),
      i.wf = true := by decide +kernel

theorem test_wf_takes4 :
    ∀ i ∈ ([
     .foldSlice 63, .triggerComplete 15 65535, .crcWindowExpire 63, .chanAreaZeroizeDone 63, .collChanCfgWrite 63 0#64,
     .collSchedWrite 1 7 0#64, .collStandQuotaWrite 15 0#64, .standCtrlReset 15 0#64, .standResetEntry 15, .standResetDone 15,
     .standTwigOwnerWrite 143 0#64, .standMemSlotsWrite 15 0#64, .standKeyGenerate 15 0#64, .standActivate 15, .standFreed 15,
     .mbxReqDoorbell 17 0#64, .mbxReqRetire 17 0#64, .mbxRequestFetch 17, .hwResponderAnswer 17, .sampleWrite 4607 3,
     .hangWatchdogExpire 15 4, .i3cReq aSlot, .i3cRegRd 255, .i3cRegWr 255 0#64] : List Instr),
      i.wf = true := by decide +kernel

theorem test_wf_takes5 :
    ∀ i ∈ ([
     .entdaa false 127, .setnewda 127, .setmwl 65535, .setmrl 65535, .leafFaultReport 4607, .limbSignalLoss 17,
     .putReceive { anRx with keyIndex := 16, limb := 17, pkt := { aPacket with type := 255, flags := 255, dstStand := 15, srcStand := 15, srcLimb := 255, dstNode := 4095, srcNode := 4095, dstEpoch := 65535, srcEpoch := 65535, knot := 4095, payload := List.replicate 4096 0#8 } }] : List Instr),
      i.wf = true := by decide +kernel

/-! ### Witnesses: for each clause of an obligation, states and operands that meet its hypotheses together, at the edge of a range where it has one -/

/-- A part of the state changed. -/
def setBoot (s : State) (f : Boot → Boot) : State := { s with boot := f s.boot }
@[inherit_doc setBoot] def setHw (s : State) (f : Hw → Hw) : State := { s with hw := f s.hw }
@[inherit_doc setBoot] def setPcie (s : State) (f : Pcie → Pcie) : State := { s with pcie := f s.pcie }
@[inherit_doc setBoot] def setClk (s : State) (f : Clock → Clock) : State := { s with clk := f s.clk }
@[inherit_doc setBoot] def setPwr (s : State) (f : Power → Power) : State := { s with pwr := f s.pwr }

theorem witness_StepRunsTheFrontCommand :
    ({ act with pending := [Instr.getpid, .getbcr] } : State).pending = .getpid :: [.getbcr] ∧ act.pending = [] := by
  decide +kernel

theorem witness_EveryStepKeepsTheTablesCanonical : act.Canonical ∧ step act = .next act := by
  unfold State.Canonical; exact ⟨by decide +kernel, rfl⟩

theorem witness_FusedIdentityIsFixedAndTheFloorNeverFalls : step act = .next act := rfl

theorem witness_I3cCommandCodes :
    (up.boot.vaux = true ∧ up.flag ID_I3C_dyn_valid = false) ∧
    (let s := put [(ID_I3C_dyn_valid, 1)] off; s.boot.vaux = true ∧ s.flag ID_I3C_dyn_valid = true) := by decide +kernel

theorem witness_I3cFramesAndInterrupts :
    (off.boot.vaux = true ∧ aSlot.length = 64 ∧ off.i3c.busy = false) ∧
    (let s := { up with i3c := { busy := true } }; s.boot.vaux = true ∧ aSlot.length = 64 ∧ s.i3c.busy = true) ∧
    (let s := { off with i3c := { rsp := [aSlot, []], evt := [aSlot] } }
     s.boot.vaux = true ∧ s.i3c.rsp = aSlot :: [[]] ∧ s.i3c.evt = aSlot :: []) ∧
    (up.boot.vaux = true ∧ i3cRegister 0 = some PWR_STATUS ∧ up.boot.vin = true) ∧
    (let s := put [(ID_I3C_hj_en, 1)] off
     s.boot.vaux = true ∧ s.flag ID_I3C_hj_en = true ∧ s.flag ID_I3C_dyn_valid = false ∧ s.i3c.hotJoin = false) ∧
    (let s := put [(ID_I3C_ibi_en, 1), (ID_I3C_dyn_valid, 1)] { up with i3c := { ibi := 0x80 } }
     s.boot.vaux = true ∧ s.flag ID_I3C_ibi_en = true ∧ s.flag ID_I3C_dyn_valid = true ∧ s.i3c.ibi ≠ 0) := by decide +kernel

theorem witness_EndpointResetsAndTheWakeMessage :
    (up.pinsLive = true ∧ up.pcie.perst = false ∧ up.pcie.link = true) ∧
    (let s := setPcie up fun p => { p with perst := true, link := false }; s.pinsLive = true ∧ s.pcie.perst = true) ∧
    (let s := setPcie up fun p => { p with d3 := true, pmeEn := true, pmeDue := true }
     s.pcie.pmeDue = true ∧ s.pcie.link = true ∧ s.pcie.d3 = true ∧ s.pcie.pmeEn = true) ∧
    (let s := setPcie up fun p => { p with pmeDue := true }; s.pcie.pmeDue = true ∧ s.pcie.link = true ∧ s.pcie.d3 = false) := by decide +kernel

theorem witness_SupplyEvents :
    off.boot.vaux = true ∧ up.boot.vin = true ∧ (up.transferring = false ∧ up.hw.pausing = false) ∧
    (setBoot off fun b => { b with holdup := some 100 }).boot.holdup = some 100 := by decide +kernel

theorem witness_WarmResets :
    (up.pinsLive = true ∧ up.boot.warmPin = false ∧ up.boot.everDone = true) ∧
    (setBoot up fun b => { b with warmPin := true }).boot.warmPin = true ∧
    (let v := 0x5752000000000001#64; bitsOf v.toNat 63 48 = 0x5752 ∧ v.getLsbD 0 = true ∧ up.boot.vin = true ∧ up.pcie.d3 = false) ∧
    (let s := setBoot up fun b => { b with idReset := [4, 2] }; s.boot.idReset = 4 :: [2] ∧ s.boot.everDone = true) ∧
    (let s := setBoot up fun b => { b with idReset := [2], everDone := false }
     s.boot.everDone = false ∧ s.pinsLive = true ∧ s.boot.warmPin = false ∧ s.boot.idReset = 2 :: []) ∧
    up.transferring = false := by decide +kernel

/-- Bring-up at a stage. -/
def booting (stage : Nat) (r33 : R33) (cold : Bool) : State :=
  put [(ID_BOOT_stage, stage)] { State.reset with boot := { cold, imgA := true, imgB := true }, clk := { r33 } }

theorem witness_TaprootBringsUpTheFirstHolder :
    ((booting 0 .waitEdges true).booting = true ∧ (booting 0 .waitEdges true).stage = 0) ∧
    (let s := booting 1 .waitEdges true; s.booting = true ∧ s.stage = 1 ∧ s.clk.r33 = .waitEdges) ∧
    (let s := booting 1 .trimming true; s.booting = true ∧ s.clk.r33 = .trimming ∧ s.flag CLK_MON_CFG_clk_lock = false) ∧
    (put [(CLK_MON_CFG_clk_lock, 1)] (booting 1 .trimming true)).flag CLK_MON_CFG_clk_lock = true ∧
    (let s := booting 1 .windows true; s.booting = true ∧ s.clk.r33 = .windows ∧ s.clk.windows < 16) ∧
    (let s := setClk (booting 1 .windows true) fun c => { c with windows := 16 }
     s.booting = true ∧ s.clk.r33 = .windows ∧ 16 ≤ s.clk.windows) ∧
    (let s := booting 1 .finished true; s.booting = true ∧ s.stage = 1 ∧ s.clk.r33 = .finished) ∧
    (let s := booting 2 .waitEdges true; s.booting = true ∧ s.stage = 2) ∧ (let s := booting 3 .finished true; s.booting = true ∧ s.stage = 3) ∧
    (let s := booting 1 .windows true; s.booting = true ∧ s.stage = 1 ∧ s.clk.r33 ≠ .finished) ∧
    (let s := (booting 1 .finished false).store (journalAt 0 0) [0#8]
     s.booting = true ∧ s.stage = 1 ∧ s.clk.r33 = .finished ∧ s.boot.cold = false ∧ s.newestRecord = none) ∧
    (let s := booting 1 .finished false
     s.booting = true ∧ s.stage = 1 ∧ s.clk.r33 = .finished ∧ s.boot.cold = false ∧
     s.newestRecord.any (fun r => r.active == 0 && r.state0 == 3 && decide (s.fuses.floor ≤ r.arb)) = true ∧
     s.bytes (journalAt s.journal.half s.journal.page + 248) 8 = List.replicate 8 0#8) ∧
    (let s := booting 2 .finished true
     s.powered = true ∧ s.safeHold = false ∧ 2 ≤ s.stage ∧ s.boot.imgA = true ∧ s.boot.imgB = true ∧ s.token = 0 ∧ s.clk.ringOn = false) ∧
    (let s := put [(MBX_RED_STATUS_b_healthy, 1)] (booting 3 .finished true)
     s.powered = true ∧ s.safeHold = false ∧ s.token = 0 ∧ s.healthy 2 = true ∧ s.healthy 1 = false) := by decide +kernel

theorem witness_BringupStagesCompleteInOrder :
    ((booting 3 .finished true).booting = true ∧ (booting 3 .finished true).stage = 3) ∧
    (let s := booting 4 .finished true; 4 ≤ s.stage ∧ s.boot.hbmDone = false ∧ s.boot.cold = true) ∧
    (let s := put [(HBM_SPARE_pc_pending 11, 1)] (booting 4 .finished false)
     4 ≤ s.stage ∧ s.boot.hbmDone = false ∧ s.boot.cold = false ∧ s.flag (HBM_SPARE_pc_pending 11) = true) ∧
    (let s := setBoot (booting 5 .finished true) fun b => { b with hbmDone := true }
     s.booting = true ∧ s.stage = 5 ∧ s.boot.hbmDone = true ∧ s.clk.slot = 0 ∧ ∀ l, l < 18 → s.limbState l = 0 ∨ 8 ≤ s.limbState l) ∧
    (let s := setClk (booting 6 .finished true) fun c => { c with band := 2, slot := 62, rings := 28 }
     s.booting = true ∧ s.stage = 6 ∧ s.boot.waves.contains 7 = false ∧ s.boot.cold = true ∧ s.inStep2 (s.boot.leafRing + 4 * 7) = true) ∧
    (let s := setClk (setBoot (booting 6 .finished true) fun b => { b with waves := [7] }) fun c => { c with band := 2, slot := 62, rings := 92 }
     s.booting = true ∧ s.boot.cold = true ∧ s.inStep2 (s.boot.leafRing + 4 * 7 + 64) = true ∧ s.boot.waves.contains 7 = true ∧ s.boot.scanned.contains 7 = false ∧
     s.fld (ID_FUSE_SPARE_bad_mask 143) = 0 ∧ s.fld (ID_FUSE_SPARE_fuse_spare 143) = 0x3F) ∧
    (let s := setClk (setBoot (booting 6 .finished true) fun b => { b with waves := List.range 8, scanned := List.range 8 }) fun c => { c with rings := 93 }
     s.booting = true ∧ s.stage = 6 ∧ s.boot.waves.length = 8 ∧ s.boot.scanned.length = 8 ∧ s.clk.slot = 0 ∧
     s.boot.leafRing + (if s.boot.cold then 93 else 64) ≤ s.rings) ∧
    (let s := setClk (setBoot (booting 6 .finished false) fun b => { b with waves := List.range 8 }) fun c => { c with rings := 64 }
     s.booting = true ∧ s.stage = 6 ∧ s.boot.waves.length = 8 ∧ s.boot.cold = false ∧ s.clk.slot = 0 ∧
     s.boot.leafRing + (if s.boot.cold then 93 else 64) ≤ s.rings) := by decide +kernel

theorem witness_ReferenceFailureFailsOver :
    (up.boot.vin = true ∧ up.flag CLK_STATUS_mon_running = true ∧ up.clk.r33 = .finished ∧
     up.fld CLK_MON_CFG_pass_lo ≤ 5095 ∧ 5145 ≤ up.fld CLK_MON_CFG_pass_hi ∧ 5094 < up.fld CLK_MON_CFG_pass_lo ∧ up.fld CLK_MON_CFG_pass_hi < 5146) ∧
    (let s := setClk up fun c => { c with r33 := .windows }
     s.boot.vin = true ∧ s.flag CLK_STATUS_mon_running = true ∧ s.clk.r33 ≠ .finished) := by decide +kernel

theorem witness_SlotsGuardBandAndRingBoundary :
    (up.counting = true ∧ up.clk.slot ≤ 0 ∧ up.clk.slot ≤ 61 ∧ up.clk.band = 0 ∧ up.ni.rxBuf = [] ∧ up.pwr.stateReq = none ∧ up.pwrState = 0 ∧
     ∀ st, st < 16 → (up.stand st).resetCause = none) ∧
    (let s := put [(RING_STATUS_epoch_valid, 0)] up; s.counting = true ∧ s.admits = false) ∧
    (let s := { up with fw := { up.fw with activate := true } }; s.counting = true ∧ s.clk.band = 0 ∧ s.fw.activate = true) ∧
    (let s := setClk up fun c => { c with slot := 62 }; s.counting = true ∧ 62 ≤ s.clk.slot ∧ s.ni.rxBuf = []) := by decide +kernel

theorem witness_SyncPulseAcceptance :
    (up.counting = true ∧ 2 ≤ 8 ∧ up.epoch = true ∧ up.flag RING_CFG_sync_arm = false) ∧
    (let s := put [(RING_CFG_sync_arm, 1)] { up with leaves := [(0, { queue := [⟨0, 0, 0, 0, 0, [], 0, 0, false, 0, false⟩] })] }
     s.counting = true ∧ s.epoch = true ∧ s.flag RING_CFG_sync_arm = true ∧ s.drained = false) ∧
    (let s := put [(RING_CFG_sync_arm, 1)] up
     s.counting = true ∧ s.flag RING_CFG_sync_arm = true ∧ s.drained = true ∧ 0 < s.refNow ∧ s.hw.admin = []) ∧
    (let s := put [(RING_STATUS_epoch_valid, 0)] up; s.counting = true ∧ s.epoch = false ∧ 0 < s.refNow) := by decide +kernel

theorem witness_SafeHoldStopsTheDataPath :
    (up.powered = true ∧ up.safeHold = false) ∧ (let s := put [(PWR_STATUS_state, 5)] up; s.powered = true ∧ s.safeHold = true) := by decide +kernel

theorem witness_FailingHeartwoodAndTheToken :
    (up.powered = true ∧ up.token = 1 ∧ up.safeHold = false ∧ up.flag MBX_RED_STATUS_takeover_running = false ∧ up.hw.pausing = false ∧
     up.clk.slot = 0 ∧ (setClk up fun c => { c with slot := 63 }).clk.slot ≠ 0 ∧ sideNo .a = up.token ∧ sideNo .b ≠ up.token ∧ up.hw.drill = none ∧ up.healthy up.token = true) ∧
    (let s := setHw up fun h => { h with leave := some 15 }
     s.powered = true ∧ s.token = 1 ∧ s.hw.leave = some 15 ∧ s.clk.slot = 0 ∧ s.hw.pausing = false ∧ s.healthy (otherNo s.token) = true) ∧
    (let s := put [(MBX_RED_STATUS_b_healthy, 0)] (setHw up fun h => { h with leave := some 3 })
     s.hw.leave = some 3 ∧ s.healthy (otherNo s.token) = false ∧ s.safeHold = false) := by decide +kernel

/-- A record of the mirror's queue. -/
def aRecord (held done : Bool) : Record := ⟨17, 63, aSlot, [], none, held, done⟩

theorem witness_TransfersTakeoverAndTheStandby :
    (let s := put [(MBX_HEARTWOOD_token, 2), (MBX_RED_STATUS_a_health_rings, 256)] up
     s.token = 2 ∧ 256 ≤ s.fld MBX_RED_STATUS_a_health_rings ∧ s.healthy 1 = true ∧ s.transferring = false ∧ s.fw.activate = false ∧
     s.hw.planned = none) ∧
    (let s := setHw up fun h => { h with planned := some 15 }
     s.powered = true ∧ s.token = 1 ∧ s.hw.planned = some 15 ∧ s.clk.slot = 0 ∧ s.hw.pausing = false ∧ s.hw.plannedFrom ≤ s.clk.rings ∧ s.healthy (otherNo s.token) = true ∧ s.hw.drill = none ∧
     s.healthy s.token = true) ∧
    (let s := setHw (put [(MBX_HEARTWOOD_token, 2)] up) fun h => { h with planned := some 4 }
     s.powered = true ∧ s.token = 2 ∧ s.hw.planned = some 4 ∧ s.healthy (otherNo s.token) = true ∧ s.hw.drill = none ∧ s.clk.slot = 0 ∧
     s.ring % 4 = 0) ∧
    (let s := setClk (setHw (put [(MBX_HEARTWOOD_token, 2), (RING_TIME_ring, 3)] up) fun h => { h with planned := some 4 })
       fun c => { c with slot := 0 }
     s.hw.planned = some 4 ∧ s.token = 2 ∧ s.ring % 4 ≠ 0) ∧
    (let s := put [(MBX_RED_STATUS_takeover_running, 1)] (setHw up fun h => { h with takeoverRings := 1 })
     s.clk.slot = 0 ∧ 1 ≤ s.hw.takeoverRings ∧ s.flag MBX_RED_STATUS_takeover_running = true ∧ s.safeHold = false ∧ s.hw.holdDue = false ∧ s.powered = true) ∧
    (put [(MBX_CAL_STATUS_valid, 1)] up).flag MBX_CAL_STATUS_valid = true ∧
    (let s := setHw up fun h => { h with records := [aRecord false false] }
     s.hw.records = aRecord false false :: [] ∧ (aRecord false false).held = false) ∧
    (let s := setHw up fun h => { h with records := [aRecord true true] }
     s.hw.records = aRecord true true :: [] ∧ (aRecord true true).held = true ∧ (aRecord true true).done = true ∧ s.token = 1 ∧
     s.healthy (otherNo s.token) = true ∧ (aRecord true true).slot.length = 64) := by decide +kernel

theorem witness_HbmRegionsFillsAndScrub :
    act.regionRejected 15 3 0#64 = false ∧ act.regionRejected 15 3 (0x8000000002400000#64) = true ∧
    bitsOf (0x8000000000050006#64).toNat 25 16 < bitsOf (0x8000000000050006#64).toNat 9 0 ∧ 575 < bitsOf (0x8000000002400000#64).toNat 25 16 ∧
    (let v := 0x8000000000000000#64
     let w := act.liveRd (HBM_REGION 0 0)
     (0, 0) ≠ (15, 3) ∧ w ∈ act.regionWords 0 0 ∧ v.getLsbD 63 = true ∧ w.getLsbD 63 = true ∧
     bitsOf w.toNat 9 0 ≤ bitsOf v.toNat 25 16 ∧ bitsOf v.toNat 9 0 ≤ bitsOf w.toNat 25 16) ∧
    (let v := 0x80000000023F023F#64
     v.getLsbD 63 = true ∧ bitsOf v.toNat 9 0 ≤ 575 ∧ 575 ≤ bitsOf v.toNat 25 16 ∧
     (put [(HBM_RESERVE_valid, 1), (HBM_RESERVE_granule, 575)] act).isDumpGranule 575 = true ∧
     granuleGroup 575 ∈ ({ act with hbm := { fenced := [3] } } : State).hbm.fenced) ∧
    ((0x800000000000023F#64).getLsbD 63 = true ∧ bitsOf (0x800000000000023F#64).toNat 9 0 = 575 ∧ act.granuleTaken 575 = false ∧
     granuleGroup 575 ∉ act.hbm.fenced ∧ act.granuleTaken 0 = true ∧ 575 < bitsOf (0x8000000000000240#64).toNat 9 0 ∧
     (0x0000000000000240#64).getLsbD 63 = false) ∧
    (let s := { act with hbm := { waiting := [(575, 15)], filling := [(5, 1)] } }
     s.hbm.waiting.find? (fun e => e.1 == 575) = some (575, 15) ∧ s.hbmOn (granuleGroup 575) = true ∧
     ∀ e ∈ s.hbm.filling, granuleGroup e.1 ≠ granuleGroup 575) ∧
    (let s := { act with hbm := { filling := [(5, 1), (575, 15)] } }
     s.hbm.filling.find? (fun e => e.1 == 575) = some (575, 15) ∧ s.hbmOn (granuleGroup 575) = true ∧ 575 < 576) ∧
    (let s := put [(HBM_REGION_pending 15 3, 1)] (setClk { act with hbm := { target := [(63, 0x80000000023F023F#64)] } } fun c => { c with slot := 62, band := 2 })
     s.clk.band = 2 ∧ s.flag (HBM_REGION_pending 15 3) = true ∧ s.regionTarget 15 3 = 0x80000000023F023F#64 ∧
     s.wordFilling 15 (s.regionTarget 15 3) = false) ∧ act.clk.band ≠ 2 ∧
    (let s := put [(HBM_CFG_scrub_hours, 24)] act
     let l := hbmTop / 64 - 1
     l < hbmTop / 64 ∧ s.fld HBM_CFG_scrub_hours ≠ 0 ∧ s.hbmOn (l * 64 / groupBytes) = true ∧ joinErr (s.line l).err .clean = .clean ∧
     joinErr (s.line l).err (.single 33) = .single 33 ∧ joinErr (s.line l).err .uncorrectable = .uncorrectable) ∧
    (let s := { act with hbm := { copying := [hbmRow 100] }, lines := [(100, ⟨3, .single 4⟩)] }
     (s.line 100).err = .single 4) ∧
    hbmRow 100 ∈ ({ act with hbm := { copying := [hbmRow 100] } } : State).hbm.copying ∧ hbmRow 0 ≠ hbmRow 100 := by
  refine ⟨?_, ?_, ?_, ?_, ?_, ?_, ?_, ?_, ?_, ?_, ?_, ?_, ?_, .head _, fun h => absurd (congrArg Prod.fst h) (by decide +kernel)⟩ <;> decide +kernel

theorem witness_HbmRegionsFillsAndScrub_of_a_moved_region :
    let s := put [(HBM_REGION_valid 0 3, 1), (HBM_REGION_base 0 3, 575), (HBM_REGION_limit 0 3, 575)] act
    let v := 0x80000000023E023E#64
    s.regionRejected 0 3 v = false ∧ s.regionBusy 0 3 v = false ∧ (put [(CQ_STATE_tail_seen 0 3, 1)] s).regionRejected 0 3 v = false ∧
    (put [(CQ_STATE_tail_seen 0 3, 1)] s).regionBusy 0 3 v = true := by decide +kernel

theorem witness_OwnerAndTenantBar0Access :
    (act.powered = true ∧ act.pcie.d3 = false ∧ 576 * 2 ^ 30 + 64 ≤ hbmTop + 64 ∧ 575 * 2 ^ 30 + 2 ^ 30 - 64 + 64 ≤ hbmTop ∧
     act.refusedGranule (576 * 2 ^ 30 - 64) 64 = none ∧ aSlot.length = 64 ∧ (576 * 2 ^ 30 - 64) % 64 = 0) ∧
    (∀ m, 2 ^ 30 / 64 ≤ m → m ≤ (2 ^ 30 + 64 - 1) / 64 → act.line m = { key := act.keyAt (2 ^ 30), err := .clean }) ∧
    act.refusedGranule 8 8 = some 0 ∧
    (0xFFFFF8 < 0x1000000 ∧ 0xFFFFF8 % 8 = 0) ∧
    ((act.twigStand ((0 + 1 - 1) / 2 ^ 18 / 32)).isSome = true) ∧
    (0x48000000 - 8 + 8 ≤ 0x48000000 ∧
     ¬ ∃ l, (0x48000000 - 8) / 2 ^ 18 ≤ l ∧ l ≤ (0x48000000 - 8 + 8 - 1) / 2 ^ 18 ∧ (act.twigStand (l / 32)).isSome = true) ∧
    (act.powered = true ∧ act.standState 0 = 2 ∧ act.inBounds 0 (2 ^ 30 - 64) aSlot.length = true ∧
     act.translate 0 (2 ^ 30 - 64) = some (2 ^ 30 - 64) ∧ (2 ^ 30 - 64) % 64 = 0 ∧ aSlot.length % 64 = 0) ∧
    act.inBounds 0 (2 ^ 30) 8 = false ∧
    (∀ x, x < sramAt 0 0 ∨ bbufAt 0 ≤ x →
      Memory.read (act.store (sramAt 3 0) [9#8]).mem x = Memory.read act.mem x) := by
  refine ⟨by decide +kernel, ?_, by decide +kernel, by decide +kernel, by decide +kernel, ⟨by decide +kernel, ?_⟩, by decide +kernel,
    by decide +kernel, ?_⟩
  · intro m h1 h2
    have : m = 2 ^ 24 := by omega
    subst this; decide +kernel
  · rintro ⟨l, h1, h2, h3⟩
    have : l = 4607 := by omega
    subst this; revert h3; decide +kernel
  · intro x hx
    rw [State.store_read]
    have : sramAt 3 0 + 1 ≤ bbufAt 0 ∧ sramAt 0 0 ≤ sramAt 3 0 := by decide +kernel
    simp only [List.length_singleton]
    rw [if_neg (by omega)]

theorem witness_TwigRemapAndRestore :
    (let s := put [(TWIG_STATUS_spare_phys 143, 32)] (act.setSlot 143 31 (some 31))
     let v := 0x8F1F#64
     bitsOf v.toNat 15 8 = 143 ∧ bitsOf v.toNat 5 0 = 31 ∧ v.getLsbD 16 = false ∧ s.flag TWIG_REMAP_busy = false ∧
     (s.spareOf 143).isSome = true ∧ s.token ≠ 2) ∧
    (let s := put [(TWIG_STATUS_spare_phys 143, 0x3F)] act
     s.flag TWIG_REMAP_busy = false ∧ s.spareOf 143 = none ∧ bitOf (s.fld (TWIG_LEAF_FAULT_slot_fault 143)) 31 = false) ∧
    (let s := put [(TWIG_STATUS_spare_phys 143, 0x3F), (TWIG_OOS_oos_mask 143, 2 ^ 32)] act
     let v := 0x18F20#64
     bitsOf v.toNat 15 8 = 143 ∧ bitsOf v.toNat 5 0 = 32 ∧ v.getLsbD 16 = true ∧ s.flag TWIG_REMAP_busy = false ∧
     s.isOos 143 32 = true ∧ s.spareOf 143 = none) ∧
    (let s := put [(TWIG_STATUS_spare_phys 143, 32)] { inBand.setSlot 143 31 (some 31) with remap := some (143, 31, true, 300) }
     s.remap = some (143, 31, true, 300) ∧ s.inStep2 300 = true ∧ s.inStep2 301 = false ∧ s.spareOf 143 = some 32 ∧ s.physOf 143 31 = some 31) ∧
    (let s := put [(TWIG_STATUS_spare_phys 143, 0x3F)] { inBand with remap := some (143, 31, true, 300) }
     s.remap = some (143, 31, true, 300) ∧ s.inStep2 300 = true ∧ s.spareOf 143 = none) ∧
    ({ act with restore := some (143, 32, none) } : State).restore = some (143, 32, none) ∧
    (let s := { inBand with restore := some (143, 32, some 300) }
     s.restore = some (143, 32, some 300) ∧ s.inStep2 300 = true) := by decide +kernel

theorem witness_LeafResetRouterAndRegions :
    (let v := 0x8F1F#64
     bitsOf v.toNat 15 8 = 143 ∧ bitsOf v.toNat 4 0 = 31 ∧ act.flag ID_LEAF_RESET_busy = false ∧ act.flag ID_BOOT_done = true) ∧
    (let s := { inBand.setSlot 143 31 (some 32) with leafRst := some (143, 31, 300) }
     s.leafRst = some (143, 31, 300) ∧ s.inStep2 300 = true ∧ s.twigStand 143 = none ∧ s.physOf 143 31 = some 32) ∧
    (let s := { inBand with leafRst := some (0, 31, 300) }
     s.leafRst = some (0, 31, 300) ∧ s.inStep2 300 = true ∧ (s.twigStand 0).isSome = true ∧ bitOf (s.fld (TWIG_LEAF_FAULT_slot_fault 0)) 31 = false) ∧
    (let s := put [(TWIG_LEAF_FAULT_slot_fault 0, 2 ^ 31)] act
     s.leafRst = none ∧ s.physOf 0 31 = some 31 ∧ bitOf (s.fld (TWIG_LEAF_FAULT_slot_fault 0)) 31 = true) ∧
    (let s := put [(STAND_CFG_state 0, 3)] act
     s.leafRst = none ∧ s.physOf 0 31 = some 31 ∧ ∃ st, s.twigStand 0 = some st ∧ s.standState st = 3) ∧
    act.slotOf 143 32 = none ∧ (act.slotOf 0 0 = some 0 ∧ act.slotEpoch 0 0 ≠ 255) ∧
    (put [(MBX_HEARTWOOD_token, 0)] act).hwActs = false ∧
    (act.hwActs = true ∧ (put [(MBX_RED_CFG_auto_remap, 0)] act).flag MBX_RED_CFG_auto_remap = false ∧
     (put [(MBX_RED_CFG_auto_remap, 1)] act).flag MBX_RED_CFG_auto_remap = true ∧ act.flag TWIG_REMAP_busy = false ∧
     (put [(TWIG_REMAP_busy, 1)] act).flag TWIG_REMAP_busy = true) ∧
    (bitsOf (0x504#64).toNat 13 8 = 5 ∧ bitsOf (0x405#64).toNat 13 8 < bitsOf (0x405#64).toNat 5 0) ∧
    (let v := 0x8000000000003F3F#64
     bitsOf v.toNat 5 0 ≤ 63 ∧ 63 ≤ bitsOf v.toNat 13 8 ∧ v.getLsbD 63 = true ∧
     bbufCovers ((act.wr (TWIG_BBUF_REGION 3 15) v).rd (TWIG_BBUF_REGION 3 15)) 63 = true ∧
     ∀ st, st < 16 → bbufCovers (act.rd (TWIG_BBUF_REGION 3 st)) 63 = false) ∧
    (bitsOf (0x504#64).toNat 5 0 ≤ bitsOf (0x504#64).toNat 13 8 ∧ (0x504#64).getLsbD 63 = false) := by
  refine ⟨?_, ?_, ?_, ?_, ⟨?_, ?_, 0, ?_⟩, ?_⟩ <;> decide +kernel

theorem witness_BrakeAndSequencerSteps :
    (up.pinsLive = true ∧ up.flag PWR_STATUS_brake = false ∧ up.tier = 4 ∧ (put [(PWR_STATUS_tier, 3)] up).tier < 4) ∧
    (let s := put [(PWR_STATUS_brake, 1)] (setClk up fun c => { c with standby := some 4 })
     s.pinsLive = true ∧ s.flag PWR_STATUS_brake = true ∧ s.clk.standby.isSome = true) ∧ up.clk.standby = none ∧
    (∀ base ∈ [297, 298], ∀ target ∈ [3, 4], ∀ narrow ∈ [0, 1], ∀ seen,
      let s := put [(PWR_STATUS_tier, 4), (PWR_STATUS_steps_left, 1), (PWR_SEQ_tier_req, target), (PWR_STATUS_narrow, narrow), (PWR_SEQ_narrow_req, 0)]
        { up with pwr := { base := some base, stepsDone := 0, vddDue := some (base + 3), rechoose := some 299 },
                  clk := { up.clk with slot := 62, band := 3, standby := some 3, standbyLocked := true, lockSeen := seen } }
      s.counting = true ∧ s.clk.band = 3 ∧ s.pwr.base = some base ∧ s.fld PWR_STATUS_steps_left ≠ 0 ∧
      (base + 4 * (s.pwr.stepsDone + 1) - 1 ≤ s.rings ↔ base = 297) ∧ (s.targetTier < s.tier ↔ target = 3) ∧ s.clk.lockSeen = seen ∧
      s.flag PWR_STATUS_narrow = (narrow == 1) ∧ s.flag PWR_SEQ_narrow_req = false ∧
      s.pwr.vddDue = some (base + 3) ∧ (base + 3 ≤ s.rings ↔ base = 297) ∧
      s.pwr.rechoose = some 299 ∧ 299 < s.rings ∧ s.hwActs = true) ∧
    (let s := setClk up fun c => { c with slot := 62, band := 3 }; s.clk.band = 3 ∧ s.pwr.vddDue = none ∧ s.pwr.base = none) ∧
    (inBand.counting = true ∧ inBand.clk.band = 2) ∧
    (let s := setPwr up fun p => { p with rechoose := some 300 }; s.pwr.rechoose = some 300 ∧ s.rings ≤ 300) := by
  decide +kernel

theorem witness_ThermalLimitAndTrip :
    let cool : List Int := [1679, 0, -640, -1, 16, 1679]
    let hot : List Int := [1680, 0, -640, -1, 16, 1840]
    let stackTs := [105, 0, 1, 2, 3, 4, 5, 6, 7, 8, 9, 105]
    (up.powered = true ∧ cool.length = 6 ∧ stackTs.length = 12 ∧ (∀ d ∈ cool, -640 ≤ d ∧ d < 2400) ∧ (∀ k ∈ stackTs, k < 150) ∧
     (∀ d ∈ cool, d < 105 * 16) ∧ ∀ k ∈ stackTs, k ≤ 105) ∧
    hot.length = 6 ∧ (∀ d ∈ hot, -640 ≤ d ∧ d < 2400) ∧ (1680 : Int) ∈ hot ∧ (105 * 16 : Int) ≤ 1680 ∧ up.flag PWR_STATUS_limit = false ∧
    (1840 : Int) ∈ hot ∧ (115 * 16 : Int) ≤ 1840 ∧ up.pwr.trip = false := by decide +kernel

theorem witness_ParkMasksGatesAndDeepSleep :
    (let s := live [(STAND_TWIG_OWNER_valid 143, 1), (STAND_CFG_park_allowed 0, 0)] act
     bitOf (0x8000#64).toNat 15 = true ∧ s.twigStand (64 * 2 + 15) = some 0 ∧ s.standState 0 = 2 ∧ s.liveFlag (STAND_CFG_park_allowed 0) = false) ∧
    (∀ x, x < 144 → ({ up with live := (List.range 144).map fun w => (STAND_TWIG_OWNER w, 0#64) } : State).twigStand x = none) ∧
    (bitsOf (0x19FFFF#64).toNat 18 17 = 0 ∧ bitsOf (0x20000#64).toNat 18 17 ≠ 0 ∧ GateSet.sleep ≠ .run) ∧
    (bitsOf (0x20000#64).toNat 18 17 ≠ 0 ∧ bitOf (act.rd CLK_GATE_RUN).toNat 8 = true ∧ bitOf (0x20000#64).toNat 8 = false ∧ act.domainHeld 8 = true ∧
     ¬ ∃ i, i < 14 ∧ bitOf (act.rd CLK_GATE_RUN).toNat i = true ∧ bitOf (0x3FFFF#64).toNat i = false ∧ act.domainHeld i = true) ∧
    (let s := put [(PWR_STATUS_state, 3)] (setPwr up fun p => { p with deepExit := true })
     s.pwrState = 3 ∧ s.pwr.deepExit = true) := by decide +kernel

/-- Limb 17 in a state, with its reach and its failed lanes. -/
def limbAt (st reach failed : Nat) : State :=
  put [(LIMB_STATUS_state 17, st)] (up.onLimb 17 fun x => { x with cfg := BitVec.ofNat 64 (reach * 256), failed, tag := 5 })

theorem witness_LimbTrainingStages :
    ((limbAt 1 1 0).limbState 17 = 1 ∧ 254 % 256 ≠ 255 ∧ 255 % 256 = 255) ∧ (limbAt 2 1 0).limbState 17 = 2 ∧
    (let s := limbAt 4 2 15
     s.limbState 17 = 4 ∧ widthOf ((s.limb 17).failed ||| 0 % 256) ≠ 0 ∧ widthOf ((s.limb 17).failed ||| 255 % 256) = 0) ∧
    (let s := put [(LIMB_KEY_VALID_mgmt_loaded 17, 1)] (limbAt 5 1 0)
     s.limbState 17 = 5 ∧ s.limbReach 17 ≠ 3 ∧ 6 + 2 ≤ (if s.limbReach 17 = 1 then 8 else 24) ∧
     (if s.limbReach 17 = 1 then 8 else 24) < 7 + 2 ∧ s.flag (LIMB_KEY_VALID_mgmt_loaded 17) = true) ∧
    (let s := limbAt 5 3 0; s.limbState 17 = 5 ∧ s.limbReach 17 = 3 ∧ 65535 < 2 ^ 16 ∧ s.flag (LIMB_KEY_VALID_mgmt_loaded 17) = false) := by
  decide +kernel

theorem witness_LimbConfigurationKeysAndHold :
    (let s := limbAt 3 1 0
     let c : Cap := ⟨2, 1, 4, 7, 3, 5, 1, 1, true, 255⟩
     s.limbState 17 = 3 ∧ bitOf c.llp 1 = true ∧ c.domainTag = (s.limb 17).tag ∧ c.reach = s.limbReach 17 ∧ c.period = s.period ∧ s.limbReach 17 ≠ 3 ∧
     widthOf ((s.limb 17).failed ||| (255 - c.lanes % 256)) ≠ 0 ∧ widthOf ((s.limb 17).failed ||| (255 - 0 % 256)) = 0 ∧
     4 ≠ (s.limb 17).tag ∧ 2 ≠ s.period) ∧
    (let s := put [(LIMB_CFG_allow_llp2 17, 1)] (limbAt 3 1 0)
     let c : Cap := ⟨1, 1, 4, 7, 3, 5, 1, 1, true, 0xF0⟩
     s.limbState 17 = 3 ∧ bitOf c.llp 1 = false ∧ (bitOf c.llp 0 && s.flag (LIMB_CFG_allow_llp2 17)) = true ∧ c.domainTag = (s.limb 17).tag ∧
     c.reach = s.limbReach 17 ∧ c.period = s.period ∧ ((s.limb 17).failed ||| (255 - c.lanes % 256)) % 256 ≠ 0 ∧
     ((s.limb 17).failed ||| (255 - 255 % 256)) % 256 = 0 ∧ widthOf ((s.limb 17).failed ||| (255 - 255 % 256)) ≠ 0) ∧
    (bitOf (⟨1, 1, 4, 7, 3, 5, 1, 1, true, 255⟩ : Cap).llp 1 = false ∧ (put [(LIMB_CFG_allow_llp2 17, 0)] (limbAt 3 1 0)).flag (LIMB_CFG_allow_llp2 17) = false) ∧
    ((limbAt 3 3 0).limbState 17 = 3 ∧ (limbAt 3 3 0).limbReach 17 = 3) ∧
    (let s := put [(RING_STATUS_epoch_valid, 0), (LIMB_KEY_VALID_mgmt_loaded 17, 1)] (limbAt 6 1 0)
     s.limbState 17 = 6 ∧ s.flag (LIMB_KEY_VALID_mgmt_loaded 17) = true ∧ s.epoch = false) ∧
    (let s := put [(LIMB_STATUS_llp 17, 3), (LIMB_KEY_VALID_mgmt_loaded 17, 1)] ((limbAt 6 1 0).onLimb 17 fun x => { x with cap := some aCap })
     s.limbState 17 = 6 ∧ s.flag (LIMB_KEY_VALID_mgmt_loaded 17) = true ∧ s.fld (LIMB_STATUS_llp 17) = 3 ∧ s.epoch = true ∧
     (s.limb 17).cap = some aCap ∧ aCap.epochValid = true) ∧
    (let s := limbAt 6 1 0; s.limbState 17 = 6 ∧ s.flag (LIMB_KEY_VALID_mgmt_loaded 17) = false) ∧
    (1 ≤ (limbAt 7 1 0).limbState 17 ∧ (limbAt 7 1 0).limbState 17 ≤ 7) ∧
    (let v := 0xFF03#64
     v.getLsbD 0 = true ∧ v.getLsbD 1 = true ∧ bitsOf v.toNat 9 8 ≠ 0 ∧ bitsOf (0xFC03#64).toNat 9 8 = 0 ∧ (0xFC03#64).getLsbD 0 = true ∧
     (0xFC03#64).getLsbD 1 = true ∧ (limbAt 10 1 0).limbState 17 ≠ 9 ∧ (limbAt 10 1 0).limbsMayTrain = true) ∧
    ((0xFF01#64).getLsbD 0 = true ∧ (0xFF01#64).getLsbD 1 = false ∧ (put [(LIMB_CFG_enable 17, 0)] (limbAt 0 1 0)).flag (LIMB_CFG_enable 17) = false) ∧
    ((0xFF00#64).getLsbD 0 = false ∧ (0xFF00#64).getLsbD 1 = false ∧ (put [(LIMB_CFG_enable 17, 1)] (limbAt 8 1 0)).flag (LIMB_CFG_enable 17) = true) ∧
    ((limbAt 9 1 0).limbState 17 = 9 ∧ (limbAt 9 1 0).limbOn 17 = true ∧ (limbAt 9 1 0).flag CLK_STATUS_on_iosc = false ∧
     (put [(CLK_STATUS_on_iosc, 1)] (limbAt 9 1 0)).flag CLK_STATUS_on_iosc = true) ∧
    ((limbAt 8 3 0).limbState 17 = 8 ∧ (limbAt 8 3 0).limbReach 17 = 3 ∧ (limbAt 8 3 0).limbOn 17 = true) ∧
    (limbAt 1 1 0).limbState 17 = 1 := by decide +kernel

/-- A packet sent in replay groups 64 and 65, with its operation, and limb 17 ACTIVE with it unacknowledged. -/
def limbSent : State :=
  put [(LIMB_CFG_reach 17, 1)]
    (((limbAt 8 1 0).onLimb 17 fun x => { x with
        acked := 64, txNext := 4170, replay := [⟨64, 65, .packet 17 1 aPacket { seq := 60, ackGroup := 63, nak := false } ⟨16, false, 1, 2, 3⟩⟩] }).onNi
      fun n => { n with
        txq := [⟨1, 0, 65535, false, false, 0, 17, 0, true, false, 65, 0, 31, false, 0, aPacket⟩]
        trigs := [{ stand := 0, index := 65535, io := 1, desc := [], state := .running }] })

theorem witness_LimbTrafficAndMarkers :
    (∀ nak ∈ [false, true], ∀ ty ∈ [0, 1, 3], ∀ ack ∈ [63, 1],
      let s := limbSent.onLimb 17 fun x => { x with rxNak := nak }
      let x := s.limb 17
      s.limbState 17 = 8 ∧ s.limbOn 17 = true ∧ s.limbReach 17 ≠ 3 ∧ x.rxNak = nak ∧
        let f := flit ty 1 { seq := 0, ackGroup := ack, nak := false, retry := nak } []
        f.good = true ∧ f.type = ty ∧ f.vc = 1 ∧ s.limbCarries 17 f.vc = true ∧ f.sop = true ∧ f.eop = true ∧ f.retry = nak ∧ f.seq = (x.rxGroup + 1) % 64 * 64 ∧
        f.ackGroup = ack ∧ (x.groupOf f.ackGroup < x.acked ↔ ack = 63)) ∧
    (let s := limbSent
     let f := flit 0 1 { seq := 0, ackGroup := 63, nak := false } []
     f.tagOk = true ∧ s.keyTaken 17 f.key = false ∧
     (live [(LIMB_KEY_VALID_valid 17, 1)] (put [(LIMB_STATUS_llp 17, 3)] s)).keyTaken 17 f.key = true ∧ ({ f with tagOk := false } : Flit).tagOk = false) ∧
    (let f : Flit := ⟨flitBytes (flitWord 0 1 false false { seq := 64, ackGroup := 63, nak := false } 0) [], false, false, false, true, 0⟩
     f.good = true ∧ f.type = 0 ∧ f.vc = 1 ∧ f.eop = false ∧ f.sop = false) ∧
    (({ aFlit with fecUncorrectable := true } : Flit).good = false ∧ ({ aFlit with bytes := List.replicate 200 0#8 } : Flit).good = false ∧
     ({ aFlit with bytes := List.replicate 200 0#8 } : Flit).fecUncorrectable = false ∧
     ((limbSent.onLimb 17 fun x => { x with rxNak := true }).limb 17).rxNak = true) ∧
    (let s := put [(LIMB_CFG_reach 17, 3)] (limbAt 8 3 0)
     s.limbReach 17 = 3 ∧ s.limbOn 17 = true ∧ ({ aFlit with comp := true, occupancy := 79 } : Flit).good = true ∧ s.limbsMayTrain = true ∧
     s.fld (LIMB_CFG_reach 17) ≠ 0 ∧ (0 < 40 ∧ 40 < 80 ∧ 40 ≤ 40) ∧ (40 < 41 ∧ 79 < 80 ∧ 80 ≤ 80)) ∧
    (let s := put [(LIMB_CFG_retry_limit 17, 2)] limbSent
     let x := s.limb 17
     x.groupOf 1 = 65 ∧ x.nakGroup = none ∧ 1 < max 1 (s.fld (LIMB_CFG_retry_limit 17)) ∧ x.partnerHold = false ∧
     s.ni.txq.any (fun p => p.limb == 17 && p.sent && !p.lost && !p.mgmt && decide (65 ≤ p.group)) = true) ∧
    (let s := put [(LIMB_CFG_retry_limit 17, 2)] (limbSent.onLimb 17 fun x => { x with nakGroup := some 65, nakCount := 1 })
     max 1 (s.fld (LIMB_CFG_retry_limit 17)) ≤ (s.limb 17).nakCount + 1 ∧ s.limbsMayTrain = true ∧ s.fld (LIMB_CFG_reach 17) ≠ 0) := by
  refine ⟨?_, ?_, ?_, ?_, ?_, ?_, ?_⟩ <;> decide +kernel

theorem witness_LimbTrafficAndMarkers_of_markers :
    (let s := put [(LIMB_STATUS_llp 17, 3)] (limbAt 8 1 0)
     s.limbState 17 = 8 ∧ s.fld (LIMB_STATUS_llp 17) = 3 ∧ s.limbOn 17 = true ∧ s.clk.ringOn = true ∧ s.epoch = true ∧
     ({ aMarker with retry := true } : Marker).retry = true ∧ aMarker.retry = false ∧ aMarker.epochValid = true) ∧
    (let s := put [(LIMB_STATUS_llp 17, 3), (LIMB_STATUS_same_domain 17, 1), (RING_CFG_epoch_limb, 17), (RING_STATUS_epoch_valid, 0)] (limbAt 8 1 0)
     let m : Marker := ⟨(2 ^ 48 - 2) * 65536 + 5, 2, true, 3, 1, 5, false⟩
     s.limbState 17 = 8 ∧ s.fld (LIMB_STATUS_llp 17) = 3 ∧ m.retry = false ∧ m.epochValid = true ∧ s.epoch = false ∧
     s.fld RING_CFG_epoch_limb = 17 ∧ s.flag (LIMB_STATUS_same_domain 17) = true ∧ s.clk.ringOn = true ∧ m.period ≤ 2 ∧ s.limbReach 17 ≠ 3 ∧
     m.ringTime / 65536 + 1 < 2 ^ 48 ∧ m.ringTime % 65536 < Config.ringRef m.period) ∧
    (let s := put [(LIMB_STATUS_llp 17, 3)] (limbAt 8 1 0)
     let m : Marker := { aMarker with period := s.period, ringTime := s.ring * 65536 }
     let there := ringAfter m.period (m.ringTime / 65536) (m.ringTime % 65536) (15 + s.fld (LIMB_TRAINED_c 17) / 16)
     (s.ring * Config.ringRef s.period : Nat) + (15 : Int) = (there.1 * Config.ringRef m.period + there.2 : Nat) ∧
     (s.ring * Config.ringRef s.period : Nat) + (16 : Int) ≠ (there.1 * Config.ringRef m.period + there.2 : Nat)) ∧
    (let s := put [(LIMB_STATUS_llp 17, 3), (RING_CFG_slip_thresh, 8)] (limbAt 8 3 0)
     let t := s.onLimb 17 fun x => { x with baseline := some 3, slipFloor := 1 }
     s.limbReach 17 = 3 ∧ s.limbState 17 = 8 ∧ (s.limb 17).baseline = none ∧ s.epoch = true ∧ (t.limb 17).baseline = some 3 ∧
     t.fld RING_CFG_slip_thresh ≠ 0 ∧ (t.limb 17).slipFloor < ((19 : Int) - 3).natAbs / t.fld RING_CFG_slip_thresh ∧
     ((18 : Int) - 3).natAbs / t.fld RING_CFG_slip_thresh ≤ (t.limb 17).slipFloor) ∧
    (let s := put [(LIMB_STATUS_llp 17, 3)] (limbAt 7 1 0)
     s.limbState 17 = 7 ∧ s.fld (LIMB_STATUS_llp 17) = 3 ∧ s.epoch = true ∧ s.period = 1 ∧ aMarker.period = 1 ∧
     ({ aMarker with period := 2 } : Marker).period ≠ s.period) ∧
    (let e : LimbKey := { old := true, loadRing := 298 }
     let s := (limbAt 8 1 0).onLimb 17 fun x => { x with keys := [(16, e)] }
     (s.limb 17).keys.get {} 16 = e ∧ e.old = true ∧ e.loadRing + 2 ≤ s.rings) := by decide +kernel

/-- A sub-descriptor's bytes: fields (offset, bytes, value) written over zeros. -/
def fields (n : Nat) (fs : List (Nat × Nat × Nat)) : List Byte :=
  fs.foldl (fun b f => b.take f.1 ++ leBytes f.2.1 f.2.2 ++ b.drop (f.1 + f.2.1)) (List.replicate n 0#8)

/-- A sub-descriptor of stand 0, and the state in which it stands alone at the head of leaf 0. -/
def aRun (op : Nat) (fs : List (Nat × Nat × Nat)) : SubRun :=
  { stand := 0, queue := 1, index := 2, opcode := op, sub := fields 64 fs, start := 5, stop := 9, narrow := false, layer := 3 }
@[inherit_doc aRun] def headed (r : SubRun) : State := act.onLeaf 0 0 fun l => { l with queue := [r] }

theorem witness_MatrixAndAccumulatorCommands :
    (∀ op ∈ [0x00, 0x02, 0x03], (headed (aRun op [])).HeadIs 0 0 0 (aRun op []) [] ∧ (aRun op []).opcode = op) ∧
    (∀ flags ∈ [0x00, 0x40],
      let r := aRun 0x01 [(1, 1, flags), (8, 2, 1), (10, 2, 1)]
      (headed r).HeadIs 0 0 0 r [] ∧ r.opcode = 0x01 ∧ sDimA r.sub = 1 ∧ sDimB r.sub = 1 ∧ sBit6 r.sub = (flags == 0x40)) := by
  unfold State.HeadIs; decide +kernel

theorem witness_VectorCommandsWriteTheirOutput :
    ∀ op ∈ [0x10, 0x11, 0x12], (headed (aRun op [])).HeadIs 0 0 0 (aRun op []) [] ∧ (aRun op []).opcode = op := by
  unfold State.HeadIs; decide +kernel

theorem witness_AttentionStreamingState :
    ∀ op ∈ [0x20, 0x21, 0x22, 0x23, 0x24],
      let r := aRun op [(8, 2, 16), (10, 2, 256)]
      (headed r).HeadIs 0 0 0 r [] ∧ r.opcode = op ∧ sDimA r.sub ≤ 16 ∧ sDimB r.sub ≤ 256 := by
  unfold State.HeadIs; decide +kernel

theorem witness_DataMoverCopiesBytes :
    (∀ flags ∈ [0x00, 0x80], let r := aRun 0x30 [(1, 1, flags), (40, 2, 64)]; (headed r).HeadIs 0 0 0 r [] ∧ sAlign r.sub = (flags == 0x80) ∧ r.opcode = 0x30) ∧
    (∀ fn ∈ [0, 1, 2, 5],
      let r := aRun 0x31 [(3, 1, fn), (40, 2, 64), (42, 2, 1), (44, 2, 1)]
      (headed r).HeadIs 0 0 0 r [] ∧ r.opcode = 0x31 ∧ sKind r.sub = fn % 4 ∧ sCount1 r.sub = 1 ∧ sCount2 r.sub = 1 ∧ sStore r.sub = (fn == 5)) ∧
    (let r := aRun 0x31 [(32, 8, 2 ^ 30 - 64), (40, 2, 64), (42, 2, 1), (44, 2, 1)]
     sRuns r.sub = [2 ^ 30 - 64] ∧ (headed r).inBounds 0 (2 ^ 30 - 64) (sCount0 r.sub) = true ∧
     (headed r).translate 0 (2 ^ 30 - 64) = some (2 ^ 30 - 64) ∧
     (headed r).line (2 ^ 24 - 1) = { key := (headed r).keyAt (2 ^ 30 - 64), err := .clean }) := by
  unfold State.HeadIs; decide +kernel

theorem witness_AnchorStaysInRange :
    (let a : Acc := { acc := 5, anchor := 255, valid := true }
     a.anchor ≤ 255 ∧ a.anchor = 255 ∧ 0 < 1 ∧ (-564 : Int) ≤ -564 + (Nat.log2 1 : Nat) ∧ (459 : Int) + (Nat.log2 1 : Nat) < 460) ∧
    (let a : Acc := { acc := 5, anchor := 255, valid := true }
     let e : Int := unitExp false a.anchor
     let x : Int := a.acc + (if false then -1 else 1) * (1 * 2 ^ (e - unitExp false a.anchor).toNat : Nat)
     a.sat = false ∧ a.valid = true ∧ e + (Nat.log2 1 : Nat) < 4 * (a.anchor : Int) - 560 ∧ unitExp false a.anchor ≤ e ∧
     ({ a with acc := x }.grown false) = false) := by decide +kernel

/-- A command of stand 0 with no work left. -/
def aCmd : Cmd :=
  { stand := 0, queue := 3, index := 65535, desc := List.replicate 128 0#8, subs := [], boughs := [], waiting := [], slot := 0 }

theorem witness_SlotsGuardBandAndRingBoundary_of_commands :
    let c : Cmd := { aCmd with subs := [(0, List.replicate 64 0#8)], boughs := [0], waiting := [0], slot := 300 * 64 }
    let s : State := { act with cmds := [c] }
    s.counting = true ∧ s.clk.slot ≤ 61 ∧ (∀ st, st < 16 → (s.stand st).resetCause = none) ∧ s.admits = true ∧ s.cmds = [c] ∧ s.kops = [] ∧
    c.stand < 16 ∧ c.queue < 4 ∧ c.boughs = [0] ∧ c.deferred = [] ∧ dFlag c.desc 1 = false ∧ dFlag c.desc 3 = false ∧
    s.flag (CQ_STATE_halted c.stand c.queue) = false ∧ s.evaluates 0 c.stand = true ∧ c.eligible 0 ≤ s.rings * 64 + 61 ∧
    (∀ x ∈ c.segment 0, s.parked (x.1 / 32) = false ∧ ∃ w p, s.leafPlace x.1 = some (w, p) ∧ (s.leaf w p).queue.length < 4) ∧
    (s.planSegment c (61 * s.slotLen) (c.segment 0)).any (fun l => l.length = 1) = true := by
  refine ⟨?_, ?_, ?_, ?_, ?_, ?_, ?_, ?_, ?_, ?_, ?_, ?_, ?_, ?_, ?_, ?_, ?_⟩
  case refine_16 => intro x h; rw [List.mem_singleton.mp (show x ∈ [(0, List.replicate 64 0#8)] from h)]; exact ⟨by decide +kernel, 0, 0, by decide +kernel⟩
  all_goals decide +kernel

theorem witness_QueueDoorbellsAndFetch :
    act.standState 15 ≠ 2 ∧
    (let s := put [(CQ_CFG_log2_size 0 3, 6), (CQ_STATE_tail_seen 0 3, 5)] act
     s.standState 0 = 2 ∧
     ((63#64).getLsbD 63 = false ∧ bitsOf (63#64).toNat 15 0 < 2 ^ s.fld (CQ_CFG_log2_size 0 3) ∧
      bitsOf (63#64).toNat 15 0 ≠ s.fld (CQ_STATE_tail_seen 0 3)) ∧
     ((64#64).getLsbD 63 = false ∧ 2 ^ s.fld (CQ_CFG_log2_size 0 3) ≤ bitsOf (64#64).toNat 15 0) ∧
     (let v := 0x8000000000000005#64
      v.getLsbD 63 = true ∧ bitsOf v.toNat 15 0 = s.fld (CQ_STATE_tail_seen 0 3) ∧ bitsOf v.toNat 15 0 < 2 ^ s.fld (CQ_CFG_log2_size 0 3)) ∧
     (0x8000000000000040#64).getLsbD 63 = true ∧ 2 ^ s.fld (CQ_CFG_log2_size 0 3) ≤ bitsOf (0x8000000000000040#64).toNat 15 0) ∧
    act.mayFetch 0 3 = false ∧
    (let d := fields 128 [(8, 4, 7), (12, 4, 1), (16, 1, 1)]
     let s := (put [(CQ_CFG_enable 0 3, 1), (CQ_CFG_log2_size 0 3, 6), (CQ_STATE_tail_seen 0 3, 5), (CQ_STATE_head 0 3, 2), (CQ_CPL_BASE_cpl_base 0 3, 1)]
       act).store 256 d
     s.mayFetch 0 3 = true ∧ s.entryAt 0 3 (s.fld (CQ_STATE_head 0 3)) = 256 ∧ s.inBounds 0 256 128 = true ∧
     s.inBounds 0 (s.cplAt 0 3 2) 32 = true ∧ s.translate 0 256 = some 256 ∧ s.bytes 256 128 = d ∧
     (∀ m ∈ [4, 5], s.line m = { key := s.keyAt 256, err := .clean }) ∧ dFlag d 0 = false ∧ dLeaves d = [0] ∧
     s.fetchCheck 0 d [(0, sRank (dOpcode d) (dSub d) (dStride d) 0)] = none) := by
  refine ⟨?_, ?_, ?_, ?_⟩ <;> decide +kernel

theorem witness_CompletionOfWork :
    (let r := { aRun 0x01 [] with ran := true }
     let c := { aCmd with queue := 1, index := 2, desc := fields 128 [(1, 1, 4)], waiting := [0] }
     let s := { headed r with cmds := [c] }
     s.leafPlace 0 = some (0, 0) ∧ (s.leaf 0 0).queue = r :: [] ∧ r.ran = true ∧ s.leavesOn (leafBough 0) = true ∧ s.arrivesAt r 8 = true ∧
     s.arrivesAt r 7 = false ∧ (aRun 0x01 []).ran = false ∧ s.cmdAt r.stand r.queue r.uid = some c ∧ dFlag c.desc 2 = true) ∧
    (let s := { act with cmds := [aCmd] }
     s.doneAt 0 3 65535 = some aCmd ∧ aCmd.failed = none ∧ aCmd.final = 0 ∧ ({ aCmd with status := 5 } : Cmd).final ≠ 0 ∧
     s.inBounds 0 (s.cplAt 0 3 65535) 32 = true ∧ s.translate 0 (s.cplAt 0 3 65535) = some (s.cplAt 0 3 65535) ∧
     s.line (s.cplAt 0 3 65535 / 64) = { key := s.keyAt (s.cplAt 0 3 65535), err := .clean } ∧ s.doneAt 0 3 65534 = none) ∧
    (let c := { aCmd with failed := some ⟨3, 2, 1, 9, 0, true⟩ }
     let s := { act with cmds := [c] }
     let t := { act with cmds := [{ aCmd with index := 7, boughs := [1] }, { c with uid := 1 }] }
     s.doneAt 0 3 65535 = some c ∧ s.unadmitted 0 3 = false ∧ t.doneAt 0 3 65535 = some { c with uid := 1 } ∧ t.unadmitted 0 3 = true) := by
  refine ⟨?_, ?_, ?_⟩ <;> decide +kernel

theorem witness_KnotOperationsAreIssued :
    act.knotAccess (.vf 0) 15 = some true ∧ act.knotAccess .pf0 4095 = some true ∧ act.knotAccess (.vf 0) 4095 = some false ∧
    up.knotAccess (.vf 0) 4095 = none := by decide +kernel

/-- An operation on knot 15 in flight, and a knot in whose way it is. -/
def aKnotOp (home : Option Nat) : KnotOp :=
  { knot := 15, kind := .add, data := 2, stand := some 0, source := 3, issue := 92, due := 100, home, taken := home.isSome }

@[inherit_doc aKnotOp] def aKnot : Knot := { value := 5, armed := true, step := 0, thresh := 7, niMask := 3 }

theorem witness_KnotUpdatesFiresAndMirrors :
    (act.knotAccess (.vf 0) 15 = some true ∧ act.knotAccess (.vf 0) 4095 = some false ∧ up.knotAccess (.vf 0) 4095 = none) ∧
    (let s := { act with kops := [aKnotOp none] }
     let op := aKnotOp none
     (s.knot 15).refire = false ∧ (∀ x ∈ s.kops, x.knot = 15 → x.home = none → x.waits = false → 91 + ioPath 0 15 < x.due) ∧
     (s.knot 15).armed = false ∧ (s.knot 15).mode = .count ∧ s.kops = [op] ∧ op.kind = .add ∧ op.home = none ∧ op.waits = false ∧
     op.due ≤ 92 + ioPath 0 15 ∧ s.knotOwned op = true ∧ s.coreOn (knotHome 15) = true) ∧
    (let s := { act with kops := [{ aKnotOp none with waits := true }], knots := [(15, aKnot)] }
     let op := { aKnotOp none with waits := true }
     let x := s.knot 15
     x.refire = false ∧ s.coreOn (knotHome 15) = true ∧ (∀ x ∈ s.kops, x.knot = 15 → x.home = none → 99 < x.due) ∧ s.kops = [op] ∧
     op.due ≤ 102 ∧ (102 - op.due) % 2 = 0 ∧ s.knotOwned op = true ∧ x.mode = .count ∧ x.armed = true ∧ x.step = 0 ∧ x.nextFire ≤ op.due ∧
     serialGe 32 x.value.toNat x.thresh.toNat = false ∧ serialGe 32 (x.value + BitVec.ofNat 32 op.data).toNat x.thresh.toNat = true) ∧
    (let op := { aKnotOp none with kind := .arrive, data := 1 }
     let s := { act with kops := [op], knots := [(15, { aKnot with mode := .barrier, value := 6 })] }
     s.knotOwned op = true ∧ op.due ≤ 100 ∧ op.waits = false ∧ (s.knot 15).mode = .barrier ∧ (s.knot 15).thresh ≠ 0 ∧ (s.knot 15).refire = false) ∧
    (let s := live [(CLK_GATE_RUN_core, 15), (CLK_GATE_RUN_leaf, 15)]
       { act with knots := [(4095, { aKnot with value := 9, step := 2, refire := true, nextFire := 101 })] }
     let x := s.knot 4095
     s.coreOn (knotHome 4095) = true ∧ x.again = true ∧ x.nextFire ≤ 101 ∧ x.step ≠ 0 ∧ 100 < x.nextFire) ∧ aKnot.again = false ∧
    (let s := { act with kops := [aKnotOp (some 120)] }
     (s.knot 15).refire = false ∧ s.coreOn (knotHome 15) = true ∧ (∀ x ∈ s.kops, x.knot = 15 → x.home = none → x.waits = false → 161 < x.due) ∧
     (∀ x ∈ s.kops, ∀ home ∈ [120], x.knot = 15 → x.home = some home → 161 < max home (x.issue + 70))) ∧
    (∀ home ∈ [120, 170], ∀ cleared,
      let op := { aKnotOp (some home) with cleared }
      let s := { act with kops := [op] }
      let m := max home (op.issue + 70)
      op.home = some home ∧ m ≤ 170 ∧ s.knotOwned op = true ∧ op.taken = true ∧ (∀ e ∈ s.mirrorLog, e.2.1 = 15 → e.1 < m) ∧
      (op.issue + 70 < home ↔ home = 170) ∧ op.kind = .add ∧ op.mode = .count ∧ op.cleared = cleared) := by
  refine ⟨?_, ?_, ?_, ?_, ?_, ?_, ?_, ?_⟩ <;> decide +kernel

theorem witness_FabricTableWritesAndDrain :
    (let s := put [(COLL_CHAN_CFG_valid 1, 1), (COLL_CHAN_CFG_size 1, 4)] act
     s.chanRejected 63 (0x8000000000000005#64) = true) ∧
    act.chanRejected 63 0#64 = false ∧
    (act.otherShares 15 0 + bitsOf (0x800080#64).toNat 11 0 ≤ 2048 ∧ act.otherShares 15 1 + bitsOf (0x800080#64).toNat 27 16 ≤ 2048) ∧
    ¬ (act.otherShares 15 0 + bitsOf (0x81#64).toNat 11 0 ≤ 2048) ∧
    (1 < 16 ∧ 1 ≠ 15 ∧ (put [(NI_FSLOT_MASK_slots 1, 4)] act).fld (NI_FSLOT_MASK_slots 1) &&& bitsOf (4#64).toNat 61 0 ≠ 0) ∧
    (let s := put [(NI_FSLOT_MASK_slots 1, 4)] act
     ¬ (∃ x, x < 16 ∧ x ≠ 0 ∧ s.fld (NI_FSLOT_MASK_slots x) &&& bitsOf (2#64).toNat 61 0 ≠ 0) ∧ s.drainedOk 0 = false) ∧
    (¬ (∃ x, x < 16 ∧ x ≠ 15 ∧ act.fld (NI_FSLOT_MASK_slots x) &&& bitsOf (2#64).toNat 61 0 ≠ 0) ∧ act.drainedOk 15 = true) ∧
    (act.drainedOk 15 = true ∧ (0#64).getLsbD 63 = false ∧ act.drainedOk 0 = false) ∧
    (∀ state ∈ [0, 1, 2, 3], (put [(NI_DRAIN_state, state)] act).fld NI_DRAIN_state = state) ∧
    ((0x100000000#64).getLsbD 32 = true ∧ (0x100000000#64).getLsbD 33 = false ∧ (0x200000000#64).getLsbD 33 = true ∧ (0x200000000#64).getLsbD 32 = false ∧
     (0x300000000#64).getLsbD 32 = true ∧ (0x300000000#64).getLsbD 33 = true) ∧
    (let s := put [(NI_DRAIN_state, 1)] { act with ni := { drainStand := 15, drainKnot := 4095 } }
     s.fld NI_DRAIN_state = 1 ∧ s.inFlight s.ni.drainStand = false ∧ s.hw.admin = [] ∧
     act.fld NI_DRAIN_state ≠ 1) ∧
    (let s := { act with ni := { act.ni with drainStand := 0, txq := [⟨1, 0, 2, false, false, 0, 17, 0, false, false, 0, 0, 31, false, 0, aPacket⟩] } }
     s.inFlight s.ni.drainStand = true) ∧
    (let s := put [(COLL_CHAN_CFG_pending 63, 1)] { inBand with coll := { dirty := [(1, 9)], moved := [(63, (true, [(1, 8)]))] } }
     s.inStep2 0 = true ∧ s.flag (COLL_CHAN_CFG_pending 63) = true ∧ (s.coll.moved.get (false, []) 63).2 = [(1, 8)] ∧
     ∀ u ∈ (s.coll.moved.get (false, []) 63).2, u ∉ s.coll.dirty) ∧
    (act.inStep2 0 = false ∧ inBand.flag (COLL_CHAN_CFG_pending 63) = false) ∧
    (let s := { inBand with coll := { dirty := [(1, 9)], moved := [(63, (true, [(1, 9)]))] } }
     (1, 9) ∈ (s.coll.moved.get (false, []) 63).2 ∧ (1, 9) ∈ s.coll.dirty) ∧
    (act.coll.window.get 0 63 + max 1 (act.fld COLL_CRC_WINDOW_rings) ≤ act.rings ∧
     (let s := { act with coll := { window := [(63, 300)] } }; s.rings < s.coll.window.get 0 63 + max 1 (s.fld COLL_CRC_WINDOW_rings))) ∧
    ∀ st, ((put [(NI_DRAIN_state, 1)] act).stand st).teardown = 0 := by
  refine ⟨by decide +kernel, by decide +kernel, by decide +kernel, by decide +kernel, by decide +kernel, ⟨?_, by decide +kernel⟩, ⟨?_, by decide +kernel⟩,
    by decide +kernel, by decide +kernel, by decide +kernel, by decide +kernel, by decide +kernel, by decide +kernel, by decide +kernel, by decide +kernel,
    by decide +kernel,
    fun _ => rfl⟩
  all_goals
    rintro ⟨x, hx, h1, h2⟩
    revert x
    decide +kernel

/-- The NIs with their tables: node 5, limb 17 ACTIVE and scheduled, and for stand 0 one rank that reaches node 7 by limb 17, a bough buffer
region and channel 2. -/
def net (x : Ni) : State :=
  live [(LIMB_KEY_VALID_valid 17, 1), (NI_NODE_valid, 1), (NI_NODE_node_id, 5), (NI_NODE_node_epoch, 1), (NI_FSLOT_MASK_slots 0, 6),
    (NI_RANK_GRANT_valid 0, 1), (NI_RANK_GRANT_count 0, 1), (NI_RANK_ENTRY_valid 0, 1), (NI_RANK_ENTRY_node 0, 7), (NI_RANK_ENTRY_epoch 0, 1),
    (NI_RANK_ENTRY_route 0, 2 ^ 17), (TWIG_BBUF_REGION_base 0 0, 1), (TWIG_BBUF_REGION_limit 0 0, 2), (TWIG_BBUF_REGION_valid 0 0, 1),
    (COLL_CHAN_CFG_valid 2, 1), (COLL_CHAN_CFG_size 2, 2), (COLL_CHAN_CFG_base 2, 3), (NI_MCAST_GROUP_valid 1, 1),
    (NI_MCAST_GROUP_valid 2, 1), (NI_MCAST_GROUP_sender 2, 1), (CLK_GATE_RUN_core, 15), (CLK_GATE_RUN_leaf, 15)]
  (put [(LIMB_STATUS_state 17, 8), (LIMB_STATUS_llp 17, 3), (LIMB_STATUS_width 17, 3), (LIMB_KEY_VALID_mgmt_loaded 17, 1),
    (LIMB_KEY_VALID_valid 17, 1), (LIMB_GLOBAL_STATUS_active, 2 ^ 17), (LIMB_CFG_l3_sched 17, 1)]
  ({ act with ni := x, clk := { act.clk with slot := 1 } }.onLimb 17 fun l => { l with keys := [(0, { handle := 1 }), (16, { handle := 2 })] }))

/-- A packet of stand 0 that waits at NI 0 to leave by limb 17, of a trigger that runs. -/
def aTx : TxPkt :=
  { io := 1, stand := 0, index := 2, sched := true, mgmt := false, route := 2 ^ 17, limb := 17, budget := 8, sent := false, since := 280,
    pkt := { aPacket with dstNode := 7, opId := 3 } }
@[inherit_doc aTx] def aTrig : Trig := { stand := 0, index := 2, io := 0, desc := List.replicate 64 0#8, state := .running, opId := 3 }

theorem witness_PacketsAreInjectedAndResent :
    (let s := net { txq := [aTx] }
     s.liveFlag NI_NODE_valid = true ∧ s.epoch = true ∧ s.clk.establishing = false ∧ 2050 / s.slotCycles < 62 ∧
     s.slotOwner (2050 / s.slotCycles) = some 0 ∧ s.standHeld 0 = false ∧ s.schedHead 0 17 = some 0 ∧ s.ni.txq[0]? = some aTx ∧
     s.maySched aTx 17 2050 = true ∧ s.maySched aTx 17 2051 = false ∧ s.keyFor 17 aTx = some 0 ∧ bitOf (s.fld (LIMB_CRYPTO_exhausted 17)) 0 = false ∧
     (live [(LIMB_KEY_VALID_valid 17, 0)] s).keyFor 17 aTx = none ∧ (live [(LIMB_KEY_VALID_valid 17, 0)] s).maySched aTx 17 2050 = true) ∧
    (let p := { aTx with pkt := { aTx.pkt with dstNode := 5 } }
     let s := net { txq := [p] }
     s.schedHead 0 19 = some 0 ∧ s.ni.txq[0]? = some p ∧ s.maySched p 19 2050 = true) ∧
    (live [(NI_NODE_valid, 0)] (net {})).liveFlag NI_NODE_valid = false ∧
    ((net {}).niOn 1 = true ∧ ((net {}).assignAll 1).beHead 1 2050 = none) ∧
    (let q := { aTx with sched := false, limb := 31 }
     let s := setClk (net { txq := [q] }) fun c => { c with slot := 5 }
     let u := s.assignAll 1
     s.liveFlag NI_NODE_valid = true ∧ s.niOn 1 = true ∧ u.beHead 1 (5 * s.slotCycles + 2) = some (0, { q with limb := 17 }) ∧
     u.keyFor 17 { q with limb := 17 } = some 0 ∧ bitOf (u.fld (LIMB_CRYPTO_exhausted 17)) 0 = false) ∧
    (let q := { aTx with sched := false, limb := 31 }
     let u := (live [(LIMB_KEY_VALID_valid 17, 0)] (setClk (net { txq := [q] }) fun c => { c with slot := 5 })).assignAll 1
     u.beHead 1 (5 * u.slotCycles + 2) = some (0, { q with limb := 17 }) ∧ u.keyFor 17 { q with limb := 17 } = none) ∧
    (let q := { aTx with sched := false, limb := 31, pkt := { aTx.pkt with dstNode := 5 } }
     let u := (setClk (net { txq := [q] }) fun c => { c with slot := 5 }).assignAll 1
     u.beHead 1 (5 * u.slotCycles + 2) = some (0, { q with limb := 19 })) := by
  refine ⟨?_, ?_, ?_, ?_, ?_, ?_, ?_⟩ <;> decide +kernel

theorem witness_PacketsAreInjectedAndResent_of_losses :
    (let p := { aTx with sched := false, sent := true, lost := true, avoid := 16 }
     let s := net { txq := [p] }
     s.ni.txq[0]? = some p ∧ p.mgmt = false ∧ p.lost = true ∧ s.carriers p = [17] ∧ p.pkt.resent = false ∧ s.isLoop p = false ∧ 17 ≠ p.avoid ∧
     ({ p.pkt with flags := 2 } : Packet).resent = true) ∧
    (let p := { aTx with sched := false, sent := true, lost := true, route := 2 ^ 16, since := 284 }
     let s := net { txq := [p] }
     s.ni.txq[0]? = some p ∧ s.isLoop p = false ∧ s.carriers p = [] ∧ p.since + 16 ≤ s.rings) ∧
    (let p := { aTx with sent := true }; (net { txq := [p] }).ni.txq[0]? = some p ∧ p.lost = false ∧ p.sent = true) ∧
    300 < 285 + 16 ∧ (net {}).ni.txq.length ≤ 0 := by
  refine ⟨?_, ?_, ?_, ?_⟩ <;> decide +kernel

/-- An entry of the fault table with the notice of node 7, code 2 and epoch 9. -/
def entry (i : Nat) : State :=
  put [(NI_FAULT_ENTRY_valid i, 1), (NI_FAULT_ENTRY_node i, 7), (NI_FAULT_ENTRY_code i, 2), (NI_FAULT_ENTRY_epoch i, 9),
    (NI_FAULT_ENTRY_idle_rings i, 64)] (net {})

/-- A state whose fault table holds the same word in every entry. -/
def faultTable (w : Word) : State := { net {} with regs := (List.range 256).map (fun i => (NI_FAULT_ENTRY i, w)) ++ (net {}).regs }

theorem faultTable_rd (w : Word) (i : Nat) (h : i < 256) : (faultTable w).rd (NI_FAULT_ENTRY i) = w := by
  have get (d : Word) (m : SMap Word) (l : List Nat) (hl : i ∈ l) :
      SMap.get d (l.map (fun i => (NI_FAULT_ENTRY i, w)) ++ m) (NI_FAULT_ENTRY i) = w := by
    induction l with
    | nil => cases hl
    | cons j l ih =>
      rw [List.map_cons, List.cons_append, SMap.get]
      split
      · rfl
      · exact ih ((List.mem_cons.1 hl).resolve_left fun e => by simp_all)
  exact get _ _ _ (List.mem_range.2 h)

theorem faultTable_find (w : Word) (n c e : Nat) (h : (NI_FAULT_ENTRY_valid 0).of w ≠ 1 ∨ (NI_FAULT_ENTRY_node 0).of w ≠ n) :
    (faultPlaces.find? fun i => (faultTable w).faultIs i n c e) = none := by
  refine List.find?_eq_none.2 fun i hi => ?_
  have hr := faultTable_rd w i (List.mem_range.1 hi)
  have h1 : (NI_FAULT_ENTRY_valid i).of w = (NI_FAULT_ENTRY_valid 0).of w := rfl
  have h2 : (NI_FAULT_ENTRY_node i).of w = (NI_FAULT_ENTRY_node 0).of w := rfl
  simp only [State.faultIs, State.flag, State.fld, show (NI_FAULT_ENTRY_valid i).reg = NI_FAULT_ENTRY i from rfl,
    show (NI_FAULT_ENTRY_node i).reg = NI_FAULT_ENTRY i from rfl, hr, h1, h2]
  rcases h with h | h <;> simp [h]

/-- A packet as limb 17 hands it to its NI, and as the row takes it in `s`. -/
def rx (sched : Bool) (p : Packet) : Rx := { anRx with limb := 17, sched, pkt := p }
@[inherit_doc rx] def taken (s : State) (r : Rx) : Rx := { s.asHanded r with off := s.offSched (s.asHanded r) }

theorem witness_FaultNoticesCoalesce :
    (let p := { aPacket with type := 9, knotValue := 0x20007, remote := 9 }
     p.faultKey = (7, 2, 9) ∧ ∀ sched, ∀ s ∈ [entry 0, setHw (entry 0) fun h => { h with pausing := true }, faultTable 0#64, faultTable (BitVec.allOnes 64)],
       s.Takes (rx sched p) (taken s (rx sched p)) ∧ s.rxCheck (taken s (rx sched p)) = 0 ∧ (taken s (rx sched p)).sched = sched) ∧
    ((setHw (entry 0) fun h => { h with pausing := true }).hw.pausing = true ∧ (entry 0).hw.pausing = false ∧
     (faultPlaces.find? fun i => (entry 0).faultIs i 7 2 9) = some 0 ∧
     (faultPlaces.find? fun i => !(faultTable 0#64).flag (NI_FAULT_ENTRY_valid i)) = some 0) ∧
    ((entry 255).flag (NI_FAULT_ENTRY_valid 255) = true ∧ 64 ≤ (entry 255).fld (NI_FAULT_ENTRY_idle_rings 255) ∧
     (entry 254).flag (NI_FAULT_ENTRY_valid 255) = false) ∧
    (let n : Notice := { io := 1, sink := 0, node := 5, code := 3, epoch := 1 }
     let s := net { notices := [n] }
     (s.ni.notices.find? fun x => x.io == 1) = some n ∧ (s.ni.notices.find? fun x => x.io == 0) = none ∧ s.safeHold = false ∧
     s.liveFlag NI_NODE_valid = true ∧ s.niOn 1 = true ∧ s.routeLimbs (s.sinkRoute n.sink) = []) ∧
    (let n : Notice := { io := 1, sink := 0, node := 5, code := 3, epoch := 1 }
     let s := setClk (put [(MBX_RED_ROUTE_sink0_route, 2 ^ 17)] (net { notices := [n], mgUsed := [(17, 1)] })) fun c => { c with slot := 5 }
     let route := s.sinkRoute n.sink
     let p : TxPkt :=
       { io := n.io, stand := 16, index := 0, sched := false, mgmt := true, route, limb := 31, budget := 0, sent := false, since := s.rings,
         pkt := s.faultPacket n }
     s.routeLimbs route = [17] ∧ s.refreshBlocked.shallowest (s.routeLimbs route) = some 17 ∧ s.mayBe p 17 (5 * s.slotCycles + 2) = true ∧
     s.mayBe p 17 (5 * s.slotCycles + 3) = false ∧ s.keyFor 17 p = some 16 ∧ bitOf (s.fld (LIMB_CRYPTO_exhausted 17)) 16 = false ∧
     (let t := live [(NI_CFG_be_hi, 0)] s; t.refreshBlocked.shallowest (t.routeLimbs route) = none)) ∧
    (faultPlaces.find? fun i => (faultTable 0#64).faultIs i 7 2 9) = none ∧
    (faultPlaces.find? fun i => (faultTable (BitVec.allOnes 64)).faultIs i 7 2 9) = none ∧
    ∀ i, i < 256 → (faultTable (BitVec.allOnes 64)).flag (NI_FAULT_ENTRY_valid i) = true := by
  refine ⟨by unfold State.Takes; decide +kernel, by decide +kernel, by decide +kernel, by decide +kernel, by decide +kernel,
    faultTable_find _ _ _ _ (.inl (by decide)), faultTable_find _ _ _ _ (.inr (by decide)), fun i hi => ?_⟩
  rw [State.flag, State.fld, show (NI_FAULT_ENTRY_valid i).reg = NI_FAULT_ENTRY i from rfl, faultTable_rd _ i hi]
  rfl

/-- A packet that limb 17 hands over best-effort passes the receive checks in `s` and need not wait; whether its CRC fails, whether it is a duplicate, and
whether its operation is then complete. -/
def Delivered (s : State) (p : Packet) (ty : Nat) (crcFails dup complete : Bool) : Prop :=
  let x := taken s (rx false p)
  s.Takes (rx false p) x ∧ p.dstStand < 16 ∧ s.rxCheck x = 0 ∧ s.rxWaits x = false ∧ p.type = ty ∧
  (p.e2e && crc32c p.payload != bitsOf p.coll 63 32) = crcFails ∧ (s.rxOp p).any (·.dup p) = dup ∧
  (((s.rxOp p).getD (p.newOp 1)).take x).complete = complete

theorem witness_DataPacketsAreDelivered :
    let put1 : Packet := { aPacket with payload := List.replicate 64 1#8, length := 64 }
    let s := net {}
    (Delivered s put1 1 false false true ∧ put1.kind = 1) ∧
    Delivered s { put1 with pktCount := 2 } 1 false false false ∧
    (let p := { put1 with target := 0, remote := 2 ^ 30 - 64 }
     Delivered s p 1 false false true ∧ p.kind = 0 ∧ s.inBounds 0 (2 ^ 30 - 64) 64 = true ∧ s.translate 0 (2 ^ 30 - 64) = some (2 ^ 30 - 64) ∧
     s.line (2 ^ 24 - 1) = { key := s.keyAt (2 ^ 30 - 64), err := .clean }) ∧
    (let p := { put1 with target := 2, remote := 0 }; Delivered s p 1 false false true ∧ p.kind = 2 ∧ (s.windowPlace 63).isSome = true) ∧
    (let p := { put1 with target := 3, channel := 2, knotOp := 1, knot := 3 }
     Delivered s p 1 false false true ∧ p.kind = 3 ∧ p.hasKnot = true) ∧
    Delivered s { put1 with flags := 4, coll := crc32c put1.payload * 2 ^ 32 } 1 false false true ∧
    Delivered s { put1 with flags := 4 } 1 true false true ∧
    (let o : RxOp := ({ put1 with pktCount := 2 }.newOp 1).take (rx false { put1 with pktCount := 2, pktIndex := 1 })
     Delivered (net { rxOps := [o] }) { put1 with pktCount := 2 } 1 false true true) ∧
    (let x := taken (live [(CLK_GATE_RUN_core, 0)] s) (rx false put1)
     (live [(CLK_GATE_RUN_core, 0)] s).Takes (rx false put1) x ∧ (live [(CLK_GATE_RUN_core, 0)] s).rxCheck x = 0 ∧
     (live [(CLK_GATE_RUN_core, 0)] s).rxWaits x = true) := by
  unfold Delivered State.Takes
  refine ⟨?_, ?_, ?_, ?_, ?_, ?_, ?_, ?_, ?_⟩ <;> decide +kernel

theorem witness_DataPacketsAreDelivered_of_types :
    let put1 : Packet := { aPacket with payload := List.replicate 64 1#8, length := 64 }
    let get : Packet :=
      { aPacket with type := 2, length := 16, payload := leBytes 8 (2 ^ 62 + 5) ++ leBytes 4 5000 ++ leBytes 4 0, target := 3, channel := 2 }
    let s := net {}
    (Delivered s get 2 false false true ∧ get.coding.1 = 0 ∧ Delivered s { get with pktCount := 2 } 2 false false false) ∧
    (let g := { get with target := 2, remote := 0 }; Delivered s g 2 false false true ∧ g.kind = 2 ∧ g.coding.1 = 0) ∧
    (let g := { aTrig with opId := 9, desc := 2#8 :: List.replicate 63 0#8 }
     Delivered (net { trigs := [g] }) { put1 with type := 3 } 3 false false true ∧ (net { trigs := [g] }).trigOp 0 9 = some g ∧ tOp g.desc = 2) ∧
    Delivered s { aPacket with type := 4, knotOp := 1, knot := 15 } 4 false false true ∧
    Delivered s { put1 with type := 5, channel := 2, coll := 5 * 2 ^ 16 } 5 false false true ∧
    Delivered s { put1 with type := 6, group := 1, deliverBy := 1000 } 6 false false true := by
  unfold Delivered State.Takes
  refine ⟨?_, ?_, ?_, ?_, ?_, ?_⟩ <;> decide +kernel

/-- A trigger that waits for a MACK or an ERR of operation 9, and the packet it keeps for a resend. -/
def waiting : Trig := { aTrig with opId := 9, desc := 6#8 :: List.replicate 63 0#8, crcOn := true, kept := [{ aPacket with dstNode := 7, pktIndex := 4 }] }

/-- A packet that limb 17 hands over passes the receive checks in `s`. -/
def Passes (s : State) (p : Packet) : Prop := s.Takes (rx false p) (taken s (rx false p)) ∧ s.rxCheck (taken s (rx false p)) = 0

theorem witness_RepliesDiscardsAndFires :
    let s := net { trigs := [waiting] }
    let err : Packet := { aPacket with type := 8, knotValue := 6 }
    (Passes s { aPacket with type := 7, group := 2, pktIndex := 3 } ∧ s.trigOp 0 9 = some waiting) ∧
    (Passes (net {}) { aPacket with type := 7, group := 2 } ∧ (net {}).trigOp 0 9 = none) ∧
    (Passes s err ∧ s.replyNamed err = none ∧ s.trigAt waiting.stand waiting.index = some waiting ∧ waiting.status = 0 ∧ err.knotValue % 256 ≠ 8) ∧
    (let p := { err with knotValue := 8, remote := 4 }
     Passes s p ∧ p.knotValue % 256 = 8 ∧ s.replyNamed p = none ∧
     waiting.kept.find? (fun q => q.namedBy p) = some { aPacket with dstNode := 7, pktIndex := 4 }) ∧
    (let p := { err with knotValue := 8, remote := 5 }; Passes s p ∧ waiting.kept.find? (fun q => q.namedBy p) = none) ∧
    (let y : TxPkt := { aTx with index := noTrigger, sched := false, sent := true, pkt := { aPacket with type := 3, dstNode := 7, pktIndex := 4 } }
     let p := { err with knotValue := 8, remote := 4 }
     Passes (net { replies := [y] }) p ∧ (net { replies := [y] }).replyNamed p = some y) ∧
    (Passes (net {}) err ∧ (net {}).replyNamed err = none ∧
     (put [(CQ_TRIG_CFG_irq_en 0, 1)] (net {})).flag (CQ_TRIG_CFG_irq_en 0) = true ∧ s.pcie.link = true ∧ s.pcie.vfEnable = true ∧ 0 + 1 ≤ s.pcie.numVfs) := by
  unfold Passes State.Takes
  refine ⟨?_, ?_, ?_, ?_, ?_, ?_, ?_⟩ <;> decide +kernel

theorem witness_RepliesDiscardsAndFires_of_chains :
    let passes (s : State) (p : Packet) (chk : HeaderCheck) : Prop :=
      s.Takes { rx false p with chk } (taken s { rx false p with chk }) ∧ s.rxCheck (taken s { rx false p with chk }) = 0
    let chk : HeaderCheck := ⟨true, true, true⟩
    let chain : Packet := { aPacket with type := 10, length := 64, payload := List.replicate 64 1#8, opId := 0xFFFFFFFF }
    let piece : Packet := { chain with opId := 3 }
    (passes (net {}) chain chk ∧ (net {}).token ≠ 0 ∧ (net {}).safeHold = false ∧ chain.opId = 0xFFFFFFFF ∧ (net {}).transferring = false ∧
     (net {}).fw.half = none) ∧
    (let s := { net {} with fw := { (net {}).fw with half := some chain.payload } }
     passes s chain chk ∧ s.hw.pausing = false ∧ s.fw.half = some chain.payload ∧
     headerResult (padTo 4096 chain.payload ++ padTo 4096 chain.payload) s.fuses.floor chk ≠ 0) ∧
    (let s := put [(FLASH_XFER_state, 2)] (net {})
     passes s piece chk ∧ passes s chain chk ∧ piece.opId ≠ 0xFFFFFFFF ∧ s.transferring = true ∧ s.fw.complete.length < 2) ∧
    (let s := setHw (net {}) fun h => { h with pausing := true }; passes s chain chk ∧ s.hw.pausing = true) ∧
    (let s := put [(MBX_HEARTWOOD_token, 0)] (net {}); passes s chain chk ∧ s.hw.pausing = false ∧ s.token = 0) := by
  unfold State.Takes
  refine ⟨?_, ⟨?_, ?_, rfl, ?_⟩, ?_, ?_, ?_⟩ <;> decide +kernel

theorem witness_RepliesDiscardsAndFires_of_discards :
    (∀ ty ∈ List.range' 1 10, let p := { aPacket with type := ty, dstNode := 6 }
      (net {}).Takes (rx false p) (taken (net {}) (rx false p)) ∧ (net {}).rxCheck (taken (net {}) (rx false p)) ≠ 0) ∧
    (∀ x ∈ [(1, { aPacket with type := 0 }), (3, { aPacket with dstStand := 1 }), (4, { aPacket with srcNode := 8 }),
        (6, { aPacket with remote := 2 ^ 40, length := 64, payload := List.replicate 64 0#8 }), (7, { aPacket with type := 6, group := 3, target := 1 })],
      (net {}).Takes (rx false x.2) (taken (net {}) (rx false x.2)) ∧ (net {}).rxCheck (taken (net {}) (rx false x.2)) = x.1) ∧
    (let s := (net {}).onStand 0 fun x => { x with resetEntered := true }
     s.Takes (rx false aPacket) (taken s (rx false aPacket)) ∧ s.rxCheck (taken s (rx false aPacket)) = 5) ∧
    (act.limbActive 17 = false ∧ (live [(CLK_GATE_RUN_io_fabric, 0)] (net {})).limbOn 17 = false ∧ ((net {}).asHanded (rx true aPacket)).sched = true ∧
     (put [(LIMB_STATUS_llp 17, 2)] (net {})).limbCarries 17 0 = false ∧ aPacket.type ≠ 2 ∧ 1 ≤ aPacket.type) ∧
    (let o : RxOp := { srcNode := 7, srcEpoch := 1, srcStand := 0, opId := 9, dstStand := 0, count := 2, got := [], highest := [], idle := 4096 }
     let s := net { rxOps := [o] }
     s.ni.rxOps[0]? = some o ∧ max 1 (s.liveFld NI_CFG_op_timeout) ≤ o.idle ∧ s.ni.rxBuf = [] ∧
     ({ o with idle := 0 } : RxOp).idle < max 1 (s.liveFld NI_CFG_op_timeout) ∧ s.ni.rxOps.length ≤ 1) ∧
    (let m : FireMsg := { io := 1, knot := 4095, gen := 1, due := 50 }
     let find (t : Nat) := { act with fires := [m] }.fires.find? fun x => x.io == 1 && x.knot == 4095 && decide (x.due ≤ t)
     find 50 = some m ∧ find 49 = none) := by
  unfold State.Takes
  refine ⟨?_, ?_, ?_, ?_, ?_, ?_⟩ <;> decide +kernel

/-- A trigger queue of stand 0 with two descriptors to fetch, the first of them `d`. -/
def trigQueue (d : List Byte) (x : Ni) : State :=
  live [(COLL_STAND_QUOTA_quota0 0, 2), (HBM_REGION_limit 0 0, 3)]
    (put [(CQ_TRIG_CFG_enable 0, 1), (CQ_TRIG_CFG_log2_size 0, 4), (CQ_TRIG_STATE_head 0, 3), (CQ_TRIG_STATE_tail_seen 0, 5),
      (CQ_TRIG_CPL_BASE_cpl_base 0, 16)] ((net x).store (3 * 64) d))

theorem witness_TriggerQueueRuns :
    let d (op : Nat) : List Byte := fields 64 [(0, 1, op), (32, 8, 2 ^ 62 + 64), (40, 4, 64)]
    let fetch (s : State) : Prop :=
      s.mayFetchTrig 0 = true ∧ s.inBounds 0 (s.trigAddr 0 3) 64 = true ∧ s.inBounds 0 (s.trigCplAt 0 3) 64 = true ∧
      s.fld (CQ_TRIG_STATE_head 0) = 3
    let read (s : State) : List Byte := (s.dispatchRead 0 (s.trigAddr 0 3) 64).1
    let s := trigQueue (d 1) {}
    (s.standState 0 = 2 ∧ (15#64).getLsbD 63 = false ∧ bitsOf (15#64).toNat 15 0 < 2 ^ s.fld (CQ_TRIG_CFG_log2_size 0) ∧
     bitsOf (15#64).toNat 15 0 ≠ s.fld (CQ_TRIG_STATE_tail_seen 0) ∧ 2 ^ s.fld (CQ_TRIG_CFG_log2_size 0) ≤ bitsOf (16#64).toNat 15 0 ∧
     s.standState 15 ≠ 2) ∧
    (let v := 0x8000000000000005#64
     v.getLsbD 63 = true ∧ bitsOf v.toNat 15 0 < 2 ^ s.fld (CQ_TRIG_CFG_log2_size 0) ∧ bitsOf v.toNat 15 0 = s.fld (CQ_TRIG_STATE_tail_seen 0)) ∧
    (fetch s ∧ s.shareFull 0 (tIo (read s)) = false ∧ tOp (read s) ≠ 0x11 ∧ s.trigCheck 0 (read s) [] = 0) ∧
    (let s := trigQueue (d 7) {}
     fetch s ∧ s.shareFull 0 (tIo (read s)) = false ∧ tOp (read s) ≠ 0x11 ∧ s.trigCheck 0 (read s) [] ≠ 0) ∧
    (let s := trigQueue (d 1) { trigs := [aTrig, { aTrig with index := 1 }] }; fetch s ∧ s.shareFull 0 (tIo (read s)) = true) ∧
    (let s := put [(CQ_TRIG_CPL_BASE_cpl_base 0, 2 ^ 22)] s; s.mayFetchTrig 0 = true ∧ s.inBounds 0 (s.trigCplAt 0 3) 64 = false) ∧
    (net {}).mayFetchTrig 0 = false ∧
    (∀ status ∈ [0, 5],
      let tr : Trig := { aTrig with state := .finished, status, index := 0 }
      let s := net { trigs := [tr] }
      s.trigAt 0 0 = some tr ∧ tr.done = true ∧ s.trigAt 15 65535 = none ∧ aTrig.done = false ∧ s.inBounds 0 (s.trigCplAt 0 0) 64 = true ∧
      s.translate 0 (s.trigCplAt 0 0) = some (s.trigCplAt 0 0) ∧
      s.line (s.trigCplAt 0 0 / 64) = { key := s.keyAt (s.trigCplAt 0 0), err := .clean }) := by
  refine ⟨?_, ?_, ?_, ?_, ?_, ?_, ?_, ?_⟩ <;> decide +kernel

/-- A trigger of stand 0 that is ready to run, and the state it runs in. -/
def ready (op : Nat) (fs : List (Nat × Nat × Nat)) : Trig :=
  { aTrig with state := .ready, index := 3, opId := 0,
               desc := fields 64 ([(0, 1, op), (24, 8, 128), (32, 8, 2 ^ 62 + 64), (40, 4, 5000), (44, 2, 0xF000)] ++ fs) }
@[inherit_doc ready] def runs (tr : Trig) : State :=
  live [(HBM_REGION_limit 0 0, 3), (NI_MCAST_GROUP_count 2, 5), (NI_MCAST_GROUP_route 2, 2 ^ 17)]
    ((net { trigs := [tr] }).store 128 (leBytes 8 1024 ++ leBytes 4 20 ++ leBytes 4 0))

/-- What a command of a trigger needs to start: it stands ready at its NI. -/
def starts (tr : Trig) (op : Nat) : Bool :=
  (runs tr).trigAt tr.stand tr.index == some tr && decide (tr.state = .ready) && decide (tr.status = 0) && (runs tr).mayRun tr.stand &&
  (runs tr).niOn tr.io && (runs tr).liveFlag NI_NODE_valid && !(runs tr).behind tr && !(runs tr).overQuota tr && tOp tr.desc == op

theorem witness_TriggeredOperationsSend :
    let rank (tr : Trig) := let b := (runs tr).beginTrig tr; (runs tr).rankPath b.1 (tRank tr.desc) ((runs tr).trigHead b.1)
    let group (tr : Trig) := let b := (runs tr).beginTrig tr; (runs tr).groupPath b.1 ((runs tr).trigHead b.1)
    let there (tr : Trig) := (runs tr).localIn tr.stand tr.desc (tBytes tr.desc)
    (∀ tr ∈ [ready 1 [], ready 5 [(40, 4, 256), (46, 1, 2), (2, 1, 0x10)]],
      starts tr (tOp tr.desc) = true ∧ (rank tr).isSome = true ∧ there tr = true ∧ tWire tr.desc = 0) ∧
    (∀ op ∈ [1, 5, 6], let tr := ready op [(24, 8, 2 ^ 32), (18, 2, if op = 6 then 2 else 0)]
      starts tr op = true ∧ there tr = false ∧ (if op = 6 then (group tr).isSome else (rank tr).isSome) = true) ∧
    (∀ tr ∈ [ready 2 [(40, 4, 100)], ready 4 []], starts tr (tOp tr.desc) = true ∧ (rank tr).isSome = true) ∧
    (∀ op ∈ [1, 2, 4, 5], starts (ready op [(18, 2, 1)]) op = true ∧ rank (ready op [(18, 2, 1)]) = none) ∧
    (let tr := ready 6 [(18, 2, 2)]; starts tr 6 = true ∧ (group tr).isSome = true ∧ there tr = true) ∧
    (let tr := ready 6 [(18, 2, 1)]; starts tr 6 = true ∧ group tr = none) := by
  refine ⟨?_, ?_, ?_, ?_, ?_, ?_⟩ <;> decide +kernel

theorem witness_TriggeredOperationsSend_of_exchanges :
    let there (tr : Trig) := (runs tr).localIn tr.stand tr.desc (tBytes tr.desc)
    (let all (n : Nat) := ready 0x11 [(54, 2, n), (56, 4, 10), (60, 2, 8)]
     let path (tr : Trig) (x : Nat) :=
       let b := (runs tr).beginTrig tr; (runs tr).rankPath b.1 x { (runs tr).trigHead b.1 with type := 1 }
     (starts (all 1) 0x11 = true ∧ there (all 1) = true ∧ ∀ x, x < tContrib (all 1).desc → path (all 1) x ≠ none) ∧
     (starts (all 3) 0x11 = true ∧ there (all 3) = true ∧ 2 < tContrib (all 3).desc ∧ path (all 3) 2 = none) ∧
     (let tr := ready 0x11 [(54, 2, 1), (24, 8, 2 ^ 32)]; starts tr 0x11 = true ∧ there tr = false)) ∧
    (∀ op ∈ [1, 2, 4, 5, 6, 0x11],
      let tr := { ready op [] with state := .running }
      (runs tr).trigAt tr.stand tr.index = some tr ∧ tr.state ≠ .ready ∧ (runs tr).trigAt 15 65535 = none) ∧
    (∀ due ∈ [300, 301],
      let tr := { ready 6 [(18, 2, 2)] with state := .running, due, bitmap := [1] }
      (runs tr).trigAt tr.stand tr.index = some tr ∧ tOp tr.desc = 6 ∧ tr.unsent = 0 ∧ (tr.due ≤ (runs tr).rings ↔ due = 300)) := by
  refine ⟨?_, ?_, ?_⟩ <;> decide +kernel

/-- A FOLD of channel 2, chunk 7, with two contributions, and the state it runs in. -/
def aFold (fs : List (Nat × Nat × Nat)) : Trig :=
  { aTrig with state := .ready, index := 3, opId := 0,
               desc := fields 64 ([(0, 1, 0x10), (18, 2, 2), (36, 4, 0x10000), (40, 4, 1024), (46, 1, 2), (47, 1, 7)] ++ fs) }
@[inherit_doc aFold] def folds (tr : Trig) : State :=
  ({ net { trigs := [tr] } with coll := { chunks := [{ channel := 2, chunk := 7, count := 2, slot := 3 }] } }).setLive (COLL_SCHED 0 0)
    0x8282828282828282#64

theorem witness_FoldsRunInSlices :
    (let tr := aFold []
     let s := folds tr
     s.trigAt tr.stand tr.index = some tr ∧ tOp tr.desc = 0x10 ∧ tr.state = .ready ∧ tr.status = 0 ∧ s.mayRun tr.stand = true ∧
     s.niOn tr.io = true ∧ s.behind tr = false ∧ s.chanOf 2 tr.stand = true ∧ tChan tr.desc = 2 ∧ s.foldLayoutOk tr.desc = true ∧
     groupCycles tr.desc ≤ s.slotCycles ∧ s.sliceFree 2 = true ∧ s.chunkReady tr.desc = true ∧ s.runningFold 2 = none ∧ s.ni.rxBuf = []) ∧
    (let tr := aFold [(36, 4, 0)]
     (folds tr).trigAt tr.stand tr.index = some tr ∧ tr.status = 0 ∧ (folds tr).mayRun tr.stand = true ∧ (folds tr).behind tr = false ∧
     (folds tr).foldLayoutOk tr.desc = false) ∧
    (let tr := aFold [(2, 1, 0x30), (18, 2, 1800), (36, 4, 0xF00000), (40, 4, 256)]
     let s := live [(COLL_CHAN_CFG_size 2, 256)] (folds tr)
     s.trigAt tr.stand tr.index = some tr ∧ tr.status = 0 ∧ s.mayRun tr.stand = true ∧ s.behind tr = false ∧ s.chanOf 2 tr.stand = true ∧
     s.slotCycles < groupCycles tr.desc ∧ s.foldLayoutOk tr.desc = true) ∧
    (let tr := { aFold [] with state := .posted }; (folds tr).trigAt tr.stand tr.index = some tr ∧ tr.state ≠ .ready) ∧
    (let tr := aFold [(47, 1, 8)]
     let s := folds tr
     s.trigAt tr.stand tr.index = some tr ∧ s.chanOf 2 tr.stand = true ∧ s.foldLayoutOk tr.desc = true ∧ groupCycles tr.desc ≤ s.slotCycles ∧
     s.chunkReady tr.desc = false) ∧
    (let tr := { aFold [(40, 4, 256000)] with state := .running, nextGroup := 2 }
     (folds tr).trigAt tr.stand tr.index = some tr ∧ (folds tr).runningFold 2 = some tr ∧ (folds tr).sliceFree 2 = true ∧
     (folds tr).niOn ((folds tr).chanEngine 2) = true) ∧ (net {}).runningFold 2 = none := by
  refine ⟨?_, ?_, ?_, ?_, ?_, ?_, ?_⟩ <;> decide +kernel

/-- Mailbox `m` with one request waiting in its slot 65535, its session open. -/
def posted (m : Nat) (fs : List (Nat × Nat × Nat)) (s : State) : State :=
  put [(MBX_REQ_STATE_head m, 65535), (MBX_REQ_STATE_tail_seen m, 2), (MBX_REQ_STATE_retire_seen m, 65530), (MBX_FN_STATUS_session_major m, 3),
    (MBX_FN_STATUS_session_minor m, 1), (MBX_FN_STATUS_exp_seq m, 9), (MBX_FN_STATUS_credit m, 4)]
    (s.store (mbxAt m + 0x1000 + 64 * (65535 % reqSlots m)) (fields 64 ([(0, 1, 3), (1, 1, 1), (4, 4, 9)] ++ fs)))

theorem witness_MailboxPostingAndFetch :
    (let s := posted 16 [] act
     let old := s.fld (MBX_REQ_STATE_retire_seen 16)
     s.mbxReached 16 = true ∧ sub16 (bitsOf (65530 + reqSlots 16 - 65536)  15 0) old ≤ reqSlots 16 ∧
     reqSlots 16 < sub16 (bitsOf (65530 + reqSlots 16 - 65536 + 1) 15 0) old ∧
     sub16 65535 old ≤ sub16 (s.fld (MBX_REQ_STATE_head 16)) old ∧ sub16 (s.fld (MBX_REQ_STATE_head 16)) old < sub16 0 old) ∧
    (let s := posted 17 [(2, 2, 0x0102), (16, 1, 1)] act
     s.mayFetchReq 17 = true ∧ (s.checkHeader (s.headSlot 17) (s.headRequest 17)).isSome = true) ∧
    (let s := posted 17 [(2, 2, 0x0999)] act
     s.mayFetchReq 17 = true ∧ s.checkHeader (s.headSlot 17) (s.headRequest 17) = none ∧ (s.checkOpcode (s.headRequest 17)).isSome = true) ∧
    (let s := posted 17 [(2, 2, 0x0102)] act
     s.mayFetchReq 17 = true ∧ s.checkHeader (s.headSlot 17) (s.headRequest 17) = none ∧ s.checkOpcode (s.headRequest 17) = none ∧
     s.sheds (s.headRequest 17).cls = false) ∧
    (let s := put [(MBX_LOAD_STATUS_level, 3)] (posted 16 [(2, 2, 0x0102), (9, 1, 2)] act)
     s.mayFetchReq 16 = true ∧ s.checkHeader (s.headSlot 16) (s.headRequest 16) = none ∧ s.checkOpcode (s.headRequest 16) = none ∧
     s.sheds (s.headRequest 16).cls = true) ∧
    (let s := put [(PWR_STATUS_state, 5)] (posted 17 [(2, 2, 0x0102)] act)
     s.responds 17 = true ∧ (s.fetched'.find? fun r => r.mbx == 17) = none ∧
     s.fld (MBX_REQ_STATE_head 17) ≠ s.fld (MBX_REQ_STATE_tail_seen 17)) := by decide +kernel

theorem witness_MailboxPostingAndFetch_of_idle :
    act.mbxReached 15 = false ∧ (setPcie act fun p => { p with d3 := true }).mbxReached 16 = false ∧ act.mayFetchReq 17 = false ∧
    act.responds 17 = false ∧
    (let r : Req := { mbx := 17, count := 3, major := 3, minor := 1, opcode := 0x0102, seq := 9, stand := 0, flags := 0, cls := 1, ring := 299, payload := [] }
     let s := put [(PWR_STATUS_state, 5)] (setHw (posted 17 [] act) fun h => { h with intake := [r] })
     s.responds 17 = true ∧ (s.fetched'.find? fun r => r.mbx == 17) = some r) ∧
    (let s := put [(PWR_STATUS_state, 5)] act
     s.responds 17 = true ∧ (s.fetched'.find? fun r => r.mbx == 17) = none ∧
     s.fld (MBX_REQ_STATE_head 17) = s.fld (MBX_REQ_STATE_tail_seen 17)) := by decide +kernel

theorem witness_MonthsAndLeapYears :
    stampOk (fields 12 [(0, 2, 2399), (2, 1, 12), (3, 1, 31)]) = true ∧
    (let b := fields 12 [(0, 2, 2100), (2, 1, 2), (3, 1, 29)]; monthDays (bytesAt b 0 2) (bytesAt b 2 1) < bytesAt b 3 1) ∧ 400 ∣ 2000 := by
  decide +kernel

/-- A request in intake, by default of the owner's mailbox for stand 0 with a payload of zeros, and the state that serves it next. -/
def req (op : Nat) (fs : List (Nat × Nat × Nat)) (n : Nat := 32) (mbx : Nat := 16) (flags : Nat := 0) (stand : Nat := 0) : Req :=
  { mbx, count := 3, major := 3, minor := 1, opcode := op, seq := 9, stand, flags, cls := 1, ring := 299, payload := fields n fs }
@[inherit_doc req] def serve (r : Req) (s : State := act) : State := setHw s fun h => { h with intake := [r] }

theorem witness_SessionOpcodes :
    (let r := req 0x0101 [(0, 1, 3), (1, 1, 1), (2, 1, 2)] 32 17
     let s := serve r
     r.mbx < 18 ∧ s.serving? 0x0101 = some r ∧ r.clean 16 [(4, 12)] = true ∧ ((s.takeReq r).fetched'.any fun x => x.mbx == r.mbx) = false ∧
     (helloVersion r).isSome = true) ∧
    (let r := req 0x0101 [(0, 1, 9), (1, 1, 1), (2, 1, 8)] 32 17
     (serve r).serving? 0x0101 = some r ∧ r.clean 16 [(4, 12)] = true ∧ helloVersion r = none) ∧
    (serve (req 0x0102 [] 32 17)).Serves (req 0x0102 [] 32 17) 0x0102 0 [] false false ∧
    (serve (req 0x0103 [] 32 17)).serving? 0x0103 = some (req 0x0103 [] 32 17) ∧ (req 0x0103 [] 32 17).clean 0 [] = true := by
  unfold State.Serves; and_intros <;> decide +kernel

theorem witness_SessionOpcodes_of_refusals :
    (act.serving? 0x0101 = none ∧ act.serving? 0x0103 = none) ∧
    (let r := req 0x0101 [(0, 1, 3), (1, 1, 1), (2, 1, 2), (15, 1, 1)]
     (serve r).serving? 0x0101 = some r ∧ ¬ r.clean 16 [(4, 12)] = true) ∧
    (let r := req 0x0101 [(0, 1, 3), (1, 1, 1), (2, 1, 2)]
     let s := setHw (serve r) fun h => { h with intake := h.intake ++ [req 0x0102 []] }
     s.serving? 0x0101 = some r ∧ r.clean 16 [(4, 12)] = true ∧ ((s.takeReq r).fetched'.any fun x => x.mbx == r.mbx) = true) ∧
    (let r := req 0x0103 [(0, 1, 1)]; (serve r).serving? 0x0103 = some r ∧ r.clean 0 [] = false) := by
  and_intros <;> decide +kernel

theorem witness_StandOpcodes :
    (let r := req 0x0201 [(0, 18, 2), (20, 4, 2 ^ 31 + 6 * 65536 + 5), (52, 32, 2)] 128 16 1 2
     let u := (serve r).takeReq r
     (serve r).Serves r 0x0201 128 recordReserved true true ∧ u.standState r.stand = 0 ∧ u.flag ID_BOOT_done = true ∧ r.granules ≠ [] ∧
     u.recordOk r.stand r r.granules = true) ∧
    (let r := req 0x0201 [] 128 16 1 0
     (serve r).Serves r 0x0201 128 recordReserved true true ∧ ((serve r).takeReq r).standState r.stand ≠ 0) ∧
    (let s := put [(STAND_TWIG_OWNER_valid 0, 1), (HBM_REGION_valid 0 0, 1), (KNOT_GRANULE_OWNER_valid 0, 1)] act
     let kept := req 0x0202 [(0, 18, 1), (20, 4, 2 ^ 31), (52, 32, 1)] 128 16 1 0
     let more := req 0x0202 [(0, 18, 3), (20, 4, 2 ^ 31), (52, 32, 3), (96, 8, 4)] 128 16 1 0
     (∀ r ∈ [kept, more],
       let u := (serve r s).takeReq r
       (serve r s).Serves r 0x0202 128 recordReserved true true ∧ u.standState 0 = 2 ∧ r.granules ≠ [] ∧ u.recordOk 0 r r.granules = true ∧
       (u.removes 0 r = false ∨ u.quiescent 0 = true)) ∧
     ((serve kept s).takeReq kept).needsDrain 0 kept = false ∧ ((serve more s).takeReq more).needsDrain 0 more = true) ∧
    (let r := req 0x0203 []; (serve r).Serves r 0x0203 0 [] true true ∧ ((serve r).takeReq r).standState r.stand ≠ 0) ∧
    (let r := req 0x0203 [] 32 16 0 15; (serve r).Serves r 0x0203 0 [] true true ∧ ((serve r).takeReq r).standState r.stand = 0) ∧
    (let r := req 0x0204 []
     let u := (serve r).takeReq r
     (serve r).Serves r 0x0204 0 [] true false ∧ u.standState r.stand = 2 ∧ u.adminBusy r.stand = false ∧ (u.stand r.stand).resetCause = none) ∧
    (serve (req 0x0205 [])).Serves (req 0x0205 []) 0x0205 0 [] true true ∧
    (let s := live [(STAND_CFG_precision_consent_allowed 0, 1)] act
     let r := req 0x0206 [(0, 1, 1)] 32 0
     (serve r s).Serves r 0x0206 1 [] true true ∧ r.arg 0 1 = 1 ∧ ((serve r s).takeReq r).liveFlag (STAND_CFG_precision_consent_allowed 0) = true) ∧
    (let r := req 0x0206 [(0, 1, 2)] 32 0; (serve r).Serves r 0x0206 1 [] true true ∧ 1 < r.arg 0 1) := by
  unfold State.Serves; refine ⟨?_, ?_, ?_, ?_, ?_, ?_, ?_, ?_, ?_⟩ <;> decide +kernel

theorem witness_StandOpcodes_of_refusals :
    (let r := req 0x0201 [(0, 18, 2), (52, 32, 2)] 128 16 1 2
     let u := (serve r).takeReq r
     (serve r).Serves r 0x0201 128 recordReserved true true ∧ u.standState r.stand = 0 ∧ u.flag ID_BOOT_done = true ∧ r.granules ≠ [] ∧
     u.recordOk r.stand r r.granules = false ∧
     (put [(ID_BOOT_done, 0)] (serve r)).Serves r 0x0201 128 recordReserved true true ∧
     ((put [(ID_BOOT_done, 0)] (serve r)).takeReq r).flag ID_BOOT_done = false) ∧
    (let s := put [(STAND_TWIG_OWNER_valid 0, 1), (HBM_REGION_valid 0 0, 1), (KNOT_GRANULE_OWNER_valid 0, 1)] act
     let busy := put [(CQ_STATE_tail_seen 0 3, 1)] s
     let kept := req 0x0202 [(0, 18, 1), (20, 4, 2 ^ 31), (52, 32, 1)] 128 16 1 0
     let less := req 0x0202 [(0, 18, 2), (20, 4, 2 ^ 31), (52, 32, 1)] 128 16 1 0
     let free := req 0x0202 [(0, 18, 1), (20, 4, 2 ^ 31), (52, 32, 1)] 128 16 1 1
     let bare := req 0x0202 [(0, 18, 1), (20, 4, 2 ^ 31)] 128 16 1 0
     (∀ r ∈ [less, bare],
       let u := (serve r busy).takeReq r
       (serve r busy).Serves r 0x0202 128 recordReserved true true ∧ u.standState 0 = 2 ∧ (r.granules = [] ↔ r = bare)) ∧
     (let u := (serve less busy).takeReq less
      u.recordOk 0 less less.granules = true ∧ u.removes 0 less = true ∧ u.quiescent 0 = false) ∧
     ((serve less s).takeReq less).removes 0 less = true ∧ ((serve less s).takeReq less).quiescent 0 = true ∧
     ((serve kept busy).takeReq kept).quiescent 0 = false ∧ ((serve kept busy).takeReq kept).removes 0 kept = false ∧
     (serve free s).Serves free 0x0202 128 recordReserved true true ∧ ((serve free s).takeReq free).standState 1 ≠ 2) ∧
    (let r := req 0x0204 []
     let on (f : Stand → Stand) := serve r (act.onStand 0 f)
     (on fun x => { x with resetCause := some 2 }).Serves r 0x0204 0 [] true false ∧
     (((on fun x => { x with resetCause := some 2 }).takeReq r).stand 0).resetCause.isSome = true ∧
     (serve r (put [(STAND_CFG_state 0, 3)] act)).Serves r 0x0204 0 [] true false ∧
     ((serve r (put [(STAND_CFG_state 0, 3)] act)).takeReq r).standState 0 = 3 ∧
     (serve r { act with ni := { held := [0] } }).Serves r 0x0204 0 [] true false ∧
     ((serve r { act with ni := { held := [0] } }).takeReq r).adminBusy 0 = true) ∧
    (let r := req 0x0204 [] 32 16 0 15; (serve r).Serves r 0x0204 0 [] true false ∧ ((serve r).takeReq r).standState 15 = 0) ∧
    (let r := req 0x0206 [(0, 1, 1)] 32 0
     (serve r).Serves r 0x0206 1 [] true true ∧ r.arg 0 1 = 1 ∧
     ((serve r).takeReq r).liveFlag (STAND_CFG_precision_consent_allowed 0) = false) := by
  unfold State.Serves; refine ⟨?_, ?_, ?_, ?_, ?_⟩ <;> decide +kernel

theorem witness_PowerAndClockOpcodes :
    (∀ e ∈ [(699, true), (2401, true), (700, false), (2400, false)],
      let r := req 0x0301 [(0, 4, e.1)]
      (serve r).Serves r 0x0301 5 [] false true ∧ (r.arg 0 4 < 700 ∨ 2400 < r.arg 0 4 ↔ e.2 = true)) ∧
    (∀ x ∈ [2, 4], let r := req 0x0302 [(0, 1, x)]; (serve r).Serves r 0x0302 1 [] false true ∧ r.arg 0 1 = x) ∧
    (∀ tail ∈ [0, 1],
      let r := req 0x0302 [(0, 1, 3)]
      let s := serve r (put [(CQ_STATE_tail_seen 0 3, tail)] act)
      s.Serves r 0x0302 1 [] false true ∧ r.arg 0 1 = 3 ∧
      ((∀ st, st < 16 → (s.takeReq r).standState st = 0 ∨ (s.takeReq r).quiescent st = true) ↔ tail = 0)) ∧
    (serve (req 0x0303 [])).Serves (req 0x0303 []) 0x0303 0 [] false true ∧
    (∀ x ∈ [(2, 17, true), (0, 31, true), (3, 0, false), (0, 18, false)],
      let r := req 0x0401 [(0, 1, x.1), (1, 1, x.2.1)]
      (serve r).Serves r 0x0401 5 [] false true ∧ (r.arg 0 1 ≤ 2 ∧ (r.arg 1 1 ≤ 17 ∨ r.arg 1 1 = 0x1F) ↔ x.2.2 = true)) ∧
    (∀ x ∈ [(10, 3, true), (11, 0, false), (0, 4, false)],
      let r := req 0x0402 [(0, 1, x.1), (1, 1, x.2.1)]
      (serve r).Serves r 0x0402 2 [] false true ∧ (r.arg 0 1 ≤ 10 ∧ r.arg 1 1 ≤ 3 ↔ x.2.2 = true)) ∧
    (serve (req 0x0403 [])).Serves (req 0x0403 []) 0x0403 0 [] false true := by
  unfold State.Serves; refine ⟨?_, ?_, ?_, ?_, ?_, ?_, ?_⟩ <;> decide +kernel

/-- Stand 0 with one rank granted. -/
def granted : State :=
  put [(NI_RANK_GRANT_valid 0, 1), (NI_RANK_GRANT_count 0, 1)] (live [(NI_RANK_GRANT_valid 0, 1), (NI_RANK_GRANT_count 0, 1)] act)

theorem witness_FabricOpcodes :
    (let r := req 0x0501 [(0, 2, 4095), (2, 2, 7), (4, 2, 9)]
     let u := (serve r).takeReq r
     (serve r).Serves r 0x0501 6 [] false false ∧ r.arg 0 2 ≤ 4095 ∧ (List.range 16).any u.adminBusy = false ∧
     (u.hw.admin.any fun a => a.kind == 3) = false) ∧
    (let r := req 0x0502 [(0, 2, 3), (4, 2, 1), (8, 8, 77)] 64 16 1
     let s := serve r granted
     s.Serves r 0x0502 4088 [] true true ∧ 1 ≤ r.arg 4 2 ∧ r.arg 4 2 ≤ 510 ∧ r.clean (8 + 8 * r.arg 4 2) [(6, 2)] = true ∧ r.arg 0 2 ≤ 4095 ∧
     (s.takeReq r).knotOwner (r.arg 0 2) = some r.stand ∧ r.arg 2 2 + r.arg 4 2 ≤ (s.takeReq r).grantSize r.stand) ∧
    (let r := req 0x0503 [(2, 2, 1)] 32 16 1
     (serve r granted).Serves r 0x0503 4 [] false true ∧ r.stand < 16 ∧ r.arg 0 2 + r.arg 2 2 ≤ ((serve r granted).takeReq r).grantSize r.stand) ∧
    (let r := req 0x0504 [(0, 2, 3), (8, 8, 6)]
     let u := (serve r).takeReq r
     (serve r).Serves r 0x0504 16 [] true true ∧ r.arg 0 2 ≤ 4095 ∧ u.knotOwner (r.arg 0 2) = some r.stand ∧
     ∀ x, x < 16 → x ≠ r.stand → u.fld (NI_FSLOT_MASK_slots x) &&& (r.arg 8 8 % 2 ^ 62) = 0) ∧
    (let r := req 0x0505 [(0, 2, 4095), (8, 8, 2 ^ 63)]; (serve r).Serves r 0x0505 16 [] false false ∧ r.arg 0 2 ≤ 4095) ∧
    (let r := req 0x0506 [(0, 3, 2 ^ 17), (3, 1, 16), (8, 6, 999)] 64 16 1
     let s := serve r { act with keys := { transport := true } }
     let u := s.takeReq r
     s.Serves r 0x0506 56 [(5, 3), (14, 2)] false false ∧ r.arg 0 3 < 2 ^ 18 ∧ r.arg 3 1 ≤ 16 ∧ u.keys.transport = true ∧
     (∀ l ∈ bitList 18 (r.arg 0 3), u.keyRecent l (r.arg 3 1) = false) ∧ u.mapWrites (r.arg 0 3) (r.arg 3 1) (r.arg 4 1) = [] ∧
     (serve r).Serves r 0x0506 56 [(5, 3), (14, 2)] false false ∧ ((serve r).takeReq r).keys.transport = false) ∧
    (let r := req 0x0506 [(0, 3, 2 ^ 17), (3, 1, 15), (4, 1, 15)] 64 16 1
     r.arg 3 1 < 16 ∧ r.arg 4 1 < 16 ∧ ((serve r).takeReq r).adminBusy (r.arg 4 1) = false) ∧
    (let r := req 0x0507 [] 64 16 1
     (serve r).Serves r 0x0507 1576 [] false false ∧ r.arg 0 1 = 0 ∧ r.clean 1 [] = true ∧ 1576 ≤ ((serve r).takeReq r).rspLimit r) ∧
    (let r := req 0x0507 [(0, 1, 1)] 64 16 1
     (serve r).Serves r 0x0507 1576 [] false false ∧ r.arg 0 1 = 1 ∧ (serve r).keys.transportPending = false ∧
     (serve r { act with keys := { transportPending := true } }).Serves r 0x0507 1576 [] false false) ∧
    (let r := req 0x0508 [(0, 2, 4000), (2, 2, 96)]; (serve r).Serves r 0x0508 4 [] false false ∧ r.arg 0 2 + r.arg 2 2 ≤ 4096) := by
  unfold State.Serves; refine ⟨?_, ?_, ?_, ?_, ?_, ?_, ?_, ?_, ?_, ?_⟩ <;> decide +kernel

/-- Stand 0 with a trigger queue entry to fetch, so that it is not quiescent. -/
def working : State := put [(CQ_STATE_tail_seen 0 3, 1)] act

theorem witness_FabricOpcodes_of_refusals :
    (let r := req 0x0501 [(0, 2, 4096)]; (serve r).Serves r 0x0501 6 [] false false ∧ 4095 < r.arg 0 2) ∧
    (let r := req 0x0501 [(0, 2, 4095)]
     let s := serve r { act with ni := { held := [15] } }
     s.Serves r 0x0501 6 [] false false ∧ r.arg 0 2 ≤ 4095 ∧ (List.range 16).any (s.takeReq r).adminBusy = true) ∧
    (∀ n ∈ [0, 511], let r := req 0x0502 [(4, 2, n)] 64 16 1; (serve r).Serves r 0x0502 4088 [] true true ∧ ¬ (1 ≤ r.arg 4 2 ∧ r.arg 4 2 ≤ 510)) ∧
    (∀ k ∈ [(15, 1024), (16, 0)],
      let r := req 0x0502 [(0, 2, k.1), (2, 2, k.2), (4, 2, 1)] 64 16 1
      let u := (serve r granted).takeReq r
      (serve r granted).Serves r 0x0502 4088 [] true true ∧ r.arg 4 2 = 1 ∧ r.clean 16 [(6, 2)] = true ∧
      ¬ (u.knotOwner (r.arg 0 2) = some 0 ∧ r.arg 2 2 + 1 ≤ u.grantSize 0)) ∧
    (let r := req 0x0503 [] 32 16 0 16; (serve r).Serves r 0x0503 4 [] false true ∧ 16 ≤ r.stand ∧ r.stand ≠ 0xFF) ∧
    (let r := req 0x0503 [(0, 2, 1024), (2, 2, 1)]
     (serve r granted).Serves r 0x0503 4 [] false true ∧ ((serve r granted).takeReq r).grantSize 0 < r.arg 0 2 + r.arg 2 2) ∧
    (let r := req 0x0503 [(0, 2, 65535), (2, 2, 2)] 32 16 0 0xFF; (serve r).Serves r 0x0503 4 [] false true ∧ 65536 < r.arg 0 2 + r.arg 2 2) ∧
    (let r := req 0x0504 [(8, 8, 4)]
     let s := serve r (put [(NI_FSLOT_MASK_slots 15, 4)] act)
     s.Serves r 0x0504 16 [] true true ∧ (s.takeReq r).fld (NI_FSLOT_MASK_slots 15) &&& (r.arg 8 8 % 2 ^ 62) ≠ 0) ∧
    (let r := req 0x0504 [(0, 2, 16), (8, 8, 4)]
     let u := (serve r).takeReq r
     (serve r).Serves r 0x0504 16 [] true true ∧ u.knotOwner (r.arg 0 2) ≠ some 0 ∧
     ∀ x, x < 16 → x ≠ 0 → u.fld (NI_FSLOT_MASK_slots x) &&& (r.arg 8 8 % 2 ^ 62) = 0) ∧
    (let r := req 0x0504 [(8, 8, 4)]
     let s := serve r (put [(NI_FSLOT_MASK_slots 0, 2)] working)
     let u := s.takeReq r
     s.Serves r 0x0504 16 [] true true ∧ u.knotOwner (r.arg 0 2) = some 0 ∧ u.notQuiet 0 = true ∧
     u.fld (NI_FSLOT_MASK_slots 0) &&& (r.arg 8 8 % 2 ^ 62) ≠ u.fld (NI_FSLOT_MASK_slots 0) ∧
     ∀ x, x < 16 → x ≠ 0 → u.fld (NI_FSLOT_MASK_slots x) &&& (r.arg 8 8 % 2 ^ 62) = 0) ∧
    (let r := req 0x0505 [(0, 2, 4096)]; (serve r).Serves r 0x0505 16 [] false false ∧ 4095 < r.arg 0 2) := by
  unfold State.Serves; refine ⟨?_, ?_, ?_, ?_, ?_, ?_, ?_, ?_, ?_, ?_, ?_⟩ <;> decide +kernel

theorem witness_FabricOpcodes_of_keys :
    (let r := req 0x0506 [(0, 3, 2 ^ 18)] 64 16 1; (serve r).Serves r 0x0506 56 [(5, 3), (14, 2)] false false ∧ ¬ r.arg 0 3 < 2 ^ 18) ∧
    (∀ b ∈ [true, false],
      let r := req 0x0506 [(0, 3, 2 ^ 17), (3, 1, 15), (4, 1, 0)] 64 16 1
      let s := serve r ((if b then { act with ni := { held := [0] } } else act).onLimb 17 fun l => { l with pendKeys := [(if b then 16 else 15, {})] })
      let u := s.takeReq r
      s.Serves r 0x0506 56 [(5, 3), (14, 2)] false false ∧ bitList 18 (r.arg 0 3) = [17] ∧ r.arg 3 1 < 16 ∧ r.arg 4 1 < 16 ∧
      (u.keyRecent 17 15 = true ↔ b = false) ∧ (u.adminBusy 0 = true ↔ b = true)) ∧
    (∀ dst ∈ [0, 15],
      let r := req 0x0506 [(0, 3, 2 ^ 17), (3, 1, 15), (4, 1, dst)] 64 16 1
      let s := serve r { act.wr (LIMB_KEY_MAP 17) 0x5000000000000000#64 with keys := { transport := true } }
      let u := s.takeReq r
      s.Serves r 0x0506 56 [(5, 3), (14, 2)] false false ∧ u.keys.transport = true ∧ u.keyRecent 17 15 = false ∧ u.adminBusy dst = false ∧
      u.mapWrites (r.arg 0 3) (r.arg 3 1) (r.arg 4 1) ≠ [] ∧ (u.drainedOk (r.arg 4 1) = true ↔ dst = 15)) ∧
    (let r := req 0x0507 [(0, 1, 2)] 64 16 1; (serve r).Serves r 0x0507 1576 [] false false ∧ 1 < r.arg 0 1) ∧
    (let r := req 0x0507 [(1, 1, 1)] 64 16 1; (serve r).Serves r 0x0507 1576 [] false false ∧ r.arg 0 1 = 0 ∧ r.clean 1 [] = false) ∧
    (let r := req 0x0507 []
     (serve r).Serves r 0x0507 1576 [] false false ∧ r.arg 0 1 = 0 ∧ r.clean 1 [] = true ∧ ((serve r).takeReq r).rspLimit r < 1576) ∧
    (let r := req 0x0508 [(0, 2, 4001), (2, 2, 96)]; (serve r).Serves r 0x0508 4 [] false false ∧ 4096 < r.arg 0 2 + r.arg 2 2) := by
  unfold State.Serves; refine ⟨?_, ?_, ?_, ?_, ?_, ?_, ?_⟩ <;> decide +kernel

/-- Channel 2 bound to stand 0. -/
def bound : State := put [(COLL_CHAN_CFG_valid 2, 1), (COLL_CHAN_CFG_size 2, 2), (COLL_CHAN_CFG_base 2, 3)] act

theorem witness_ChannelOpcodes :
    (let r := req 0x0601 [(0, 1, 63), (1, 1, 1), (3, 2, 2), (5, 1, 9), (6, 1, 1)]
     let u := (serve r).takeReq r
     (serve r).Serves r 0x0601 7 [] true true ∧ r.arg 0 1 < 64 ∧ r.arg 1 1 ≤ 1 ∧ 1 ≤ r.arg 3 2 ∧ r.arg 3 2 ≤ 256 ∧
     u.flag (COLL_CHAN_CFG_valid (r.arg 0 1)) = false ∧
     u.chanRejected (r.arg 0 1) (BitVec.ofNat 64 (2 ^ 63 + r.arg 1 1 * 2 ^ 61 + r.arg 6 1 % 2 * 2 ^ 59 + r.stand * 2 ^ 48 + r.arg 5 1 * 2 ^ 32 +
       r.arg 3 2 * 65536 + r.arg 2 1)) = false) ∧
    (let r := req 0x0602 [(0, 1, 2)]
     let u := (serve r bound).takeReq r
     (serve r bound).Serves r 0x0602 1 [] false false ∧ r.arg 0 1 < 64 ∧ u.flag (COLL_CHAN_CFG_valid 2) = true ∧
     u.adminBusy (u.fld (COLL_CHAN_CFG_stand 2)) = false ∧ u.quiescent (u.fld (COLL_CHAN_CFG_stand 2)) = true) ∧
    (let r := req 0x0603 [(2, 1, 0x82), (63, 1, 0xC2)] 64
     (serve r bound).Serves r 0x0603 64 [(1, 1)] false false ∧ r.arg 0 1 ≤ 1 ∧
     ∀ k, k < 62 → ((serve r bound).takeReq r).schedOk (r.arg 0 1) (r.arg (2 + k) 1) = true) ∧
    (let r := req 0x0604 [(0, 2, 128), (2, 2, 128)] 32 16 0 15
     let u := (serve r).takeReq r
     (serve r).Serves r 0x0604 4 [] true true ∧ u.otherShares 15 0 + r.arg 0 2 ≤ 2048 ∧ u.otherShares 15 1 + r.arg 2 2 ≤ 2048) ∧
    (let r := req 0x0605 [(0, 1, 2), (1, 1, 3)]
     let u := (serve r bound).takeReq r
     (serve r bound).Serves r 0x0605 2 [] false false ∧ u.chanFor r 2 = none ∧ r.arg 0 1 < 64 ∧ u.chanRejected 2 (u.rd (COLL_CHAN_CFG 2)) = false) ∧
    (let r := req 0x0606 [(0, 1, 2)]
     (serve r bound).Serves r 0x0606 1 [] false false ∧ ((serve r bound).takeReq r).chanFor r 2 = none) := by
  unfold State.Serves; refine ⟨?_, ?_, ?_, ?_, ?_, ?_⟩ <;> decide +kernel

theorem witness_ChannelOpcodes_of_refusals :
    let busy : State := put [(CQ_STATE_tail_seen 0 3, 1)] bound
    (∀ n ∈ [0, 257], let r := req 0x0601 [(3, 2, n)]; (serve r).Serves r 0x0601 7 [] true true ∧ ¬ (1 ≤ r.arg 3 2 ∧ r.arg 3 2 ≤ 256)) ∧
    (let r := req 0x0601 [(0, 1, 2), (3, 2, 1)] 32 16 0 1
     let u := (serve r bound).takeReq r
     (serve r bound).Serves r 0x0601 7 [] true true ∧ u.flag (COLL_CHAN_CFG_valid 2) = true ∧ u.chanBound 2 1 = false) ∧
    (let r := req 0x0601 [(0, 1, 3), (2, 1, 4), (3, 2, 1)]
     let u := (serve r bound).takeReq r
     (serve r bound).Serves r 0x0601 7 [] true true ∧ u.flag (COLL_CHAN_CFG_valid 3) = false ∧
     u.chanRejected 3 (BitVec.ofNat 64 (2 ^ 63 + 65536 + 4)) = true) ∧
    (∀ base ∈ [3, 4],
      let r := req 0x0601 [(0, 1, 2), (2, 1, base), (3, 2, 2)]
      let v := BitVec.ofNat 64 (2 ^ 63 + 2 * 65536 + base)
      let u := (serve r busy).takeReq r
      (serve r busy).Serves r 0x0601 7 [] true true ∧ u.chanBound 2 0 = true ∧ u.flag (COLL_CHAN_CFG_crc_e2e 2) = false ∧
      u.chanRejected 2 v = false ∧ u.notQuiet 0 = true ∧ (chanArea v ≠ chanArea (u.rd (COLL_CHAN_CFG 2)) ↔ base = 4)) ∧
    (let r := req 0x0602 [(0, 1, 64)]; (serve r).Serves r 0x0602 1 [] false false ∧ 64 ≤ r.arg 0 1) ∧
    (let r := req 0x0602 [(0, 1, 2)]
     (serve r).Serves r 0x0602 1 [] false false ∧ ((serve r).takeReq r).flag (COLL_CHAN_CFG_valid 2) = false ∧
     (serve r busy).Serves r 0x0602 1 [] false false ∧ ((serve r busy).takeReq r).adminBusy 0 = false ∧
     ((serve r busy).takeReq r).quiescent 0 = false ∧
     (serve r { bound with ni := { held := [0] } }).Serves r 0x0602 1 [] false false ∧
     ((serve r { bound with ni := { held := [0] } }).takeReq r).flag (COLL_CHAN_CFG_valid 2) = true ∧
     ((serve r { bound with ni := { held := [0] } }).takeReq r).adminBusy 0 = true) ∧
    (let r := req 0x0603 [(63, 1, 0x80)] 64
     (serve r bound).Serves r 0x0603 64 [(1, 1)] false false ∧ ((serve r bound).takeReq r).schedOk 0 (r.arg (2 + 61) 1) = false) ∧
    (let r := req 0x0604 [(2, 2, 2049)]
     (serve r).Serves r 0x0604 4 [] true true ∧ 2048 < ((serve r).takeReq r).otherShares 0 1 + r.arg 2 2) ∧
    (let r := req 0x0604 [(0, 2, 4)]
     let s := serve r (put [(COLL_STAND_QUOTA_quota0 0, 5)] busy)
     let u := s.takeReq r
     s.Serves r 0x0604 4 [] true true ∧ u.otherShares 0 0 + r.arg 0 2 ≤ 2048 ∧ u.otherShares 0 1 + r.arg 2 2 ≤ 2048 ∧
     r.arg 0 2 < u.fld (COLL_STAND_QUOTA_quota0 0) ∧ u.notQuiet 0 = true) ∧
    (∀ op ∈ [(0x0605, 2), (0x0606, 1)],
      let r := req op.1 [(0, 1, 3)] 32 0
      (serve r bound).Serves r op.1 op.2 [] false false ∧ (((serve r bound).takeReq r).chanFor r 3).isSome = true) ∧
    (let r := req 0x0605 [(0, 1, 2)]
     let s := put [(COLL_CHAN_CFG_size 2, 0)] bound
     (serve r s).Serves r 0x0605 2 [] false false ∧ ((serve r s).takeReq r).chanFor r 2 = none ∧
     ((serve r s).takeReq r).chanRejected 2 (((serve r s).takeReq r).rd (COLL_CHAN_CFG 2)) = true) := by
  unfold State.Serves; refine ⟨?_, ?_, ?_, ?_, ?_, ?_, ?_, ?_, ?_, ?_, ?_⟩ <;> decide +kernel

/-- The dump granule set, and a dump that is being written. -/
def dumping : State :=
  put [(HBM_RESERVE_valid, 1), (HBM_RESERVE_granule, 5)] { act with obs := { dump := some { stand := 0, cause := 0, time := 5 } } }

theorem witness_CounterAndDebugOpcodes :
    (let r := req 0x0701 [(2, 2, 3), (4, 2, 1)]
     (serve r).Serves r 0x0701 6 [(1, 1)] false false ∧ ((serve r).takeReq r).scopeCheck r = none) ∧
    (let r := req 0x0701 [(0, 1, 0), (2, 2, 3), (4, 2, 1)] 32 15 0 15
     (serve r).Serves r 0x0701 6 [(1, 1)] false false ∧ (((serve r).takeReq r).scopeCheck r).isSome = true) ∧
    (let r := req 0x0702 [(2, 2, 4607), (4, 2, 1), (8, 8, 2 ^ 20 - 1)] 64 16 1
     (serve r).Serves r 0x0702 4096 [(1, 1)] false false ∧ ((serve r).takeReq r).scopeCheck r = none ∧ r.arg 0 1 = 0 ∧ r.arg 4 2 = 1 ∧
     r.clean 40 [(1, 1)] = true ∧ ∀ i, i < 4 → r.arg (8 + 8 * i) 8 < 2 ^ 20) ∧
    (let r := req 0x0703 [(0, 1, 1)]; (serve r).Serves r 0x0703 1 [] true false ∧ r.owner = true) ∧
    (let r := req 0x0704 [(8, 1, 1)]; (serve r).Serves r 0x0704 9 [] false false ∧ bitOf (r.arg 8 1) 0 = true) ∧
    (let r := req 0x0704 [(0, 8, 2 ^ 48 - 1)]
     (serve r).Serves r 0x0704 9 [] false false ∧ bitOf (r.arg 8 1) 0 = false ∧ (serve r).ring + 1 < r.arg 0 8 ∧ r.arg 0 8 < 2 ^ 48 ∧
     (serve r).frozen = false ∧ (serve r).obs.freezeAt = []) ∧
    (let r := req 0x0B01 [(0, 2, 2), (8, 4, 8), (12, 4, 16)] 64 16 1
     (serve r).Serves r 0x0B01 4096 [(2, 6)] false false ∧ r.clean (8 + 4 * r.arg 0 2) [(2, 6)] = true) ∧
    (let r := req 0x0B02 [(0, 2, 1), (8, 4, HBM_CFG), (16, 8, 0xFFFF00), (24, 8, 0x123456)] 64 16 1
     (serve r).Serves r 0x0B02 4088 [(2, 6)] false false ∧ r.arg 0 2 = 1 ∧ r.clean 32 [(2, 6), (12, 4)] = true ∧ csrStatus HBM_CFG = 0 ∧
     (regRow HBM_CFG).any (fun row => (writerOf row.base).isNone) = true ∧ HBM_CFG ∉ rspRegs) ∧
    (let r := req 0x0B02 [(0, 2, 1), (8, 4, 4)] 64 16 1
     (serve r).Serves r 0x0B02 4088 [(2, 6)] false false ∧ r.arg 0 2 = 1 ∧ r.clean 32 [(2, 6), (12, 4)] = true ∧ csrStatus 4 ≠ 0) ∧
    (let r := req 0x0B03 [(0, 8, 2 ^ 30 - 16), (8, 4, 16)]
     (serve r).Serves r 0x0B03 12 [] false false ∧ (serve r).flag HBM_RESERVE_valid = false ∧
     (serve r dumping).Serves r 0x0B03 12 [] false false ∧ (serve r dumping).flag HBM_RESERVE_valid = true ∧ r.arg 0 8 + r.arg 8 4 ≤ 2 ^ 30 ∧
     r.arg 8 4 ≤ ((serve r dumping).takeReq r).rspLimit r) ∧
    (let r := req 0x0B04 [] 32 16 0 16; (serve r).Serves r 0x0B04 0 [] false false ∧ 16 ≤ r.stand ∧ r.stand ≠ 0xFF) ∧
    ∀ st ∈ [15, 0xFF],
      let r := req 0x0B04 [] 32 16 0 st
      (serve r dumping).Serves r 0x0B04 0 [] false false ∧ (serve r dumping).flag HBM_RESERVE_valid = true ∧ (serve r dumping).obs.dump.isSome = true := by
  unfold State.Serves; refine ⟨?_, ?_, ?_, ?_, ?_, ?_, ?_, ?_, ?_, ?_, ?_, ?_⟩ <;> decide +kernel

theorem witness_CounterAndDebugOpcodes_of_refusals :
    (let s := live [(STAND_CFG_read_perf 0, 1)] act
     let r := req 0x0702 [(0, 1, 2), (2, 2, 17), (4, 2, 1)] 64 0 1
     (serve r s).Serves r 0x0702 4096 [(1, 1)] false false ∧ ((serve r s).takeReq r).scopeCheck r = none ∧ r.arg 0 1 = 2 ∧ r.owner = false ∧
     (serve r).Serves r 0x0702 4096 [(1, 1)] false false ∧ (((serve r).takeReq r).scopeCheck r).isSome = true) ∧
    (∀ x ∈ [(0, 2 ^ 20), (3, 0)],
      let r := req 0x0702 [(0, 1, x.1), (4, 2, 1), (8, 8, x.2)] 64 16 1
      (serve r).Serves r 0x0702 4096 [(1, 1)] false false ∧ ((serve r).takeReq r).scopeCheck r = none ∧ (2 < r.arg 0 1 ∨ 2 ^ 20 ≤ r.arg 8 8)) ∧
    (∀ b ∈ [0, 1],
      let r := req 0x0703 [(0, 1, 1)] 32 0
      let s := serve r (live [(STAND_CFG_trace_allowed 0, b)] act)
      s.Serves r 0x0703 1 [] true false ∧ r.owner = false ∧ ((s.takeReq r).liveFlag (STAND_CFG_trace_allowed 0) = true ↔ b = 1)) ∧
    (let r := req 0x0704 []
     let s := serve r { act with obs := { freezeAt := [(act.frostRing, 3)] } }
     s.Serves r 0x0704 9 [] false false ∧ bitOf (r.arg 8 1) 0 = false ∧ r.arg 0 8 = 0 ∧ (∃ e, e ∈ s.obs.freezeAt ∧ e.1 = s.frostRing) ∧
     (serve r).Serves r 0x0704 9 [] false false ∧ (serve r).frozen = false ∧ (serve r).fld TRC_FROST_at_ring ≠ (serve r).frostRing ∧
     (serve r).obs.freezeAt = []) ∧
    (∀ x ∈ [(7, 0), (8, 62), (2 ^ 48, 0)],
      let r := req 0x0704 [(0, 8, x.1)]
      let s := serve r (setClk (put [(RING_TIME_ring, 7)] act) fun c => { c with slot := x.2 })
      s.Serves r 0x0704 9 [] false false ∧ bitOf (r.arg 8 1) 0 = false ∧ r.arg 0 8 ≠ 0 ∧ s.ring = 7 ∧
      (r.arg 0 8 ≤ s.ring ∨ (r.arg 0 8 = s.ring + 1 ∧ 62 ≤ s.clk.slot) ∨ 2 ^ 48 ≤ r.arg 0 8)) ∧
    (let r := req 0x0704 [(0, 8, act.ring + 1)]
     let s := serve r (put [(TRC_FROST_frozen, 1)] act)
     s.Serves r 0x0704 9 [] false false ∧ bitOf (r.arg 8 1) 0 = false ∧ s.frozen = true ∧
     ¬ (r.arg 0 8 ≤ s.ring ∨ (r.arg 0 8 = s.ring + 1 ∧ 62 ≤ s.clk.slot) ∨ 2 ^ 48 ≤ r.arg 0 8)) ∧
    (let r := req 0x0B01 [(0, 2, 1), (12, 1, 1)] 64 16 1
     (serve r).Serves r 0x0B01 4096 [(2, 6)] false false ∧ r.clean (8 + 4 * r.arg 0 2) [(2, 6)] = false) ∧
    (∀ n ∈ [0, 171], let r := req 0x0B02 [(0, 2, n)] 64 16 1; (serve r).Serves r 0x0B02 4088 [(2, 6)] false false ∧ ¬ (1 ≤ r.arg 0 2 ∧ r.arg 0 2 ≤ 170)) ∧
    (∀ o ∈ [2 ^ 30 - 32, 2 ^ 30 - 33],
      let r := req 0x0B03 [(0, 8, o), (8, 4, 33)]
      (serve r dumping).Serves r 0x0B03 12 [] false false ∧ (serve r dumping).flag HBM_RESERVE_valid = true ∧
      (2 ^ 30 < r.arg 0 8 + r.arg 8 4 ↔ o = 2 ^ 30 - 32) ∧ ((serve r dumping).takeReq r).rspLimit r < r.arg 8 4) ∧
    (let r := req 0x0B04 [] 32 16 0 15
     let s := serve r { dumping with obs := {} }
     s.Serves r 0x0B04 0 [] false false ∧ s.flag HBM_RESERVE_valid = true ∧ s.obs.dump = none ∧ (serve r).Serves r 0x0B04 0 [] false false ∧
     (serve r).flag HBM_RESERVE_valid = false) := by
  unfold State.Serves; refine ⟨?_, ?_, ?_, ?_, ?_, ?_, ?_, ?_, ?_, ?_⟩ <;> decide +kernel

/-- A transfer of 900 blocks in progress, and one whose activation nothing refuses. -/
def transfers : State := put [(FLASH_XFER_state, 2), (FLASH_XFER_blocks_total, 900)] { act with fw := { header := List.replicate 64 1#8 } }
@[inherit_doc transfers] def verified : State :=
  put [(PWR_HOLDUP_holdup_ok, 1)] ((act.store (journalAt 0 0 + 10) [2#8]).store (journalAt 0 0 + 244) (leBytes 4 2127359992))

theorem witness_FirmwareOpcodes :
    (let r := req 0x0801 [(0, 2, 4095), (2, 3, 2 ^ 18 - 1)]
     (serve r).Serves r 0x0801 5 [] false false ∧ (serve r).transferring = false ∧ r.arg 0 2 ≤ 4095 ∧ r.arg 2 3 < 2 ^ 18 ∧
     (serve r transfers).Serves r 0x0801 5 [] false false ∧ (serve r transfers).transferring = true) ∧
    (let r := req 0x0802 [] 64 16 1
     (serve r).Serves r 0x0802 4096 [] false false ∧ (serve r).transferring = false ∧ (serve r).fw.activate = false ∧ (serve r).fw.half = none ∧
     (serve r transfers).Serves r 0x0802 4096 [] false false ∧ (serve r transfers).transferring = true) ∧
    (let r := req 0x0803 [(0, 4, 899), (8, 4, 4080)] 64 16 1
     let s := serve r transfers
     (serve r).Serves r 0x0803 4096 [(12, 4)] false false ∧ (serve r).transferring = false ∧ r.arg 8 4 ≤ 4080 ∧
     r.arg 4 4 + r.arg 8 4 ≤ recordBytes ∧ r.clean (16 + r.arg 8 4) [] = true ∧ s.Serves r 0x0803 4096 [(12, 4)] false false ∧
     s.transferring = true ∧ r.arg 0 4 < s.fld FLASH_XFER_blocks_total ∧ (s.takeReq r).thirdRecord (r.arg 0 4) (r.arg 4 4) (r.arg 8 4) = false) ∧
    (let r := req 0x0803 [(8, 4, 4081)] 64 16 1; (serve r).Serves r 0x0803 4096 [(12, 4)] false false ∧ 4080 < r.arg 8 4) ∧
    (serve (req 0x0804 [])).Serves (req 0x0804 []) 0x0804 0 [] false false ∧
    (let r := req 0x0805 []
     (serve r).Serves r 0x0805 0 [] false false ∧ ((serve r).takeReq r).actCause ≠ 0 ∧
     (serve r verified).Serves r 0x0805 0 [] false false ∧ ((serve r verified).takeReq r).actCause = 0) ∧
    (let r := req 0x0806 []
     (serve r).Serves r 0x0806 0 [] false false ∧ (serve r).transferring = false ∧ (serve r).fld FLASH_XFER_state ≠ 1 ∧
     (serve r transfers).Serves r 0x0806 0 [] false false ∧ (serve r transfers).transferring = true) ∧
    (serve (req 0x0807 [(0, 1, 255)])).Serves (req 0x0807 [(0, 1, 255)]) 0x0807 1 [] false false := by
  unfold State.Serves; refine ⟨?_, ?_, ?_, ?_, ?_, ?_, ?_, ?_⟩ <;> decide +kernel

/-- The first 1,024 bytes of a header that passes every check: one block for each of the five parts. -/
def goodHeader : List Byte :=
  fields 1024 ([(0, 4, 0x57464C50), (4, 2, 2), (6, 2, 8192), (8, 2, 0x4608), (10, 1, 0x42), (11, 1, 0xB1), (20, 4, 5)] ++
    (List.range 5).flatMap fun i => [(96 + 64 * i, 1, i + 1), (100 + 64 * i, 4, i), (104 + 64 * i, 4, 1)])

theorem witness_FirmwareOpcodes_of_headers :
    let chk : HeaderCheck := { signatures := true, unwraps := true, flashOk := true }
    headerResult (padTo 4096 goodHeader ++ padTo 4096 []) 0 chk = 0 ∧
    headerResult (padTo 4096 goodHeader ++ padTo 4096 []) 0 { chk with flashOk := false } = 9 ∧
    (∀ half ∈ [[], goodHeader],
      let r := req 0x0802 [] 64 16 1
      let s := serve r { act with fw := { half := some half } }
      s.Serves r 0x0802 4096 [] false false ∧ s.transferring = false ∧ s.fw.activate = false ∧ s.fw.half = some half ∧
      (headerResult (padTo 4096 half ++ padTo 4096 r.payload) s.fuses.floor chk = 0 ↔ half ≠ [])) := by
  unfold State.Serves; refine ⟨?_, ?_, ?_⟩ <;> decide +kernel

theorem witness_FirmwareOpcodes_of_refusals :
    (∀ x ∈ [(4096, 0), (0xFFFE, 0), (0xFFFF, 2 ^ 18)],
      let r := req 0x0801 [(0, 2, x.1), (2, 3, x.2)]
      (serve r).Serves r 0x0801 5 [] false false ∧ ¬ ((r.arg 0 2 ≤ 4095 ∨ r.arg 0 2 = 0xFFFF) ∧ r.arg 2 3 < 2 ^ 18)) ∧
    (let r := req 0x0802 [] 64 16 1
     let s := serve r { act with fw := { activate := true } }
     s.Serves r 0x0802 4096 [] false false ∧ s.fw.activate = true) ∧
    (let r := req 0x0803 [(4, 4, recordBytes), (8, 4, 1)] 64 16 1
     (serve r).Serves r 0x0803 4096 [(12, 4)] false false ∧ recordBytes < r.arg 4 4 + r.arg 8 4) ∧
    (let r := req 0x0803 [(0, 4, 900)] 64 16 1
     (serve r transfers).Serves r 0x0803 4096 [(12, 4)] false false ∧ r.arg 8 4 ≤ 4080 ∧ r.clean (16 + r.arg 8 4) [] = true ∧
     (serve r transfers).transferring = true ∧ (serve r transfers).fld FLASH_XFER_blocks_total ≤ r.arg 0 4) ∧
    (let r := req 0x0803 [(0, 4, 899), (8, 4, 1)] 64 16 1
     let s := serve r { transfers with fw := { transfers.fw with complete := [(1, []), (2, [])] } }
     s.Serves r 0x0803 4096 [(12, 4)] false false ∧ r.clean (16 + r.arg 8 4) [] = true ∧ s.transferring = true ∧
     r.arg 0 4 < s.fld FLASH_XFER_blocks_total ∧ (s.takeReq r).thirdRecord (r.arg 0 4) (r.arg 4 4) (r.arg 8 4) = true) := by
  unfold State.Serves; refine ⟨?_, ?_, ?_, ?_, ?_⟩ <;> decide +kernel

theorem witness_ManagementOpcodes :
    (∀ op ∈ [0x0901, 0x0904, 0x0A01], (serve (req op [])).Serves (req op []) op 0 [] false false) ∧
    (∀ n ∈ [1664, 1665],
      let r := req 0x0902 [(2, 2, n)] 32 16 1
      (serve r).Serves r 0x0902 4 [] false false ∧ (1664 < r.arg 0 2 + r.arg 2 2 ↔ n = 1665)) ∧
    (∀ y ∈ [2025, 2024],
      let r := req 0x0903 [(0, 2, y), (2, 1, 2), (3, 1, 29), (4, 1, 23), (5, 1, 59), (6, 1, 59)]
      (serve r).Serves r 0x0903 12 [] false false ∧ stampOk (padTo 12 (r.payload.take 12)) = (y == 2024)) ∧
    (∀ n ∈ [0, 1, 63, 64], let r := req 0x0905 [(4, 2, n)]; (serve r).Serves r 0x0905 6 [] false false ∧ r.arg 4 2 = n) ∧
    (∀ w ∈ [2, 3], let r := req 0x0906 [(0, 1, w), (2, 2, 7)]; (serve r).Serves r 0x0906 4 [(1, 1)] false false ∧ r.arg 0 1 = w) ∧
    (∀ n ∈ [15, 16, 4096, 4097],
      let r := req 0x0A02 [(0, 2, n)]
      (serve r).Serves r 0x0A02 2 [] false false ∧ r.arg 0 2 = n ∧ (serve r).healthy (otherNo (serve r).token) = true ∧
      (serve r).flag MBX_RED_STATUS_takeover_running = false ∧ (serve r).hw.drill = none ∧ (serve r).transferring = false ∧
      (serve r).fw.activate = false) ∧
    (let r := req 0x0A03 [(0, 1, 143), (1, 1, 31)]
     let s := serve r (put [(TWIG_STATUS_spare_phys 143, 32)] act)
     s.Serves r 0x0A03 2 [] false false ∧ r.arg 0 1 < 144 ∧ r.arg 1 1 < 32 ∧ s.flag TWIG_REMAP_busy = false ∧ s.spareOf 143 ≠ none) ∧
    (let r := req 0x0A03 [(0, 1, 144)]; (serve r).Serves r 0x0A03 2 [] false false ∧ 144 ≤ r.arg 0 1) ∧
    (let r := req 0x0A04 [(0, 1, 143), (1, 1, 32)]
     let s := serve r (put [(TWIG_STATUS_spare_phys 143, 0x3F), (TWIG_OOS_oos_mask 143, 2 ^ 32)] act)
     s.Serves r 0x0A04 2 [] false false ∧ r.arg 0 1 < 144 ∧ r.arg 1 1 < 33 ∧ s.flag TWIG_REMAP_busy = false ∧ s.spareOf 143 = none ∧
     s.isOos 143 32 = true) ∧
    (let r := req 0x0A04 [(1, 1, 33)]; (serve r).Serves r 0x0A04 2 [] false false ∧ 33 ≤ r.arg 1 1) := by
  unfold State.Serves; refine ⟨?_, ?_, ?_, ?_, ?_, ?_, ?_, ?_, ?_, ?_⟩ <;> decide +kernel

theorem witness_ManagementOpcodes_of_refusals :
    (let r := req 0x0A02 [(0, 2, 16)]
     let s := serve r (setHw act fun h => { h with drill := some (1, 16, 0) })
     s.Serves r 0x0A02 2 [] false false ∧ 16 ≤ r.arg 0 2 ∧ s.hw.drill ≠ none) ∧
    (∀ op ∈ [0x0A03, 0x0A04],
      let r := req op [(0, 1, 143), (1, 1, 31)]
      let s := serve r (put [(TWIG_REMAP_busy, 1)] act)
      s.Serves r op 2 [] false false ∧ r.arg 0 1 < 144 ∧ r.arg 1 1 < 32 ∧ s.flag TWIG_REMAP_busy = true) ∧
    (∀ dead ∈ [0, 2 ^ 31],
      let r := req 0x0A03 [(0, 1, 143), (1, 1, 31)]
      let s := serve r (put [(TWIG_STATUS_spare_phys 143, 0x3F), (TWIG_LEAF_FAULT_slot_fault 143, dead)] act)
      s.Serves r 0x0A03 2 [] false false ∧ s.flag TWIG_REMAP_busy = false ∧ s.spareOf 143 = none ∧
      (bitOf (s.fld (TWIG_LEAF_FAULT_slot_fault 143)) 31 = true ↔ dead ≠ 0)) ∧
    (∀ spare ∈ [32, 0x3F],
      let r := req 0x0A04 [(0, 1, 143), (1, 1, 32)]
      let s := serve r (put [(TWIG_STATUS_spare_phys 143, spare)] act)
      s.Serves r 0x0A04 2 [] false false ∧ s.flag TWIG_REMAP_busy = false ∧ (s.spareOf 143 = none ↔ spare = 0x3F) ∧ s.isOos 143 32 = false) := by
  unfold State.Serves; refine ⟨?_, ?_, ?_, ?_⟩ <;> decide +kernel

theorem witness_StandAssignmentAndLife :
    (let s := live [(STAND_TWIG_OWNER_valid 143, 1)] act
     let v := 0x8000000000000001#64
     v.getLsbD 63 = true ∧ s.liveFlag (STAND_TWIG_OWNER_valid 143) = true ∧ s.liveFld (STAND_TWIG_OWNER_stand 143) ≠ bitsOf v.toNat 3 0) ∧
    (0#64).getLsbD 63 = false ∧
    (let s := put [(STAND_MEM_SLOTS_slots 0, 4)] act
     0 < 16 ∧ 0 ≠ 15 ∧ s.fld (STAND_MEM_SLOTS_slots 0) &&& bitsOf (4#64).toNat 61 0 ≠ 0) ∧
    (¬ ∃ x, x < 16 ∧ x ≠ 15 ∧ act.fld (STAND_MEM_SLOTS_slots x) &&& bitsOf (0#64).toNat 61 0 ≠ 0) ∧
    ((0x8000000000000000#64).getLsbD 63 = true ∧ act.standState 15 ≤ 1 ∧ act.holdsRegion 15 = false ∧ 1 < act.standState 0) ∧
    ((1#64).getLsbD 0 = true ∧ act.standState 0 = 2 ∧ (act.stand 0).resetCause = none) ∧
    (let s := act.onStand 0 fun x => { x with resetCause := some 2, resetSlot := 300 * 64 }
     (s.stand 0).resetCause.isSome = true ∧ (s.stand 0).resetEntered = false ∧ (s.stand 0).teardown = 0 ∧
     (s.stand 0).resetSlot ≤ s.rings * 64 + s.clk.slot) ∧
    (let s := act.onStand 0 fun x => { x with resetCause := some 2, resetEntered := true, bandRing := some 299 }
     (s.stand 0).resetEntered = true ∧ s.ringAfterBand (s.stand 0).bandRing = true ∧ (s.stand 0).resetCause = some 2 ∧ (s.stand 0).teardown = 0) ∧
    (let s := act.onStand 0 fun x => { x with resetCause := some 4, resetEntered := true, bandRing := some 299, teardown := 1 }
     (s.stand 0).resetEntered = true ∧ s.ringAfterBand (s.stand 0).bandRing = true ∧ (s.stand 0).teardown ≠ 0) ∧
    (let s := put [(STAND_CFG_state 0, 1)] (act.onStand 0 fun x => { x with commitRing := some 299 })
     s.standState 0 = 1 ∧ s.ringAfterBand (s.stand 0).commitRing = true ∧ s.standReady 0 = true) ∧
    (let s := act.onStand 0 fun x => { x with teardown := 5, commitRing := some 299 }
     (s.stand 0).teardown = 5 ∧ s.ringAfterBand (s.stand 0).commitRing = true) ∧
    (act.pcie.link = true ∧ act.vfExists 15 = true ∧ 16 ≤ 16 ∧ (setPcie act fun p => { p with vfEnable := false }).vfExists 15 = false) := by
  refine ⟨?_, ?_, ?_, fun ⟨x, hx, h1, h2⟩ => ?_, ?_, ?_, ?_, ?_, ?_, ?_, ?_, ?_⟩
  case refine_4 => exact h2 (by simp [bitsOf])
  all_goals decide +kernel

theorem witness_StandAssignmentAndLife_of_refusals :
    ((put [(TWIG_STATUS_degraded 143, 1)] act).flag (TWIG_STATUS_degraded 143) = true ∧ act.flag (TWIG_STATUS_degraded 143) = false ∧
     act.liveFlag (STAND_TWIG_OWNER_valid 143) = false) ∧
    (let s := put [(HBM_REGION_valid 15 3, 1)] act
     s.standState 15 ≤ 1 ∧ (live [(HBM_REGION_valid 15 3, 1)] s).holdsRegion 15 = true) ∧
    ((act.onStand 0 fun x => { x with resetCause := some 2 }).stand 0).resetCause ≠ none ∧ act.standState 1 ≠ 2 ∧
    (let s := act.onStand 0 fun x => { x with resetCause := some 2, resetSlot := 300 * 64 + 1, resetEntered := false, bandRing := some 300 }
     ¬ (s.stand 0).resetSlot ≤ s.rings * 64 + s.clk.slot ∧ s.ringAfterBand (s.stand 0).bandRing = false) ∧
    (let s := act.onStand 0 fun x => { x with resetCause := some 2, resetSlot := 300 * 64, teardown := 1 }
     (s.stand 0).resetCause.isSome = true ∧ (s.stand 0).resetEntered = false ∧ (s.stand 0).resetSlot ≤ s.rings * 64 + s.clk.slot) ∧
    (let s := put [(STAND_CFG_state 0, 1), (HBM_REGION_valid 0 0, 1), (HBM_REGION_pending 0 0, 1)] (act.onStand 0 fun x => { x with commitRing := some 299 })
     s.standState 0 = 1 ∧ s.ringAfterBand (s.stand 0).commitRing = true ∧ s.standReady 0 = false) ∧
    (let s := act.onStand 0 fun x => { x with teardown := 5, commitRing := some 300 }
     (s.stand 0).teardown = 5 ∧ s.ringAfterBand (s.stand 0).commitRing = false) ∧
    (setPcie act fun p => { p with numVfs := 15 }).vfExists 15 = false ∧ (setPcie act fun p => { p with link := false }).pcie.link = false := by
  decide +kernel

theorem witness_RegisterWritesFollowTheAccessCodes :
    (let a := CQ_STATE 0 3
     a % 8 = 0 ∧ mbxWindow a = none ∧ inPageWindow a = false ∧ inRecBuf a = false ∧
     (regRow a).any (fun row => (writerOf row.base).isNone) = true ∧ act.powered = true ∧ act.vfReaches 0 a = true) ∧
    (let a := HBM_CFG
     a % 8 = 0 ∧ mbxWindow a = none ∧ inPageWindow a = false ∧ inRecBuf a = false ∧
     (regRow a).any (fun row => (writerOf row.base).isNone) = true ∧ a < 0x1000000 ∧ act.mayWrite .pf0 = true) ∧
    (¬ (4 = 8 ∧ 2 % 8 = 0) ∧ ¬ (4 = 4 ∧ 2 % 4 = 0) ∧ act.mayWrite .pf0 = true) ∧ act.vfReaches 1 HBM_CFG = false ∧
    (off.powered = false ∧ alwaysOn (HBM_CFG - HBM_CFG % 8) = false) ∧ (act.token ≠ 2 ∧ 0xFFFFF8 < 0x1000000 ∧ act.powered = true) := by
  decide +kernel

theorem witness_RegisterWritesFollowTheAccessCodes_of_windows :
    (inPageWindow 0x880000 = true ∧ inPageWindow 0x88FFF8 = true ∧ 0x88FFF8 < 0x1000000 ∧ act.mayWrite .pf0 = true) ∧
    (inRecBuf 0xF30008 = true ∧ act.flag FLASH_STATUS_recovery = false ∧
     (put [(FLASH_STATUS_recovery, 1)] act).flag FLASH_STATUS_recovery = true) ∧
    (mbxWindow 0xA80038 = some (16, 0x38) ∧ isHostSlot 0x38 = false ∧ mbxWindow 0xA81000 = some (16, 0x1000) ∧ isHostSlot 0x1000 = true ∧
     mbxWindow 0xA80030 = some (16, 0x30) ∧ act.mbxServed 16 = true) ∧
    (mbxWindow 0x40F1000 = some (15, 0x1000) ∧ act.vfReaches 15 0x40F1000 = true ∧ act.mbxServed 15 = false ∧ act.powered = true) ∧
    (regRow 0xFFFFF8 = none ∧ mbxWindow 0xFFFFF8 = none ∧ inPageWindow 0xFFFFF8 = false ∧ inRecBuf 0xFFFFF8 = false) ∧
    (let touches (row : RegRow) (lo : Nat) := bitsOf (row.rw ||| row.w1c ||| row.wo ||| row.rwl) (lo + 31) lo != 0
     (regRow HBM_CFG).any (fun row => touches row 0) = true ∧ (regRow ID_BOOT).any (fun row => !touches row 32) = true) ∧
    (regRow (STAND_TWIG_OWNER 143)).any (fun row =>
      (writerOf row.base).isSome && decide (143 < row.n1) && decide (0 < row.n2) && STAND_TWIG_OWNER 143 == row.base + 143 * row.s1 + 0 * row.s2) = true ∧
    (setPcie act fun p => { p with d3 := true }).mayWrite .pf0 = false ∧ (up.token ≠ 2 ∧ (put [(MBX_HEARTWOOD_token, 2)] up).token ≠ 1) := by
  refine ⟨?_, ?_, ?_, ?_, ?_, ?_, ?_, ?_⟩ <;> decide +kernel

/-- A whole record of a block, and a transfer of 932 blocks that has it complete. -/
def aBlock : List Byte := List.replicate recordBytes 1#8
@[inherit_doc aBlock] def receives (f : Fw) : State := put [(FLASH_XFER_state, 2)] { act with fw := f }

theorem witness_FirmwareSteps :
    (let s := receives { complete := [(931, aBlock)] }; s.transferring = true ∧ s.token ≠ 0 ∧ s.flashOn = true) ∧
    (∀ n ∈ [931, 0xFFFFFFFF],
      let s := receives { forward := [n], nextNode := 9, limbs := 8 }
      s.fw.forward = n :: [] ∧ s.fw.nextNode ≠ 0xFFFF ∧ s.token ≠ 0 ∧ s.flashOn = true) ∧
    (let s := receives { idleRings := 2 ^ 20 }; s.transferring = true ∧ s.token ≠ 0 ∧ 2 ^ 20 ≤ s.fw.idleRings) ∧
    (let s := { act with fw := { activate := true }, hw := { act.hw with pausing := true } }
     s.powered = true ∧ s.hw.pausing = true ∧ s.fw.activate = true) ∧
    act.flag FLASH_STATUS_recovery = false ∧
    (let s := put [(FLASH_STATUS_recovery, 1)] { act with fw := { header := fields 24 [(20, 4, 932)] } }
     s.flag FLASH_STATUS_recovery = true ∧
     ((0x80000000#64).getLsbD 31 = true ∧ bitsOf (0x80000000#64).toNat 30 29 = 0) ∧
     (let v := 0xC00003A3#64
      v.getLsbD 31 = true ∧ bitsOf v.toNat 30 29 = 2 ∧ bitsOf v.toNat 9 0 ≤ 931 ∧ s.fw.header ≠ [] ∧
      bitsOf v.toNat 9 0 < bytesAt s.fw.header 20 4)) ∧
    (receives { complete := [(931, aBlock)] }).fw.complete = (931, aBlock) :: [] ∧ aBlock.length = recordBytes := by
  refine ⟨?_, ?_, ?_, ?_, ?_, ?_, rfl, List.length_replicate⟩ <;> decide +kernel

theorem witness_FirmwareSteps_of_recovery :
    (act.transferring = false ∧ act.fw.complete = [] ∧ act.fw.forward = [] ∧ act.hw.pausing = false ∧
     ¬ 2 ^ 20 ≤ (receives { idleRings := 2 ^ 20 - 1 }).fw.idleRings) ∧
    (let s := put [(FLASH_STATUS_recovery, 1)] act
     s.flag FLASH_STATUS_recovery = true ∧ (0xE0000000#64).getLsbD 31 = true ∧ bitsOf (0xE0000000#64).toNat 30 29 = 3 ∧
     bitsOf (0xA0000000#64).toNat 30 29 = 1 ∧ s.fw.half = none ∧ s.fw.header = []) ∧
    (let chk : HeaderCheck := { signatures := true, unwraps := true, flashOk := true }
     let s := put [(FLASH_STATUS_recovery, 1)] { act with fw := { half := some (padTo 4096 goodHeader) } }
     s.flag FLASH_STATUS_recovery = true ∧ headerResult (padTo 4096 goodHeader ++ s.bytes recBufAt 4096) s.fuses.floor chk = 0 ∧
     headerResult (padTo 4096 goodHeader ++ s.bytes recBufAt 4096) s.fuses.floor { chk with flashOk := false } = 9) ∧
    (let s := put [(FLASH_STATUS_recovery, 1)] { act with fw := { header := fields 24 [(20, 4, 931)] } }
     ¬ bitsOf (0xC00003A3#64).toNat 9 0 < bytesAt s.fw.header 20 4) := by
  refine ⟨?_, ?_, ?_, ?_⟩ <;> decide +kernel

/-- A sample of a leaf's counter that waits to be written. -/
def aSample (leaf : Nat) : Sample := { leaf, counter := 3, t := 5, time := 7, offset := 1, value := 9, named := some (1, 2, 3, 4) }

theorem witness_FrostSamplesAndDumps :
    (let s := put [(TRC_FROST_pin_en, 1)] act
     s.powered = true ∧ s.flag TRC_FROST_pin_en = true ∧ s.frozen = false ∧ s.fld TRC_FROST_at_ring ≠ s.frostRing ∧ s.obs.freezeAt = []) ∧
    (let s := { act with obs := { freezeAt := [(act.frostRing, 2)] } }; ∃ e ∈ s.obs.freezeAt, e.1 = s.frostRing) ∧
    ((1#64).getLsbD 0 = true ∧ (1#64).getLsbD 1 = false ∧ (2#64).getLsbD 0 = false ∧ (2#64).getLsbD 1 = true) ∧
    (let s := live [(STAND_CFG_read_perf 0, 1)] { act with obs := { samples := [aSample 0] } }
     (s.obs.samples.find? fun x => x.leaf == 0 && x.counter == 3 && x.named.isSome) = some (aSample 0) ∧ (s.twigStand 0).getD 16 = 0 ∧
     (bitsOf (s.rd (sampleCtl 0)).toNat 21 16 + 1) % 64 ≠ bitsOf (s.rd (sampleCtl 0)).toNat 5 0 ∧ s.liveFlag (STAND_CFG_read_perf 0) = true) ∧
    (let s := live [(STAND_CFG_read_perf 0, 0)] { act with obs := { samples := [aSample 0] } }; s.liveFlag (STAND_CFG_read_perf 0) = false) ∧
    (let s := { act with obs := { samples := [aSample 4607] } }
     (s.obs.samples.find? fun x => x.leaf == 4607 && x.counter == 3 && x.named.isSome) = some (aSample 4607) ∧
     (s.twigStand (4607 / 32)).getD 16 = 16) ∧
    (let s := put [(TRC_HANG_CFG_enable, 1)] { act with obs := { hang := [(79, 2 ^ 40)] } }
     s.flag TRC_HANG_CFG_enable = true ∧ s.hangRings ≤ s.obs.hang.get 0 (5 * 15 + 4)) ∧
    (let d : Dump := { stand := 0, cause := 0, time := 5 }
     let s := put [(HBM_RESERVE_valid, 1)] { act with obs := { dump := some d } }
     s.obs.dump = some d ∧ s.obs.dumpWait = [] ∧ s.hwActs = true ∧ s.flag HBM_RESERVE_valid = true) ∧
    (let s := { act with pins := { led := 1, ledLeft := 9 } }; s.pins.led ≠ 0 ∧ s.pins.ledLeft ≠ 0) := by decide +kernel

theorem witness_FrostSamplesAndDumps_of_dumps :
    let hung (f : Obs → Obs) (v : Nat) : State :=
      put [(TRC_HANG_CFG_enable, 1), (HBM_RESERVE_valid, v)] { act with obs := f { hang := [(79, 2 ^ 40)] } }
    let expires (s : State) := s.flag TRC_HANG_CFG_enable = true ∧ s.hangRings ≤ s.obs.hang.get 0 (5 * 15 + 4)
    let recent (s : State) := s.obs.lastDump.get 0 15 ≠ 0 ∧ s.rings + 1 < s.obs.lastDump.get 0 15 + s.hangRings
    let d : Dump := { stand := 15, cause := 0, time := 5 }
    (let s := hung (fun o => { o with lastDump := [(15, 300)], dump := some d }) 1; expires s ∧ recent s) ∧
    (∀ v ∈ [0, 1], let s := hung id v; expires s ∧ ¬ recent s ∧ s.obs.dump = none ∧ s.hwActs = true ∧ (s.flag HBM_RESERVE_valid = true ↔ v = 1)) ∧
    (let s := hung (fun o => { o with dump := some d }) 1; expires s ∧ ¬ recent s ∧ s.obs.dump ≠ none) ∧
    (let s := put [(HBM_RESERVE_valid, 1)] { act with obs := { dump := some d, dumpWait := [d] } }
     s.obs.dump = some d ∧ s.obs.dumpWait = d :: [] ∧ s.hwActs = true ∧ d.slot < 16) ∧
    (act.flag TRC_FROST_pin_en = false ∧ act.obs.samples = [] ∧ ¬ act.hangRings ≤ act.obs.hang.get 0 79 ∧ act.obs.dump = none ∧ act.pins.led = 0) ∧
    ((3#64).getLsbD 0 = true ∧ (3#64).getLsbD 1 = true ∧ (0#64).getLsbD 1 = false) ∧
    (let s := live [(STAND_CFG_read_perf 0, 1)] { (act.wr (sampleCtl 0) 0x3F0000#64) with obs := { samples := [aSample 0] } }
     (bitsOf (s.rd (sampleCtl 0)).toNat 21 16 + 1) % 64 = bitsOf (s.rd (sampleCtl 0)).toNat 5 0) := by
  refine ⟨?_, ?_, ?_, ?_, ?_, ?_, ?_⟩ <;> decide +kernel

theorem witness_OpcodesAreServedInTurn :
    (∀ x ∈ opcodeRows true { signatures := true, unwraps := true, flashOk := true }, act.serving? x.op = none ∧
      let r := req x.op [] 32 16 0 16
      (serve r).serving? x.op = some r ∧ r.mbx < 18 ∧ r.clean x.size x.reserved = true ∧ 16 ≤ r.stand ∧
      (((serve r).takeReq r).commonCheck r x.size x.reserved x.needStand x.serial = some { status := 4 } ↔ x.needStand = true)) ∧
    (∀ x ∈ [(0x0102, 0, 31), (0x0901, 0, 0)], let r := req x.1 [(x.2.2, 1, 1)]; (serve r).serving? x.1 = some r ∧ r.clean x.2.1 [] = false) ∧
    (let r := req 0x0205 []
     let s := serve r { act with ni := { held := [0] } }
     s.serving? 0x0205 = some r ∧ ((s.takeReq r).commonCheck r 0 [] true true).isSome = true ∧ r.clean 0 [] = true) := by
  refine ⟨?_, ?_, ?_⟩ <;> decide +kernel

/-! ### Worked examples of the spec -/

/-- A worked example of 06: leaf 1,220 arrives on knots 2,500, 3,500 and 1,100. -/
theorem test_knot_paths : leafPath 1220 2500 = 64 ∧ leafPath 1220 3500 = 40 ∧ leafPath 1220 1100 = 8 := by decide +kernel

/-- A worked example of 07: stand 6 with region 1 at granules 168 to 171. -/
theorem test_hbm_address :
    let s := live [(HBM_REGION_base 6 1, 168), (HBM_REGION_limit 6 1, 171), (HBM_REGION_valid 6 1, 1)] up
    s.translate 6 0x10034567800 = some 0x2A34567800 ∧ s.inBounds 6 0x10034567800 64 = true ∧ s.inBounds 6 0x10100000000 64 = false ∧
    hbmPlace 0x2A34567800 = (3, 40) := by decide +kernel

/-- A worked example of 12: two seconds after 2100-02-28 23:59:58 it is 2100-03-01; 2100-02-29 is refused and 2000-02-29 taken. -/
theorem test_calendar :
    let stamp (y m d h mi s : Nat) := fields 12 [(0, 2, y), (2, 1, m), (3, 1, d), (4, 1, h), (5, 1, mi), (6, 1, s)]
    stampToUs (stamp 2100 2 28 23 59 58) + 2000000 = stampToUs (stamp 2100 3 1 0 0 0) ∧ stampOk (stamp 2100 2 29 0 0 0) = false ∧
    stampOk (stamp 2000 2 29 0 0 0) = true := by decide +kernel

/-- A worked example of 04: E4M3 element 0x5C under scale 0x7A is 12 × 2^-4. -/
theorem test_mx_element : decodeElem 0 0x5C 0x7A = .fin false 12 (-4) := rfl

/-- A worked example of 16: twig 45 with fuse spare position 32 and fuse bad mask {7} has no spare, and slots 7 to 31 are served by positions 8 to 32. -/
theorem test_twig_45 :
    let s := put [(ID_FUSE_SPARE_bad_mask 45, 2 ^ 7), (ID_FUSE_SPARE_fuse_spare 45, 32)]
      (setClk (setBoot (booting 6 .finished true) fun b => { b with waves := [5] }) fun c => { c with band := 2, slot := 62, rings := 84 })
    let t := match exec (.leafWaveScanDone 5 []) s with | .next t => t | _ => s
    t.spareOf 45 = none ∧ t.physOf 45 6 = some 6 ∧ t.physOf 45 7 = some 8 ∧ t.physOf 45 31 = some 32 ∧
    t.flag (TWIG_STATUS_degraded 45) = false := by decide +kernel

end Sys2Proof.Tests
end

section
/-! SUPPORT. What logging and posting an event leaves unchanged (R338, R386): the registers and the memory outside the mailboxes. -/

namespace Sys2Proof.Machine

/-! ### What an event leaves unchanged -/

/-- The registers that logging and posting an event may change. -/
def eventReg (a : Nat) : Prop := a = PWR_WAKE ∨ a = MBX_EVENT ∨ a = MBX_LOG_STATUS ∨ ∃ m, a = MBX_EVT_STATE m

/-- What an event changes at most: the parts of `OnlyEvents`, of the registers those of `eventReg`, of memory the mailbox windows. -/
structure State.EventFrame (s t : State) : Prop where
  only : s.OnlyEvents t
  rd : ∀ a, ¬ eventReg a → t.rd a = s.rd a
  mem : s.MailboxesOnly t

namespace State.EventFrame

variable {s t u : State}

theorem refl (s : State) : s.EventFrame s := ⟨.refl s, fun _ _ => rfl, fun _ _ => rfl⟩

theorem trans (h : s.EventFrame t) (k : t.EventFrame u) : s.EventFrame u :=
  ⟨h.only.trans k.only, fun a ha => (k.rd a ha).trans (h.rd a ha), fun a ha => (k.mem a ha).trans (h.mem a ha)⟩

theorem fld (h : s.EventFrame t) (f : Fld) (hf : ¬ eventReg f.reg) : t.fld f = s.fld f := by
  unfold State.fld
  rw [h.rd _ hf]

theorem flag (h : s.EventFrame t) (f : Fld) (hf : ¬ eventReg f.reg) : t.flag f = s.flag f := by
  unfold State.flag
  rw [h.fld f hf]

theorem leaves (h : s.EventFrame t) : t.leaves = s.leaves := by
  obtain ⟨_, _, _, _, _, _, rfl⟩ := h.only
  rfl

theorem remap (h : s.EventFrame t) : t.remap = s.remap := by
  obtain ⟨_, _, _, _, _, _, rfl⟩ := h.only
  rfl

theorem nextBand (h : s.EventFrame t) : t.nextBand = s.nextBand := by
  obtain ⟨_, _, _, _, _, _, rfl⟩ := h.only
  rfl

theorem of_setFld (s : State) (f : Fld) (v : Nat) (hf : eventReg f.reg) : s.EventFrame (s.setFld f v) :=
  ⟨⟨_, _, _, _, _, _, rfl⟩, fun _ ha => State.rd_setFld_ne s f v fun q => ha (q ▸ hf), fun _ _ => rfl⟩

/-- A change of the management complex, the I3C port and what is put out alone. -/
theorem of_parts (s : State) (h : Hw) (i : I3c) (o : List Out) : s.EventFrame { s with hw := h, i3c := i, out := o } :=
  ⟨⟨_, _, _, _, _, _, rfl⟩, fun _ _ => rfl, fun _ _ => rfl⟩

theorem of_onHw (s : State) (f : Hw → Hw) : s.EventFrame (s.onHw f) := of_parts s _ _ _

end State.EventFrame

variable (s : State)

theorem State.ibi_frame (cause : Nat) : s.EventFrame (s.ibi cause) := by
  rw [s.ibi_only cause]
  exact .of_parts s _ _ _

theorem State.msix_frame (fn vector : Nat) : s.EventFrame (s.msix fn vector) := by
  rcases s.msix_cases fn vector with h | h
  · rw [h]; exact .refl s
  · rw [h]; exact .of_parts s _ _ _

theorem State.wake_frame (reason : Nat) : s.EventFrame (s.wake reason) := by
  obtain ⟨heq, hrd⟩ := s.wake_only reason
  exact ⟨by rw [heq]; exact ⟨_, _, _, _, _, _, rfl⟩, fun a ha => hrd a fun q => ha (.inl q), fun _ _ => by rw [heq]⟩

theorem State.logKind_frame (kind code severity stand : Nat) (data : List Byte) : s.EventFrame (s.logKind kind code severity stand data) :=
  ⟨⟨_, _, _, _, _, _, rfl⟩, fun a ha => (s.logKind_only kind code severity stand data).2 a fun q => ha (.inr (.inr (.inl q))), fun _ _ => rfl⟩

theorem State.evtSignal_frame (m : Nat) : s.EventFrame (s.evtSignal m) := by
  unfold State.evtSignal
  split
  · exact s.ibi_frame 1
  · refine State.EventFrame.trans ?_ (State.wake_frame _ _)
    split
    · split
      · exact s.msix_frame 0 0
      · exact s.msix_frame (m + 1) 5
    · exact .refl s

theorem eventReg_MBX_EVT_STATE (m : Nat) : eventReg (MBX_EVT_STATE m) := .inr (.inr (.inr ⟨m, rfl⟩))

/-- Posting an event in one of the 18 mailboxes. -/
theorem State.postTo_frame (code severity stand logSeq m : Nat) (data : List Byte) (hm : m < 18) :
    s.EventFrame (s.postTo code severity stand logSeq m data) := by
  obtain ⟨honly, hmem⟩ := s.postTo_only code severity stand logSeq m data
  refine ⟨honly, ?_, fun a ha => hmem a ?_⟩
  · unfold State.postTo
    split
    · have h1 : s.EventFrame (s.count (MBX_EVT_STATE_lost m) 1) := .of_setFld s _ _ (eventReg_MBX_EVT_STATE m)
      have h2 := h1.trans (.of_setFld _ MBX_EVENT_event_lost (bit true) (.inr (.inl rfl)))
      exact (h2.trans (.of_onHw _ _)).rd
    · dsimp only
      intro a ha
      have htail : a ≠ (MBX_EVT_STATE_tail m).reg := fun q => ha (q ▸ eventReg_MBX_EVT_STATE m)
      rw [(State.evtSignal_frame _ m).rd a ha, apply_ite (State.rd · a), State.onI3c_rd, ite_self, State.rd_countWrap_ne _ _ _ htail,
        State.store_rd, State.onHw_rd]
  · have hlo : mbxAt 0 ≤ mbxAt m := by unfold mbxAt; omega
    have hhi : mbxAt m + 65536 ≤ mbxAt 18 := by unfold mbxAt; omega
    omega

/-- What every step over the elements of a list keeps, the whole keeps. -/
theorem State.forEach_keeps_of_mem {α : Type} (P : State → Prop) (l : List α) (f : α → State → State)
    (h : ∀ x ∈ l, ∀ t, P t → P (f x t)) (s : State) (h0 : P s) : P (s.forEach l f) := by
  unfold State.forEach
  induction l generalizing s with
  | nil => exact h0
  | cons x l ih => exact ih (fun y hy => h y (List.mem_cons_of_mem _ hy)) (f x s) (h x (List.mem_cons_self ..) s h0)

theorem State.postNow_frame (e : EventReq) (he : ∀ x ∈ e.targets, x.1 < 18) : s.EventFrame (s.postNow e) :=
  State.forEach_keeps_of_mem s.EventFrame _ _ (fun x hx t ht => ht.trans (t.postTo_frame _ _ _ _ _ _ (he x hx))) _
    (s.logKind_frame _ _ _ _ _)

theorem State.event_frame (e : EventReq) (he : ∀ x ∈ e.targets, x.1 < 18) : s.EventFrame (s.event e) := by
  unfold State.event
  split
  · exact s.postNow_frame e he
  · exact .of_onHw s _

theorem State.eventOwner_frame (code severity stand : Nat) (data : List Byte) : s.EventFrame (s.eventOwner code severity stand data) :=
  s.event_frame _ (by simp)

theorem State.eventBoth_frame (code severity stand : Nat) (data vf : List Byte) (h : stand < 16) :
    s.EventFrame (s.eventBoth code severity stand data vf) :=
  s.event_frame _ (by simp; omega)

theorem State.eventOnce_frame (code severity stand : Nat) (data : List Byte) : s.EventFrame (s.eventOnce code severity stand data) := by
  unfold State.eventOnce
  split
  · exact .refl s
  · exact (State.EventFrame.of_onHw s _).trans (State.eventOwner_frame _ _ _ _ _)

end Sys2Proof.Machine
end

section
/-! SUPPORT. Leaf reset and the router's check (R84, R86, R425): what each row answers, and which registers it changes. -/

namespace Sys2Proof.Machine

variable (s : State)

/-! ### Changes of registers only -/

theorem State.OnlyRegs.refl (rs : List Nat) : s.OnlyRegs s rs := ⟨rfl, fun _ _ => rfl⟩

theorem State.wr_onlyRegs (a : Nat) (w : Word) : s.OnlyRegs (s.wr a w) [a] :=
  ⟨rfl, fun _ hb => s.rd_wr_ne w fun q => hb (List.mem_singleton.mpr q)⟩

theorem State.setFld_onlyRegs (f : Fld) (v : Nat) : s.OnlyRegs (s.setFld f v) [f.reg] := s.wr_onlyRegs _ _

theorem State.OnlyRegs.trans {s t u : State} {rs : List Nat} (h : s.OnlyRegs t rs) (k : t.OnlyRegs u rs) : s.OnlyRegs u rs := by
  obtain ⟨h1, h2⟩ := h
  obtain ⟨k1, k2⟩ := k
  refine ⟨?_, fun a ha => (k2 a ha).trans (h2 a ha)⟩
  rw [k1, h1]

theorem State.OnlyRegs.mono {s t : State} {rs qs : List Nat} (h : s.OnlyRegs t rs) (hq : ∀ a ∈ rs, a ∈ qs) : s.OnlyRegs t qs :=
  ⟨h.1, fun a ha => h.2 a fun hr => ha (hq a hr)⟩

theorem State.bump_onlyRegs (a n : Nat) : s.OnlyRegs (s.bump a n) [a] := by
  unfold State.bump
  split
  · exact .refl s _
  · exact s.wr_onlyRegs _ _

/-! ### A leaf reset -/

/-- A leaf reset leaves the leaf its stamp and its clock, and every other leaf as it was (R84). -/
theorem State.resetLeaf_leaf (w p : Nat) (hp : p < 33) :
    (s.resetLeaf w p).leaf w p = { stamp := (s.leaf w p).stamp, clock := (s.leaf w p).clock, failed := (s.leaf w p).failed } ∧
    ∀ w' p', p < 33 → p' < 33 → (w', p') ≠ (w, p) → (s.resetLeaf w p).leaf w' p' = s.leaf w' p' := by
  refine ⟨s.leaf_onLeaf_self w p _, fun w' p' _ hp' hne => ?_⟩
  have hkey : ¬ w' * 33 + p' = w * 33 + p := fun h => hne (by rw [Prod.mk.injEq]; omega)
  unfold State.resetLeaf
  rw [State.leaf_onLeaf, if_neg hkey]

theorem State.resetSlotLeaf_of_physOf {w i p : Nat} (h : s.physOf w i = some p) : s.resetSlotLeaf w i = s.resetLeaf w p := by
  unfold State.resetSlotLeaf
  rw [h]

/-- The slot map of a twig is as it was where the registers of the map are. -/
theorem State.physOf_congr {s t : State} (w i : Nat) (h : t.rd (TWIG_SLOT_MAP w (i / 8)) = s.rd (TWIG_SLOT_MAP w (i / 8))) :
    t.physOf w i = s.physOf w i := by
  unfold State.physOf State.slotByte
  rw [h]

/-- The state in which the reset asked for is decided: its request taken, ID_LEAF_RESET.busy clear. -/
def State.leafRstTaken (s : State) : State := { s with leafRst := none }.setFlag ID_LEAF_RESET_busy false

theorem State.leafRstTaken_rd {a : Nat} (h : a ≠ ID_LEAF_RESET) : s.leafRstTaken.rd a = s.rd a := State.rd_setFlag_ne _ _ _ h

theorem State.leafRstTaken_busy : s.leafRstTaken.flag ID_LEAF_RESET_busy = false := State.flag_setFlag_self _ _ _ rfl

theorem State.leafRstTaken_fault {w : Nat} (_ : w < 144) :
    s.leafRstTaken.fld (TWIG_LEAF_FAULT_slot_fault w) = s.fld (TWIG_LEAF_FAULT_slot_fault w) := by
  have h : TWIG_LEAF_FAULT w ≠ ID_LEAF_RESET := by unfold TWIG_LEAF_FAULT ID_LEAF_RESET; omega
  exact congrArg (TWIG_LEAF_FAULT_slot_fault w).of (s.leafRstTaken_rd h)

theorem State.leafRstTaken_physOf {w i : Nat} (hi : i < 32) : s.leafRstTaken.physOf w i = s.physOf w i :=
  State.physOf_congr w i (s.leafRstTaken_rd (by unfold TWIG_SLOT_MAP ID_LEAF_RESET; omega))

/-- What the reset asked for answers in step 2 of its guard band (R425). -/
theorem State.leafResetNow_eq {w i r : Nat} (hw : w < 144) (h : s.leafRst = some (w, i, r)) (hr : s.inStep2 r = true) :
    s.leafResetNow =
      if (s.twigStand w).isNone || bitOf (s.fld (TWIG_LEAF_FAULT_slot_fault w)) i then
        (s.leafRstTaken.resetSlotLeaf w i).setFld ID_LEAF_RESET_result 1
      else s.leafRstTaken.setFld ID_LEAF_RESET_result 2 := by
  unfold State.leafResetNow
  rw [h]
  dsimp only
  rw [if_pos hr, ← s.leafRstTaken_fault hw]
  rfl

theorem exec_leafReset_asked {w i r : Nat} (hi : i < 32) (h : s.leafRst = some (w, i, r)) :
    exec (.leafReset (w * 32 + i)) s = .next s.leafResetNow := by
  have hw' : (w * 32 + i) / 32 = w := by omega
  have hi' : (w * 32 + i) % 32 = i := by omega
  show execLeafReset (w * 32 + i) s = _
  unfold execLeafReset
  simp only [hw', hi', h, Option.map_some, if_true]

/-- Of a slot ID_LEAF_RESET does not name, a leaf reset is carried out while the slot's fault bit is set or its stand is RESETTING (R84). -/
theorem exec_leafReset_unasked {w i : Nat} (hw : w < 144) (hi : i < 32) (h : s.leafRst = none)
    (hf : bitOf (s.fld (TWIG_LEAF_FAULT_slot_fault w)) i = true ∨ ∃ st, s.twigStand w = some st ∧ s.standState st = 3) :
    exec (.leafReset (w * 32 + i)) s = .next (s.resetSlotLeaf w i) := by
  have hw' : (w * 32 + i) / 32 = w := by omega
  have hi' : (w * 32 + i) % 32 = i := by omega
  have hn : w * 32 + i < 4608 := by omega
  show execLeafReset (w * 32 + i) s = _
  unfold execLeafReset
  simp only [hw', hi', h, Option.map_none, reduceCtorEq, if_false]
  rw [State.when_next, if_pos]
  rcases hf with hf | ⟨st, hst, h3⟩
  · simp [hf, hn]
  · simp [hst, h3, hn]

theorem State.writeLeafReset_eq (v : Word) (hb : s.flag ID_LEAF_RESET_busy = false) (hd : s.flag ID_BOOT_done = true)
    (hw : bitsOf v.toNat 15 8 < 144) :
    s.writeLeafReset v =
      { s.setFlag ID_LEAF_RESET_busy true with leafRst := some (bitsOf v.toNat 15 8, bitsOf v.toNat 4 0, s.nextBand) } := by
  unfold State.writeLeafReset
  rw [hb, hd, if_neg (by decide), if_neg (by omega)]

/-! ### The router's check -/

/-- Whether the router lets a packet of a position and stamp pass (R86). -/
def State.routerPasses (s : State) (w p stamp : Nat) : Bool :=
  match s.slotOf w p with
  | some i => s.slotEpoch w i == stamp
  | none => false

/-- What the router records of a packet it discards (R86). -/
def State.staleCounted (s : State) (w p stamp : Nat) : State :=
  ((s.count (TWIG_STALE_stale_count w) 1).setFld (TWIG_STALE_last_phys w) p).setFld (TWIG_STALE_last_epoch w) stamp

theorem exec_leafPacketAtRouter_passes {w p stamp : Nat} (h : s.routerPasses w p stamp = true) :
    exec (.leafPacketAtRouter w p stamp) s = .next s := by
  show s.when (decide (w < 144) && decide (p < 33) && !s.routerPasses w p stamp) _ = _
  rw [h, Bool.not_true, Bool.and_false, State.when_false]

theorem exec_leafPacketAtRouter_stale {w p stamp : Nat} (hw : w < 144) (hp : p < 33) (h : s.routerPasses w p stamp = false) :
    ∃ data, exec (.leafPacketAtRouter w p stamp) s = .next (((s.staleCounted w p stamp).twigEvent w 0x14 1 1).eventOnce 0x0023 2 0xFF data) := by
  apply Exists.intro
  show s.when (decide (w < 144) && decide (p < 33) && !s.routerPasses w p stamp) _ = _
  rw [h, State.when_next, if_pos (by simp [hw, hp])]
  rfl

/-- A selectable counter changes no register but itself, and nothing but registers. -/
theorem State.selCount_only (sel ctr ev cycles edges : Nat) : s.OnlyRegs (s.selCount sel ctr ev cycles edges) [ctr] := by
  unfold State.selCount
  dsimp only
  split
  · exact s.bump_onlyRegs _ _
  · exact .refl s _

/-- An event of a twig counts in the twig's own counters. -/
theorem State.twigEvent_only (w ev cycles edges : Nat) :
    s.OnlyRegs (s.twigEvent w ev cycles edges) ((List.range 8).map (PERF_TWIG_CTR w)) :=
  State.forEach_keeps_of_mem (fun t => s.OnlyRegs t ((List.range 8).map (PERF_TWIG_CTR w))) _ _
    (fun i hi t ht => ht.trans ((t.selCount_only _ _ _ _ _).mono fun a ha => by
      rw [List.mem_singleton.mp ha]; exact List.mem_map_of_mem hi)) s (.refl s _)

theorem TWIG_STALE_notMem_PERF_TWIG_CTR {w : Nat} (hw : w < 144) : TWIG_STALE w ∉ (List.range 8).map (PERF_TWIG_CTR w) := by
  simp only [List.mem_map, TWIG_STALE, PERF_TWIG_CTR, not_exists, not_and]
  omega

/-- The registers of the twigs are none of an event's. -/
theorem not_eventReg_of_lt {a : Nat} (h : a < 0x900000) : ¬ eventReg a := by
  rintro (rfl | rfl | rfl | ⟨m, rfl⟩) <;> simp only [PWR_WAKE, MBX_EVENT, MBX_LOG_STATUS, MBX_EVT_STATE] at h <;> omega

theorem not_eventReg_MBX_RED_CFG : ¬ eventReg MBX_RED_CFG := by
  rintro (h | h | h | ⟨m, h⟩) <;> simp only [MBX_RED_CFG, PWR_WAKE, MBX_EVENT, MBX_LOG_STATUS, MBX_EVT_STATE] at h <;> omega

end Sys2Proof.Machine
end

section
/-! SUPPORT. Fault bits (R389) and bough-buffer regions (R94): what a fault bit decides, and when a region write is rejected. -/

namespace Sys2Proof.Machine

variable (s : State)

/-! ### Bits and fields -/

theorem bitOf_eq_testBit (x i : Nat) : bitOf x i = x.testBit i := by
  unfold bitOf
  rw [Nat.testBit_eq_decide_div_mod_eq, Nat.shiftRight_eq_div_pow]
  rfl

theorem Fld.of_lt (f : Fld) (w : Word) : f.of w < 2 ^ (f.hi + 1 - f.lo) := Nat.mod_lt _ (Nat.two_pow_pos _)

theorem State.twigStand_lt {w st : Nat} (h : s.twigStand w = some st) : st < 16 := by
  unfold State.twigStand at h
  split at h
  · rw [← Option.some.inj h]
    exact Fld.of_lt (STAND_TWIG_OWNER_stand w) _
  · simp at h

/-- A bit set in a field reads 1. -/
theorem bitOf_fld_setFld_or (f : Fld) (x i : Nat) (hf : f.ok = true) (hi : i < f.hi + 1 - f.lo) :
    bitOf ((s.setFld f (x ||| 1 <<< i)).fld f) i = true := by
  rw [s.fld_setFld_self f _ hf, bitOf_eq_testBit, Nat.testBit_mod_two_pow, Nat.testBit_or, Nat.testBit_shiftLeft]
  simp [hi]

/-- A bit masked out of a field of `n` bits reads 0. -/
theorem bitOf_fld_setFld_and (f : Fld) (x i n : Nat) (hf : f.ok = true) (hi : i < n) :
    bitOf ((s.setFld f (x &&& (2 ^ n - 1 - 1 <<< i))).fld f) i = false := by
  have hm : 2 ^ n - 1 - 1 <<< i = 2 ^ n - (2 ^ i + 1) := by rw [Nat.one_shiftLeft, Nat.sub_sub, Nat.add_comm]
  rw [s.fld_setFld_self f _ hf, bitOf_eq_testBit, Nat.testBit_mod_two_pow, Nat.testBit_and, hm,
    Nat.testBit_two_pow_sub_succ (Nat.pow_lt_pow_right (by decide) hi), Nat.testBit_two_pow_self]
  simp

/-! ### The fault bits of a twig -/

/-- `t` differs from `s` in the fault bits of twig `w` and in which of them Heartwood has told of. -/
def State.FaultBitsOnly (s t : State) (w : Nat) : Prop :=
  t = { s with regs := t.regs, hw := { s.hw with remapWait := t.hw.remapWait } } ∧ s.SameRegsBut t [TWIG_LEAF_FAULT w]

theorem State.FaultBitsOnly.setFld {s t : State} {w : Nat} (h : s.FaultBitsOnly t w) (v : Nat) :
    s.FaultBitsOnly (t.setFld (TWIG_LEAF_FAULT_slot_fault w) v) w := by
  refine ⟨?_, fun a ha => ?_⟩
  · conv => lhs; rw [h.1]
    rfl
  · rw [(t.setFld_onlyRegs _ v).2 a ha, h.2 a ha]

theorem State.FaultBitsOnly.fld {s t : State} {w : Nat} (h : s.FaultBitsOnly t w) (f : Fld) (hf : f.reg ≠ TWIG_LEAF_FAULT w) :
    t.fld f = s.fld f := by
  unfold State.fld
  rw [h.2 f.reg (by simpa using hf)]

theorem State.FaultBitsOnly.flag {s t : State} {w : Nat} (h : s.FaultBitsOnly t w) (f : Fld) (hf : f.reg ≠ TWIG_LEAF_FAULT w) :
    t.flag f = s.flag f := by
  unfold State.flag
  rw [h.fld f hf]

theorem State.clearLeafFault_only (w i : Nat) : s.FaultBitsOnly (s.clearLeafFault w i) w :=
  ⟨rfl, (s.setFld_onlyRegs (TWIG_LEAF_FAULT_slot_fault w) _).2⟩

theorem State.clearLeafFault_bit (w i : Nat) (hi : i < 32) :
    bitOf ((s.clearLeafFault w i).fld (TWIG_LEAF_FAULT_slot_fault w)) i = false :=
  bitOf_fld_setFld_and s (TWIG_LEAF_FAULT_slot_fault w) _ i 32 rfl hi

theorem State.setLeafFault_only (w i : Nat) : s.FaultBitsOnly (s.setLeafFault w i) w := by
  unfold State.setLeafFault
  split
  · exact State.FaultBitsOnly.setFld ⟨rfl, fun _ _ => rfl⟩ _
  · exact (s.clearLeafFault_only w i).setFld _

theorem State.setLeafFault_bit (w i : Nat) (hi : i < 32) :
    bitOf ((s.setLeafFault w i).fld (TWIG_LEAF_FAULT_slot_fault w)) i = true :=
  bitOf_fld_setFld_or _ (TWIG_LEAF_FAULT_slot_fault w) _ i rfl hi

/-- A fault bit does not decide whether a Heartwood acts. -/
theorem State.FaultBitsOnly.hwActs {s t : State} {w : Nat} (hw : w < 144) (h : s.FaultBitsOnly t w) : t.hwActs = s.hwActs := by
  have hne (f : Fld) (hf : 0x900000 ≤ f.reg) : f.reg ≠ TWIG_LEAF_FAULT w := by unfold TWIG_LEAF_FAULT; omega
  have htoken : t.token = s.token := h.fld MBX_HEARTWOOD_token (hne _ (by decide))
  have htakeover : t.flag MBX_RED_STATUS_takeover_running = s.flag MBX_RED_STATUS_takeover_running := h.flag _ (hne _ (by decide))
  have hstate : t.pwrState = s.pwrState := h.fld PWR_STATUS_state (hne _ (by decide))
  have hpowered : t.powered = s.powered := by rw [h.1]; rfl
  have hpausing : t.hw.pausing = s.hw.pausing := by rw [h.1]
  have hlive (a : Nat) : t.liveRd a = s.liveRd a := by rw [h.1]; rfl
  unfold State.hwActs State.safeHold State.gates
  rw [htoken, htakeover, hstate, hpowered, hpausing, hlive]

/-- Heartwood has told of a fault bit, once (R389). -/
def State.leafFaultTold (s : State) (w i : Nat) : State :=
  if s.hw.remapWait.contains (w, i) then s
  else (s.tellLeafFault w i).onHw fun h => { h with remapWait := (w, i) :: h.remapWait }

theorem State.tellLeafFault_frame (w i : Nat) : s.EventFrame (s.tellLeafFault w i) := by
  unfold State.tellLeafFault
  dsimp only
  split
  case h_1 st h => exact s.eventBoth_frame _ _ _ _ _ (s.twigStand_lt h)
  case h_2 => exact s.eventOwner_frame _ _ _ _

theorem State.leafFaultTold_frame (w i : Nat) : s.EventFrame (s.leafFaultTold w i) := by
  unfold State.leafFaultTold
  split
  · exact .refl s
  · exact (s.tellLeafFault_frame w i).trans (.of_onHw _ _)

/-- The request Heartwood writes for a fault bit under auto_remap, and the bit cleared (R389). -/
def State.leafFaultRemapped (s : State) (w i : Nat) : State :=
  (s.writeTwigRemap (BitVec.ofNat 64 (w * 256 + i))).clearLeafFault w i

theorem State.handleLeafFault_idle {w i : Nat} (h : s.hwActs = false) : s.handleLeafFault w i = s := by
  unfold State.handleLeafFault
  rw [h, Bool.not_false, Bool.true_or, if_pos rfl]

theorem State.handleLeafFault_acts {w i : Nat} (h : s.hwActs = true) (hb : bitOf (s.fld (TWIG_LEAF_FAULT_slot_fault w)) i = true) :
    s.handleLeafFault w i =
      if (s.leafFaultTold w i).flag MBX_RED_CFG_auto_remap && !(s.leafFaultTold w i).flag TWIG_REMAP_busy then
        (s.leafFaultTold w i).leafFaultRemapped w i
      else s.leafFaultTold w i := by
  unfold State.handleLeafFault
  rw [h, hb, if_neg (by decide)]
  rfl

/-- A remap asked for a slot whose fault bit is set waits for the next guard band (R88). -/
theorem State.writeTwigRemap_dead {w i : Nat} (hw : w < 144) (hi : i < 32) (hbusy : s.flag TWIG_REMAP_busy = false)
    (hdead : bitOf (s.fld (TWIG_LEAF_FAULT_slot_fault w)) i = true) :
    s.writeTwigRemap (BitVec.ofNat 64 (w * 256 + i)) =
      { s.setFlag TWIG_REMAP_busy true with remap := some (w, i, true, s.nextBand) } := by
  have hv : (BitVec.ofNat 64 (w * 256 + i)).toNat = w * 256 + i := by rw [BitVec.toNat_ofNat]; omega
  have htwig : bitsOf (w * 256 + i) 15 8 = w := by unfold bitsOf; rw [Nat.shiftRight_eq_div_pow]; omega
  have hslot : bitsOf (w * 256 + i) 5 0 = i := by unfold bitsOf; rw [Nat.shiftRight_eq_div_pow]; omega
  have hop : (BitVec.ofNat 64 (w * 256 + i)).getLsbD 16 = false := by
    rw [BitVec.getLsbD, hv, Nat.testBit_lt_two_pow (by omega)]
  unfold State.writeTwigRemap
  simp only [hv, htwig, hslot, hop, hbusy, hdead, Nat.not_le.mpr hw, Nat.not_le.mpr hi, decide_false, Bool.or_self, Bool.not_false, Bool.or_true,
    Bool.false_eq_true, if_true, if_false]

theorem exec_leafFaultReport {w i : Nat} (hw : w < 144) (hi : i < 32) :
    exec (.leafFaultReport (w * 32 + i)) s = .next ((s.setLeafFault w i).handleLeafFault w i) := by
  have hw' : (w * 32 + i) / 32 = w := by omega
  have hi' : (w * 32 + i) % 32 = i := by omega
  have hn : w * 32 + i < 4608 := by omega
  show execLeafFaultReport (w * 32 + i) s = _
  unfold execLeafFaultReport
  rw [hw', hi', State.when_next, if_pos (by simpa using hn)]

/-! ### Bough-buffer regions -/

/-- Whether a granule of a region a write would set lies in a valid region of another stand. -/
def State.bbufClash (s : State) (b st : Nat) (v : Word) : Bool :=
  v.getLsbD 63 && (List.range 16).any fun x => x != st &&
    (List.range 64).any fun g => decide (bitsOf v.toNat 5 0 ≤ g) && decide (g ≤ bitsOf v.toNat 13 8) && bbufCovers (s.rd (TWIG_BBUF_REGION b x)) g

theorem State.bbufClash_iff (b st : Nat) (v : Word) :
    s.bbufClash b st v = true ↔
      v.getLsbD 63 = true ∧ ∃ st' g, st' < 16 ∧ st' ≠ st ∧ bitsOf v.toNat 5 0 ≤ g ∧ g ≤ bitsOf v.toNat 13 8 ∧
        bbufCovers (s.rd (TWIG_BBUF_REGION b st')) g = true := by
  have hhi : bitsOf v.toNat 13 8 < 64 := Nat.mod_lt _ (by decide)
  simp only [State.bbufClash, Bool.and_eq_true, List.any_eq_true, List.mem_range, bne_iff_ne, decide_eq_true_eq]
  constructor
  · rintro ⟨hv, x, hx, hne, g, _, ⟨hlo, hle⟩, hc⟩
    exact ⟨hv, x, g, hx, hne, hlo, hle, hc⟩
  · rintro ⟨hv, x, g, hx, hne, hlo, hle, hc⟩
    exact ⟨hv, x, hx, hne, g, by omega, ⟨hlo, hle⟩, hc⟩

theorem exec_twigBbufRegionWrite {b st : Nat} (v : Word) (hb : b < 4) (hst : st < 16) :
    exec (.twigBbufRegionWrite b st v) s =
      .next (if decide (bitsOf v.toNat 13 8 < bitsOf v.toNat 5 0) || s.bbufClash b st v then
          s.setFlag TWIG_BBUF_STATUS_overlap_rejected true
        else s.wr (TWIG_BBUF_REGION b st) (bbufWord v)) := by
  show s.when (decide (b < 4) && decide (st < 16)) (s.writeBbufRegion b st v) = _
  rw [State.when_next, if_pos (by simp [hb, hst])]
  rfl

end Sys2Proof.Machine
end

section
/-! SUPPORT. The rows of leaf reset, router, leaf fault and regions, clause by clause. -/

namespace Sys2Proof.Machine

variable (s : State)

/-! ### Leaf reset, router and regions: the parts of O22 -/

theorem idLeafResetWrite_ends {w i : Nat} {v : Word} (hw : w < 144) (hvw : bitsOf v.toNat 15 8 = w) (hvi : bitsOf v.toNat 4 0 = i)
    (hb : s.flag ID_LEAF_RESET_busy = false) (hd : s.flag ID_BOOT_done = true) :
    Ends (.idLeafResetWrite .csrWrite v) s fun t =>
      t.leafRst = some (w, i, s.nextBand) ∧ t.flag ID_LEAF_RESET_busy = true ∧ s.SameRegsBut t [ID_LEAF_RESET] ∧
      t = { s with regs := t.regs, leafRst := t.leafRst } := by
  refine ⟨s.writeLeafReset v, rfl, ?_⟩
  rw [s.writeLeafReset_eq v hb hd (hvw ▸ hw), hvw, hvi]
  exact ⟨rfl, s.flag_setFlag_self ID_LEAF_RESET_busy true rfl, (s.setFld_onlyRegs ID_LEAF_RESET_busy _).2, rfl⟩

/-- What a leaf reset of position `p` of twig `w` leaves of the leaves and of memory. -/
def State.LeafIsReset (s t : State) (w p : Nat) : Prop :=
  t.leaf w p = { stamp := (s.leaf w p).stamp, clock := (s.leaf w p).clock, failed := (s.leaf w p).failed } ∧
  (∀ w' p', p < 33 → p' < 33 → (w', p') ≠ (w, p) → t.leaf w' p' = s.leaf w' p') ∧ t.mem = s.mem

theorem State.resetLeaf_isReset (w p : Nat) (hp : p < 33) : s.LeafIsReset (s.resetLeaf w p) w p :=
  ⟨(s.resetLeaf_leaf w p hp).1, (s.resetLeaf_leaf w p hp).2, rfl⟩

/-- In step 2 of its guard band the reset asked for is carried out for a twig no stand holds or a slot with its fault bit set (R425). -/
theorem leafReset_ends_done {w i p r : Nat} (hw : w < 144) (hi : i < 32) (hp : p < 33) (h : s.leafRst = some (w, i, r))
    (hr : s.inStep2 r = true) (hmay : s.twigStand w = none ∨ bitOf (s.fld (TWIG_LEAF_FAULT_slot_fault w)) i = true)
    (hphys : s.physOf w i = some p) :
    Ends (.leafReset (w * 32 + i)) s fun t =>
      t.leafRst = none ∧ t.flag ID_LEAF_RESET_busy = false ∧ t.fld ID_LEAF_RESET_result = 1 ∧ s.LeafIsReset t w p ∧
      s.SameRegsBut t [ID_LEAF_RESET] := by
  have hcond : ((s.twigStand w).isNone || bitOf (s.fld (TWIG_LEAF_FAULT_slot_fault w)) i) = true := by
    rcases hmay with h | h <;> simp [h]
  refine ⟨_, exec_leafReset_asked s hi h, ?_⟩
  rw [s.leafResetNow_eq hw h hr, if_pos hcond, State.resetSlotLeaf_of_physOf _ ((s.leafRstTaken_physOf hi).trans hphys)]
  refine ⟨rfl, ?_, State.fld_setFld_self _ _ _ rfl, s.leafRstTaken.resetLeaf_isReset w p hp, fun a ha => ?_⟩
  · exact (State.flag_setFld_apart _ _ _ _ rfl rfl).trans s.leafRstTaken_busy
  · rw [(State.setFld_onlyRegs _ ID_LEAF_RESET_result 1).2 a ha]
    exact s.leafRstTaken_rd fun q => ha (List.mem_singleton.mpr q)

/-- It is refused for a slot of a stand's twig without a fault bit (R425). -/
theorem leafReset_ends_refused {w i r : Nat} (hw : w < 144) (hi : i < 32) (h : s.leafRst = some (w, i, r)) (hr : s.inStep2 r = true)
    (hheld : (s.twigStand w).isSome = true) (hfault : bitOf (s.fld (TWIG_LEAF_FAULT_slot_fault w)) i = false) :
    Ends (.leafReset (w * 32 + i)) s fun t =>
      t.leafRst = none ∧ t.flag ID_LEAF_RESET_busy = false ∧ t.fld ID_LEAF_RESET_result = 2 ∧ t.leaves = s.leaves ∧ t.mem = s.mem ∧
      s.SameRegsBut t [ID_LEAF_RESET] := by
  have hcond : ¬ ((s.twigStand w).isNone || bitOf (s.fld (TWIG_LEAF_FAULT_slot_fault w)) i) = true := by
    simp [hfault, Option.isSome_iff_ne_none.mp hheld]
  refine ⟨_, exec_leafReset_asked s hi h, ?_⟩
  rw [s.leafResetNow_eq hw h hr, if_neg hcond]
  refine ⟨rfl, ?_, State.fld_setFld_self _ _ _ rfl, rfl, rfl, fun a ha => ?_⟩
  · exact (State.flag_setFld_apart _ _ _ _ rfl rfl).trans s.leafRstTaken_busy
  · rw [(State.setFld_onlyRegs _ ID_LEAF_RESET_result 2).2 a ha]
    exact s.leafRstTaken_rd fun q => ha (List.mem_singleton.mpr q)

theorem State.routerPasses_eq_false {w p stamp : Nat}
    (h : s.slotOf w p = none ∨ ∃ j, s.slotOf w p = some j ∧ s.slotEpoch w j ≠ stamp) : s.routerPasses w p stamp = false := by
  unfold State.routerPasses
  rcases h with h | ⟨j, h, hne⟩
  · rw [h]
  · rw [h]
    exact beq_eq_false_iff_ne.mpr hne

theorem State.routerPasses_eq_true {w p j : Nat} (h : s.slotOf w p = some j) : s.routerPasses w p (s.slotEpoch w j) = true := by
  unfold State.routerPasses
  rw [h]
  exact beq_self_eq_true _

theorem State.staleCounted_fields (w p stamp : Nat) (hp : p < 33) (hstamp : stamp < 256) :
    (s.staleCounted w p stamp).fld (TWIG_STALE_stale_count w) = min (TWIG_STALE_stale_count w).max (s.fld (TWIG_STALE_stale_count w) + 1) ∧
    (s.staleCounted w p stamp).fld (TWIG_STALE_last_phys w) = p ∧ (s.staleCounted w p stamp).fld (TWIG_STALE_last_epoch w) = stamp := by
  unfold State.staleCounted
  refine ⟨?_, ?_, ?_⟩
  · rw [State.fld_setFld_apart _ (TWIG_STALE_last_epoch w) (TWIG_STALE_stale_count w) _ rfl rfl,
      State.fld_setFld_apart _ (TWIG_STALE_last_phys w) (TWIG_STALE_stale_count w) _ rfl rfl, State.fld_count_self _ _ _ rfl]
  · rw [State.fld_setFld_apart _ (TWIG_STALE_last_epoch w) (TWIG_STALE_last_phys w) _ rfl rfl, State.fld_setFld_self _ _ _ rfl]
    exact Nat.mod_eq_of_lt (show p < 2 ^ 6 by omega)
  · rw [State.fld_setFld_self _ _ _ rfl]
    exact Nat.mod_eq_of_lt (show stamp < 2 ^ 8 by omega)

/-- A packet the router discards is counted and recorded, and no leaf sees it (R86). -/
theorem leafPacketAtRouter_ends_stale {w p stamp : Nat} (hw : w < 144) (hp : p < 33) (hstamp : stamp < 256)
    (h : s.routerPasses w p stamp = false) :
    Ends (.leafPacketAtRouter w p stamp) s fun t =>
      t.fld (TWIG_STALE_stale_count w) = min (TWIG_STALE_stale_count w).max (s.fld (TWIG_STALE_stale_count w) + 1) ∧
      t.fld (TWIG_STALE_last_phys w) = p ∧ t.fld (TWIG_STALE_last_epoch w) = stamp ∧ t.leaves = s.leaves ∧ s.MailboxesOnly t := by
  obtain ⟨data, he⟩ := exec_leafPacketAtRouter_stale s hw hp h
  obtain ⟨hcount, hphys, hepoch⟩ := s.staleCounted_fields w p stamp hp hstamp
  have hct := (s.staleCounted w p stamp).twigEvent_only w 0x14 1 1
  have hev := ((s.staleCounted w p stamp).twigEvent w 0x14 1 1).eventOnce_frame 0x0023 2 0xFF data
  refine ⟨_, he, ?_⟩
  generalize ((s.staleCounted w p stamp).twigEvent w 0x14 1 1).eventOnce 0x0023 2 0xFF data = t at hev
  generalize (s.staleCounted w p stamp).twigEvent w 0x14 1 1 = u at hct hev
  have hrd : t.rd (TWIG_STALE w) = (s.staleCounted w p stamp).rd (TWIG_STALE w) :=
    (hev.rd _ (not_eventReg_of_lt (by unfold TWIG_STALE; omega))).trans (hct.2 _ (TWIG_STALE_notMem_PERF_TWIG_CTR hw))
  have hfld (f : Fld) (hf : f.reg = TWIG_STALE w) : t.fld f = (s.staleCounted w p stamp).fld f := by
    unfold State.fld
    rw [hf, hrd]
  have hparts : u.leaves = s.leaves ∧ u.mem = s.mem := by rw [hct.1]; exact ⟨rfl, rfl⟩
  refine ⟨(hfld _ rfl).trans hcount, (hfld _ rfl).trans hphys, (hfld _ rfl).trans hepoch, ?_, fun a ha => ?_⟩
  · rw [hev.leaves, hparts.1]
  · rw [hev.mem a ha, hparts.2]

/-- What a report of a leaf fault leaves of the fault bit while no Heartwood acts (R389). -/
theorem leafFaultReport_ends_idle {w i : Nat} (hw : w < 144) (hi : i < 32) (h : s.hwActs = false) :
    Ends (.leafFaultReport (w * 32 + i)) s fun t =>
      bitOf (t.fld (TWIG_LEAF_FAULT_slot_fault w)) i = true ∧ t.mem = s.mem ∧ t.leaves = s.leaves ∧ s.SameRegsBut t [TWIG_LEAF_FAULT w] := by
  have honly := s.setLeafFault_only w i
  refine ⟨_, exec_leafFaultReport s hw hi, ?_⟩
  rw [State.handleLeafFault_idle _ ((honly.hwActs hw).trans h)]
  exact ⟨s.setLeafFault_bit w i hi, by rw [honly.1], by rw [honly.1], honly.2⟩

/-- What a fault bit told of shows, where Heartwood acts: what was set stands, and the auto_remap and TWIG_REMAP.busy that decide what follows (R389). -/
theorem State.leafFaultTold_setLeafFault {w i : Nat} (hw : w < 144) (hi : i < 32) :
    let t := (s.setLeafFault w i).leafFaultTold w i
    bitOf (t.fld (TWIG_LEAF_FAULT_slot_fault w)) i = true ∧ t.flag MBX_RED_CFG_auto_remap = s.flag MBX_RED_CFG_auto_remap ∧
    t.flag TWIG_REMAP_busy = s.flag TWIG_REMAP_busy ∧ t.remap = s.remap ∧ t.nextBand = s.nextBand ∧ t.leaves = s.leaves ∧ s.MailboxesOnly t := by
  have honly := s.setLeafFault_only w i
  have hframe := (s.setLeafFault w i).leafFaultTold_frame w i
  have hne (a : Nat) (h : a = MBX_RED_CFG ∨ a = TWIG_REMAP) : a ≠ TWIG_LEAF_FAULT w := by
    unfold TWIG_LEAF_FAULT
    rcases h with rfl | rfl
    · unfold MBX_RED_CFG; omega
    · unfold TWIG_REMAP; omega
  refine ⟨?_, ?_, ?_, ?_, ?_, ?_, fun a ha => ?_⟩
  · rw [hframe.fld _ (not_eventReg_of_lt (by unfold TWIG_LEAF_FAULT_slot_fault TWIG_LEAF_FAULT; dsimp only; omega))]
    exact s.setLeafFault_bit w i hi
  · rw [hframe.flag _ not_eventReg_MBX_RED_CFG, honly.flag _ (hne _ (.inl rfl))]
  · rw [hframe.flag _ (not_eventReg_of_lt (by decide)), honly.flag _ (hne _ (.inr rfl))]
  · rw [hframe.remap, honly.1]
  · rw [hframe.nextBand, honly.1]; rfl
  · rw [hframe.leaves, honly.1]
  · rw [hframe.mem a ha, honly.1]

/-- A Heartwood that acts leaves the fault bit set while auto_remap is 0 or a remap is outstanding (R389). -/
theorem leafFaultReport_ends_told {w i : Nat} (hw : w < 144) (hi : i < 32) (h : s.hwActs = true)
    (hoff : s.flag MBX_RED_CFG_auto_remap = false ∨ s.flag TWIG_REMAP_busy = true) :
    Ends (.leafFaultReport (w * 32 + i)) s fun t =>
      bitOf (t.fld (TWIG_LEAF_FAULT_slot_fault w)) i = true ∧ t.remap = s.remap ∧ t.leaves = s.leaves ∧ s.MailboxesOnly t := by
  obtain ⟨hbit, hauto, hbusy, hremap, _, hleaves, hmem⟩ := s.leafFaultTold_setLeafFault hw hi
  refine ⟨_, exec_leafFaultReport s hw hi, ?_⟩
  rw [State.handleLeafFault_acts _ (((s.setLeafFault_only w i).hwActs hw).trans h) (s.setLeafFault_bit w i hi), hauto, hbusy, if_neg]
  · exact ⟨hbit, hremap, hleaves, hmem⟩
  · rcases hoff with h | h <;> simp [h]

/-- Under auto_remap it asks for the remap of the slot and clears the bit (R389). -/
theorem leafFaultReport_ends_remapped {w i : Nat} (hw : w < 144) (hi : i < 32) (h : s.hwActs = true)
    (hon : s.flag MBX_RED_CFG_auto_remap = true) (hfree : s.flag TWIG_REMAP_busy = false) :
    Ends (.leafFaultReport (w * 32 + i)) s fun t =>
      bitOf (t.fld (TWIG_LEAF_FAULT_slot_fault w)) i = false ∧ t.remap = some (w, i, true, s.nextBand) ∧ t.flag TWIG_REMAP_busy = true ∧
      t.leaves = s.leaves ∧ s.MailboxesOnly t := by
  obtain ⟨hbit, hauto, hbusy, _, hband, hleaves, hmem⟩ := s.leafFaultTold_setLeafFault hw hi
  refine ⟨_, exec_leafFaultReport s hw hi, ?_⟩
  rw [State.handleLeafFault_acts _ (((s.setLeafFault_only w i).hwActs hw).trans h) (s.setLeafFault_bit w i hi), hauto, hbusy, hon, hfree,
    if_pos (by decide)]
  generalize (s.setLeafFault w i).leafFaultTold w i = t at hbit hbusy hband hleaves hmem
  unfold State.leafFaultRemapped
  rw [t.writeTwigRemap_dead hw hi (hbusy.trans hfree) hbit, hband]
  generalize hu : ({ t.setFlag TWIG_REMAP_busy true with remap := some (w, i, true, s.nextBand) } : State) = u
  have honly := u.clearLeafFault_only w i
  have hset : u.flag TWIG_REMAP_busy = true := by rw [← hu]; exact t.flag_setFlag_self TWIG_REMAP_busy true rfl
  refine ⟨u.clearLeafFault_bit w i hi, ?_, ?_, ?_, fun a ha => ?_⟩
  · rw [honly.1, ← hu]
  · rw [honly.flag _ (by unfold TWIG_REMAP_busy TWIG_REMAP TWIG_LEAF_FAULT; dsimp only; omega), hset]
  · rw [honly.1, ← hu]; exact hleaves
  · rw [honly.1, ← hu]; exact hmem a ha

/-- A region write with limit below base, or one that would overlap another stand's region, is not carried out (R94). -/
theorem twigBbufRegionWrite_ends_rejected {b st : Nat} {v : Word} (hb : b < 4) (hst : st < 16)
    (h : bitsOf v.toNat 13 8 < bitsOf v.toNat 5 0 ∨ s.bbufClash b st v = true) :
    Ends (.twigBbufRegionWrite b st v) s fun t =>
      t.flag TWIG_BBUF_STATUS_overlap_rejected = true ∧ s.OnlyRegs t [TWIG_BBUF_STATUS] := by
  refine ⟨_, exec_twigBbufRegionWrite s v hb hst, ?_⟩
  rw [if_pos (by rcases h with h | h <;> simp [h])]
  exact ⟨s.flag_setFlag_self _ true rfl, s.setFld_onlyRegs TWIG_BBUF_STATUS_overlap_rejected _⟩

theorem twigBbufRegionWrite_ends_written {b st : Nat} {v : Word} (hb : b < 4) (hst : st < 16)
    (hle : bitsOf v.toNat 5 0 ≤ bitsOf v.toNat 13 8) (h : s.bbufClash b st v = false) :
    Ends (.twigBbufRegionWrite b st v) s fun t =>
      t.rd (TWIG_BBUF_REGION b st) = bbufWord v ∧ s.OnlyRegs t [TWIG_BBUF_REGION b st] := by
  refine ⟨_, exec_twigBbufRegionWrite s v hb hst, ?_⟩
  rw [if_neg (by simp [h, Nat.not_lt.mpr hle])]
  exact ⟨s.rd_wr_self _ _, s.wr_onlyRegs _ _⟩

/-- Settles O22: each clause is the row's equation of its section above, and a fault report goes through what Heartwood has told of. -/
theorem leafResetRouterAndRegions : Obligations.LeafResetRouterAndRegions := by
  intro s w i hw hi
  refine ⟨fun v hvw hvi hb hd => idLeafResetWrite_ends s hw hvw hvi hb hd, ⟨?_, ?_, ?_⟩, ?_, ?_, ?_, ?_, ?_⟩
  · exact fun p r hp h hr hmay hphys => leafReset_ends_done s hw hi hp h hr hmay hphys
  · exact fun r h hr hheld hfault => leafReset_ends_refused s hw hi h hr hheld hfault
  · intro p hp h hphys hmay
    refine ⟨_, exec_leafReset_unasked s hw hi h hmay, ?_⟩
    rw [s.resetSlotLeaf_of_physOf hphys]
    exact ⟨s.resetLeaf_isReset w p hp, rfl⟩
  · exact fun p stamp hp hstamp h => leafPacketAtRouter_ends_stale s hw hp hstamp (s.routerPasses_eq_false h)
  · exact fun p j _ h => ⟨s, exec_leafPacketAtRouter_passes s (s.routerPasses_eq_true h), rfl⟩
  · exact fun h => leafFaultReport_ends_idle s hw hi h
  · exact fun h => ⟨fun hoff => leafFaultReport_ends_told s hw hi h hoff, fun hon hfree => leafFaultReport_ends_remapped s hw hi h hon hfree⟩
  · intro b st v hb hst
    refine ⟨fun h => twigBbufRegionWrite_ends_rejected s hb hst (h.imp_right (s.bbufClash_iff b st v).mpr), fun hle h => ?_⟩
    refine twigBbufRegionWrite_ends_written s hb hst hle (Bool.eq_false_iff.mpr fun hc => ?_)
    obtain ⟨hv, hmeets⟩ := (s.bbufClash_iff b st v).mp hc
    rcases h with h | h
    · exact Bool.noConfusion (h.symm.trans hv)
    · exact h hmeets

end Sys2Proof.Machine
end

section
/-! SUPPORT. Whole and clean lines of HBM (R199 to R202, R512). -/

namespace Sys2Proof.Machine

variable (s : State)

/-! ### A change of the port windows only -/

/-- `s` with other observability state. -/
def State.withObs (s : State) (o : Obs) : State := { s with obs := o }

theorem State.portBytes_withObs (p n : Nat) : ∃ o, s.portBytes p n = s.withObs o := by
  unfold State.portBytes
  split
  · exact ⟨s.obs, rfl⟩
  · exact ⟨_, rfl⟩

theorem State.pcieBytes_withObs (op : BarOp) : ∃ o, s.pcieBytes op = s.withObs o := by
  cases op with
  | read n => exact s.portBytes_withObs 36 n
  | write bs => exact s.portBytes_withObs 37 bs.length

/-! ### Bytes of memory -/

theorem Memory.writeN_append (m : List Host.Cell) (a : Nat) (xs ys : List Byte) :
    Memory.writeN m a (xs ++ ys) = Memory.writeN (Memory.writeN m a xs) (a + xs.length) ys := by
  induction xs generalizing m a with
  | nil => rfl
  | cons x xs ih =>
    rw [List.cons_append, Memory.writeN, ih, Memory.writeN, List.length_cons, Nat.add_right_comm, Nat.add_assoc]

@[simp] theorem Memory.length_readN (m : List Host.Cell) (a n : Nat) : (Memory.readN m a n).length = n := by simp [Memory.readN]

theorem Memory.readN_append (m : List Host.Cell) (a n k : Nat) :
    Memory.readN m a n ++ Memory.readN m (a + n) k = Memory.readN m a (n + k) := by
  unfold Memory.readN
  rw [List.range_add, List.map_append, List.map_map]
  simp only [Function.comp_def, Nat.add_assoc]

theorem Memory.take_drop_readN (m : List Host.Cell) (a d n k : Nat) (h : d + n ≤ k) :
    ((Memory.readN m a k).drop d).take n = Memory.readN m (a + d) n := by
  apply List.ext_getElem
  · simp; omega
  · intro i h1 h2
    simp [Memory.readN, Nat.add_assoc]

theorem Memory.readN_congr {m m' : List Host.Cell} {a n : Nat} (h : ∀ x, a ≤ x → x < a + n → Memory.read m' x = Memory.read m x) :
    Memory.readN m' a n = Memory.readN m a n := by
  unfold Memory.readN
  refine List.map_congr_left fun i hi => h _ (by omega) ?_
  have := List.mem_range.mp hi
  omega

/-! ### Whole lines of HBM -/

/-- Nothing but memory, the lines and the port windows changes. -/
def State.LinesOnly (s t : State) : Prop := t = { s with mem := t.mem, lines := t.lines, obs := t.obs }

theorem State.LinesOnly.trans {s t u : State} (h : s.LinesOnly t) (k : t.LinesOnly u) : s.LinesOnly u := by
  unfold State.LinesOnly at *
  rw [k, h]

/-- A whole line replaces its stored form (R512). -/
theorem State.writeLine_whole (key line o : Nat) (bs : List Byte) (h : bs.length = 64) :
    s.LinesOnly (s.writeLine key line o bs).2 ∧ (s.writeLine key line o bs).2.mem = Memory.writeN s.mem (line * 64) bs := by
  obtain ⟨ob, hob⟩ := s.portBytes_withObs (50 + (hbmPlace (line * 64)).1) 64
  unfold State.writeLine
  dsimp only
  rw [hob, if_pos h]
  exact ⟨rfl, rfl⟩

/-- Whole lines from a line's first byte on are written as they stand. -/
theorem State.writeLines_whole (n : Nat) (s : State) (key line : Nat) (bs : List Byte) (h : bs.length = n * 64) :
    s.LinesOnly (State.writeLines n s key (line * 64) bs).2 ∧
    (State.writeLines n s key (line * 64) bs).2.mem = Memory.writeN s.mem (line * 64) bs := by
  induction n generalizing s line bs with
  | zero =>
    rw [Nat.zero_mul, List.length_eq_zero_iff] at h
    subst h
    exact ⟨rfl, rfl⟩
  | succ n ih =>
    have hdiv : line * 64 / 64 = line := Nat.mul_div_cancel _ (by decide)
    have hmod : line * 64 % 64 = 0 := Nat.mul_mod_left _ _
    have htake : (bs.take 64).length = 64 := by rw [List.length_take]; omega
    obtain ⟨honly, hmem⟩ := s.writeLine_whole key line 0 (bs.take 64) htake
    obtain ⟨ihonly, ihmem⟩ := ih (s.writeLine key line 0 (bs.take 64)).2 (line + 1) (bs.drop 64) (by rw [List.length_drop]; omega)
    have heq : (State.writeLines (n + 1) s key (line * 64) bs).2 =
        (State.writeLines n (s.writeLine key line 0 (bs.take 64)).2 key ((line + 1) * 64) (bs.drop 64)).2 := by
      rw [State.writeLines, hdiv, hmod, Nat.succ_mul]
      rfl
    rw [heq]
    refine ⟨honly.trans ihonly, ?_⟩
    rw [ihmem, hmem]
    conv => rhs; rw [← List.take_append_drop 64 bs, Memory.writeN_append, htake]
    rw [Nat.succ_mul]

theorem linesOf_whole {a n : Nat} (ha : a % 64 = 0) (hn : n % 64 = 0) : linesOf a n * 64 = n := by
  unfold linesOf
  split <;> omega

theorem State.hbmWrite_whole (key a : Nat) (bs : List Byte) (ha : a % 64 = 0) (hn : bs.length % 64 = 0) :
    s.LinesOnly (s.hbmWrite key a bs).2 ∧ (s.hbmWrite key a bs).2.mem = (s.store a bs).mem := by
  have h := State.writeLines_whole (linesOf a bs.length) s key (a / 64) bs (linesOf_whole ha hn).symm
  have ha' : a / 64 * 64 = a := by omega
  rw [ha'] at h
  exact h

/-- A clean line under the reader's key reads as stored, and nothing changes but the port window. -/
theorem State.readLine_clean (key line : Nat) (h : s.line line = { key, err := .clean }) :
    ∃ o, s.readLine key line = (s.bytes (line * 64) 64, false, s.withObs o) := by
  obtain ⟨ob, hob⟩ := s.portBytes_withObs (38 + (hbmPlace (line * 64)).1) 64
  refine ⟨ob, ?_⟩
  unfold State.readLine
  rw [h, hob]
  dsimp only
  rw [if_pos rfl]
  rfl

theorem State.readLines_clean (n : Nat) (s : State) (key line : Nat) (h : ∀ m, line ≤ m → m < line + n → s.line m = { key, err := .clean }) :
    ∃ o, State.readLines n s key line = (s.bytes (line * 64) (n * 64), false, s.withObs o) := by
  induction n generalizing s line with
  | zero => exact ⟨s.obs, by rw [Nat.zero_mul]; rfl⟩
  | succ n ih =>
    obtain ⟨o, ho⟩ := s.readLine_clean key line (h line (Nat.le_refl _) (by omega))
    obtain ⟨o', ho'⟩ := ih (s.withObs o) (line + 1) fun m h1 h2 => h m (by omega) (by omega)
    refine ⟨o', ?_⟩
    rw [State.readLines, ho]
    dsimp only
    rw [ho']
    have hbytes : s.bytes (line * 64) 64 ++ (s.withObs o).bytes ((line + 1) * 64) (n * 64) = s.bytes (line * 64) ((n + 1) * 64) := by
      rw [Nat.succ_mul, Nat.succ_mul, Nat.add_comm (n * 64)]
      exact Memory.readN_append s.mem _ _ _
    rw [← hbytes]
    rfl

/-- Bytes of clean lines read as stored. -/
theorem State.hbmRead_clean (key a n : Nat) (hn : 0 < n)
    (h : ∀ m, a / 64 ≤ m → m ≤ (a + n - 1) / 64 → s.line m = { key, err := .clean }) :
    ∃ o, s.hbmRead key a n = (s.bytes a n, false, s.withObs o) := by
  have hlines : linesOf a n = (a + n - 1) / 64 - a / 64 + 1 := by rw [linesOf, if_neg (by omega)]
  obtain ⟨o, ho⟩ := State.readLines_clean (linesOf a n) s key (a / 64) fun m h1 h2 => h m h1 (by omega)
  refine ⟨o, ?_⟩
  have hbytes : ((s.bytes (a / 64 * 64) (linesOf a n * 64)).drop (a % 64)).take n = s.bytes a n := by
    have ha : a / 64 * 64 + a % 64 = a := by omega
    conv => rhs; rw [← ha]
    exact Memory.take_drop_readN s.mem _ _ _ _ (by omega)
  unfold State.hbmRead
  rw [ho]
  dsimp only
  rw [hbytes]

end Sys2Proof.Machine
end

section
/-! SUPPORT. What an access to HBM leaves of memory: lines beyond it, and all but the mailboxes (R201, R202, R512). -/

namespace Sys2Proof.Machine

variable (s : State)

/-! ### What an access to HBM leaves of memory -/

theorem State.MailboxesOnly.of_mem_eq {s t : State} (h : t.mem = s.mem) : s.MailboxesOnly t := fun a _ => by rw [h]

theorem State.MailboxesOnly.trans {s t u : State} (h : s.MailboxesOnly t) (k : t.MailboxesOnly u) : s.MailboxesOnly u :=
  fun a ha => (k a ha).trans (h a ha)

theorem State.spareRow_mem (row : Nat × Nat) : (s.spareRow row).mem = s.mem := by
  unfold State.spareRow
  split
  · rfl
  · split <;> rfl

theorem State.markChannel_mem (row : Nat × Nat) : (s.markChannel row).mem = s.mem := by
  unfold State.markChannel
  dsimp only
  split
  · split <;> rfl
  · rfl

/-- A corrected read as counted and recorded, before its row is spared (R201, R204). -/
def State.correctedNoted (s : State) (line symbol : Nat) : State :=
  let row := hbmRow line
  let s := (s.count (HBM_ECC_COUNT_corrected row.1) 1).setFlag HBM_EVENT_corrected true
  let s := ((s.setFlag HBM_ECC_LAST_uncorr false).setFld HBM_ECC_LAST_symbol symbol).setFld HBM_ECC_LAST_line_addr line
  let hits := ((s.hbm.rowHits.find? fun e => e.1 == row).map (·.2)).getD 0 + 1
  s.onHbm fun h => { h with rowHits := (row, hits) :: h.rowHits.filter fun e => e.1 != row }

/-- The corrected reads of a line's row, with this one. -/
def State.hitsWith (s : State) (line : Nat) : Nat := ((s.hbm.rowHits.find? fun e => e.1 == hbmRow line).map (·.2)).getD 0 + 1

theorem State.corrected_eq (line symbol : Nat) :
    s.corrected line symbol =
      if max 1 ((s.correctedNoted line symbol).fld HBM_CFG_row_thresh) ≤ s.hitsWith line then
        ((s.correctedNoted line symbol).spareRow (hbmRow line)).markChannel (hbmRow line)
      else s.correctedNoted line symbol := rfl

theorem State.corrected_mem (line symbol : Nat) : (s.corrected line symbol).mem = s.mem := by
  rw [State.corrected_eq]
  split
  · rw [State.markChannel_mem, State.spareRow_mem]; rfl
  · rfl

/-- An uncorrectable read as counted and recorded, before it is told (R202, R204). -/
def State.uncorrectedNoted (s : State) (line : Nat) : State :=
  let row := hbmRow line
  let s := (s.count (HBM_ECC_COUNT_uncorrectable row.1) 1).setFlag HBM_EVENT_uncorrectable true
  let s := ((s.setFlag HBM_ECC_LAST_uncorr true).setFld HBM_ECC_LAST_symbol 0).setFld HBM_ECC_LAST_line_addr line
  let s := s.onHbm fun h => { h with badRows := if h.badRows.contains row then h.badRows else row :: h.badRows }
  (s.spareRow row).markChannel row

theorem State.uncorrectedNoted_mem (line : Nat) : (s.uncorrectedNoted line).mem = s.mem := by
  unfold State.uncorrectedNoted
  dsimp only
  rw [State.markChannel_mem, State.spareRow_mem]
  rfl

/-- An uncorrectable read is told to the owner, and to the stand whose region holds the line. -/
theorem State.uncorrected_cases (line : Nat) :
    ((s.uncorrectedNoted line).granuleStand (line / 2 ^ 24) = none ∧
      s.uncorrected line = (s.uncorrectedNoted line).eventOwner 0x0040 3 0xFF (evData [(8, 1, (hbmRow line).1), (16, 8, line * 64)])) ∨
    ∃ st, (s.uncorrectedNoted line).granuleStand (line / 2 ^ 24) = some st ∧
      s.uncorrected line = (s.uncorrectedNoted line).eventBoth 0x0040 3 st (evData [(8, 1, (hbmRow line).1), (16, 8, line * 64)])
        (evData [(8, 1, (hbmRow line).1), (16, 8, (s.uncorrectedNoted line).relative st (line * 64))]) := by
  have hfold : s.uncorrected line = match (s.uncorrectedNoted line).granuleStand (line / 2 ^ 24) with
    | some st => (s.uncorrectedNoted line).eventBoth 0x0040 3 st (evData [(8, 1, (hbmRow line).1), (16, 8, line * 64)])
        (evData [(8, 1, (hbmRow line).1), (16, 8, (s.uncorrectedNoted line).relative st (line * 64))])
    | none => (s.uncorrectedNoted line).eventOwner 0x0040 3 0xFF (evData [(8, 1, (hbmRow line).1), (16, 8, line * 64)]) := rfl
  rw [hfold]
  cases h : (s.uncorrectedNoted line).granuleStand (line / 2 ^ 24) with
  | none => exact .inl ⟨rfl, rfl⟩
  | some st => exact .inr ⟨st, rfl, rfl⟩

theorem State.granuleStand_lt {g st : Nat} (h : s.granuleStand g = some st) : st < 16 := by
  unfold State.granuleStand at h
  obtain ⟨p, hp, rfl⟩ := Option.map_eq_some_iff.mp h
  have hm := List.mem_of_find?_eq_some hp
  simp only [allRegions, List.mem_flatMap, List.mem_map, List.mem_range] at hm
  obtain ⟨st, hst, r, _, rfl⟩ := hm
  exact hst

theorem State.uncorrected_mailboxesOnly (line : Nat) : s.MailboxesOnly (s.uncorrected line) := by
  refine (State.MailboxesOnly.of_mem_eq (s.uncorrectedNoted_mem line)).trans ?_
  rcases s.uncorrected_cases line with ⟨_, h⟩ | ⟨st, hst, h⟩
  · rw [h]; exact (State.eventOwner_frame _ _ _ _ _).mem
  · rw [h]; exact (State.eventBoth_frame _ _ _ _ _ _ (State.granuleStand_lt _ hst)).mem

/-- The bytes of a line as its reader sees them under a key, no error met (R198, R200). -/
def State.lineText (s : State) (key line : Nat) : List Byte :=
  if (s.line line).key = key then s.bytes (line * 64) 64
  else (List.range 64).map fun i => Config.garble ((s.bytes (line * 64) 64).getD i 0#8) (s.line line).key key (line * 64 + i)

theorem State.length_lineText (key line : Nat) : (s.lineText key line).length = 64 := by
  unfold State.lineText
  split
  · exact Memory.length_readN _ _ _
  · rw [List.length_map, List.length_range]

/-- The port window of a line's stack, with a line read. -/
def State.linePort (s : State) (line : Nat) : State := s.portBytes (38 + (hbmPlace (line * 64)).1) 64

theorem State.linePort_mem (line : Nat) : (s.linePort line).mem = s.mem := by
  obtain ⟨o, ho⟩ := s.portBytes_withObs (38 + (hbmPlace (line * 64)).1) 64
  unfold State.linePort
  rw [ho]
  rfl

theorem State.portBytes_bytes (p n a k : Nat) : (s.portBytes p n).bytes a k = s.bytes a k := by
  obtain ⟨o, ho⟩ := s.portBytes_withObs p n
  rw [ho]
  rfl

variable {s}

theorem State.readLine_of_clean {line : Nat} (key : Nat) (h : (s.line line).err = .clean) :
    s.readLine key line = (s.lineText key line, false, s.linePort line) := by
  unfold State.readLine
  simp only [h, State.portBytes_bytes]
  rfl

theorem State.readLine_of_single {line sym : Nat} (key : Nat) (h : (s.line line).err = .single sym) :
    s.readLine key line = (s.lineText key line, false, (s.linePort line).corrected line sym) := by
  unfold State.readLine
  simp only [h, State.portBytes_bytes]
  rfl

theorem State.readLine_of_uncorrectable {line : Nat} (key : Nat) (h : (s.line line).err = .uncorrectable) :
    s.readLine key line = (List.replicate 64 0#8, true, (s.linePort line).uncorrected line) := by
  unfold State.readLine
  simp only [h]
  rfl

variable (s)

theorem State.length_readLine (key line : Nat) : (s.readLine key line).1.length = 64 := by
  cases h : (s.line line).err with
  | clean => rw [State.readLine_of_clean key h]; exact s.length_lineText key line
  | single sym => rw [State.readLine_of_single key h]; exact s.length_lineText key line
  | uncorrectable => rw [State.readLine_of_uncorrectable key h, List.length_replicate]

/-- Reading a line changes no memory but the mailboxes an uncorrectable one is told in. -/
theorem State.readLine_mailboxesOnly (key line : Nat) : s.MailboxesOnly (s.readLine key line).2.2 := by
  have hport := State.MailboxesOnly.of_mem_eq (s.linePort_mem line)
  cases h : (s.line line).err with
  | clean => rw [State.readLine_of_clean key h]; exact hport
  | single sym =>
    rw [State.readLine_of_single key h]
    exact hport.trans (.of_mem_eq (State.corrected_mem _ _ _))
  | uncorrectable =>
    rw [State.readLine_of_uncorrectable key h]
    exact hport.trans (State.uncorrected_mailboxesOnly _ _)

theorem State.readLines_mailboxesOnly (n : Nat) (s : State) (key line : Nat) : s.MailboxesOnly (State.readLines n s key line).2.2 := by
  induction n generalizing s line with
  | zero => exact .of_mem_eq rfl
  | succ n ih => exact (s.readLine_mailboxesOnly key line).trans (ih _ (line + 1))

theorem State.hbmRead_mailboxesOnly (key a n : Nat) : s.MailboxesOnly (s.hbmRead key a n).2.2 :=
  State.readLines_mailboxesOnly _ s key _

theorem length_splice_le (old new : List Byte) (o : Nat) (h : o + new.length ≤ old.length) : (splice old o new).length = old.length := by
  unfold splice
  rw [List.length_append, List.length_append, length_padTo, List.length_drop]
  omega

/-- Writing to a line changes no byte of memory beyond it but the mailboxes'. -/
theorem State.writeLine_beyond (key line o : Nat) (bs : List Byte) (hlen : o + bs.length ≤ 64) (x : Nat) (hlo : (line + 1) * 64 ≤ x)
    (hhi : x < mbxAt 0) : Memory.read (s.writeLine key line o bs).2.mem x = Memory.read s.mem x := by
  obtain ⟨ob, hob⟩ := s.portBytes_withObs (50 + (hbmPlace (line * 64)).1) 64
  have hlen' := (s.withObs ob).length_readLine key line
  have hread := (s.withObs ob).readLine_mailboxesOnly key line x (.inl hhi)
  unfold State.writeLine
  dsimp only
  rw [hob]
  split
  · next h => exact Memory.read_writeN_of_outside _ _ _ _ (by omega)
  · split
    · exact hread
    · refine (Memory.read_writeN_of_outside _ _ _ _ ?_).trans hread
      rw [length_splice_le _ _ _ (by omega)]
      omega

theorem State.writeLines_beyond (n : Nat) (s : State) (key a : Nat) (bs : List Byte) (x : Nat) (hlo : (a / 64 + n) * 64 ≤ x)
    (hhi : x < mbxAt 0) : Memory.read (State.writeLines n s key a bs).2.mem x = Memory.read s.mem x := by
  induction n generalizing s a bs with
  | zero => rfl
  | succ n ih =>
    have hmod := Nat.mod_lt a (show 0 < 64 by decide)
    have hnext : (a - a % 64 + 64) / 64 = a / 64 + 1 := by omega
    have hline := s.writeLine_beyond key (a / 64) (a % 64) (bs.take (64 - a % 64)) (by rw [List.length_take]; omega) x (by omega) hhi
    exact (ih _ (a - a % 64 + 64) (bs.drop (64 - a % 64)) (by rw [hnext]; omega)).trans hline

theorem State.hbmWrite_beyond (key a : Nat) (bs : List Byte) (h : 0 < bs.length) (x : Nat) (hlo : a + bs.length ≤ x / 64 * 64) (hhi : x < mbxAt 0) :
    Memory.read (s.hbmWrite key a bs).2.mem x = Memory.read s.mem x := by
  refine State.writeLines_beyond _ s key a bs x ?_ hhi
  unfold linesOf
  rw [if_neg (by omega)]
  omega

end Sys2Proof.Machine
end

section
/-! SUPPORT. What an access to HBM reads of memory: nothing but its own lines (R198 to R202). -/

namespace Sys2Proof.Machine

variable (s : State)

/-- `s` with another memory. -/
def State.withMem (s : State) (m : List Host.Cell) : State := { s with mem := m }

variable (m : List Host.Cell)

/-! ### What does not depend on memory

An operation that reads and writes no memory commutes with a change of memory: the lemmas push `withMem` outwards. -/

theorem State.withMem_rd (a : Nat) : (s.withMem m).rd a = s.rd a := rfl
theorem State.withMem_fld (f : Fld) : (s.withMem m).fld f = s.fld f := rfl
theorem State.withMem_flag (f : Fld) : (s.withMem m).flag f = s.flag f := rfl
theorem State.withMem_hw : (s.withMem m).hw = s.hw := rfl
theorem State.withMem_hbm : (s.withMem m).hbm = s.hbm := rfl
theorem State.withMem_pcie : (s.withMem m).pcie = s.pcie := rfl
theorem State.withMem_boot : (s.withMem m).boot = s.boot := rfl
theorem State.withMem_token : (s.withMem m).token = s.token := s.withMem_fld m _
theorem State.withMem_ring : (s.withMem m).ring = s.ring := s.withMem_fld m _
theorem State.withMem_smp2 (b : Nat) : (s.withMem m).smp2 b = s.smp2 b := congrArg (· == 2) (s.withMem_fld m _)
theorem State.withMem_frozen : (s.withMem m).frozen = s.frozen := s.withMem_flag m _
theorem State.withMem_hwActs : (s.withMem m).hwActs = s.hwActs := rfl

theorem State.withMem_setFld (f : Fld) (v : Nat) : (s.withMem m).setFld f v = (s.setFld f v).withMem m := rfl
theorem State.withMem_setFlag (f : Fld) (b : Bool) : (s.withMem m).setFlag f b = (s.setFlag f b).withMem m := rfl
theorem State.withMem_onHw (f : Hw → Hw) : (s.withMem m).onHw f = (s.onHw f).withMem m := rfl
theorem State.withMem_onHbm (f : Hbm → Hbm) : (s.withMem m).onHbm f = (s.onHbm f).withMem m := rfl
theorem State.withMem_onObs (f : Obs → Obs) : (s.withMem m).onObs f = (s.onObs f).withMem m := rfl
theorem State.withMem_onPcie (f : Pcie → Pcie) : (s.withMem m).onPcie f = (s.onPcie f).withMem m := rfl
theorem State.withMem_onI3c (f : I3c → I3c) : (s.withMem m).onI3c f = (s.onI3c f).withMem m := rfl
theorem State.withMem_emit (o : Out) : (s.withMem m).emit o = (s.emit o).withMem m := rfl
theorem State.withMem_store (a : Nat) (bs : List Byte) : (s.withMem m).store a bs = (s.store a bs).withMem (Memory.writeN m a bs) := rfl

theorem State.withMem_count (f : Fld) (n : Nat) : (s.withMem m).count f n = (s.count f n).withMem m := by
  unfold State.count
  rw [State.withMem_fld, State.withMem_setFld]

theorem State.withMem_countWrap (f : Fld) (n : Nat) : (s.withMem m).countWrap f n = (s.countWrap f n).withMem m := by
  unfold State.countWrap
  rw [State.withMem_fld, State.withMem_setFld]

theorem State.withMem_ite (c : Prop) [Decidable c] (t u : State) : (if c then t.withMem m else u.withMem m) = (if c then t else u).withMem m :=
  (apply_ite (State.withMem · m) c t u).symm

theorem State.withMem_portBytes (p n : Nat) : (s.withMem m).portBytes p n = (s.portBytes p n).withMem m := by
  simp only [State.portBytes, State.withMem_frozen, State.withMem_onObs, State.withMem_ite]

theorem State.withMem_msix (fn vector : Nat) : (s.withMem m).msix fn vector = (s.msix fn vector).withMem m := by
  unfold State.msix
  rw [State.withMem_pcie, State.withMem_emit, State.withMem_ite]

theorem State.withMem_ibi (cause : Nat) : (s.withMem m).ibi cause = (s.ibi cause).withMem m := by
  unfold State.ibi
  rw [State.withMem_flag, State.withMem_flag, State.withMem_onI3c, State.withMem_ite]

theorem State.withMem_wake (reason : Nat) : (s.withMem m).wake reason = (s.wake reason).withMem m := by
  unfold State.wake
  dsimp only
  rw [State.withMem_pcie, State.withMem_fld, State.withMem_flag, State.withMem_fld, State.withMem_setFld, State.withMem_ring, State.withMem_setFlag,
    State.withMem_setFld, State.withMem_onPcie, State.withMem_pcie, State.withMem_boot, State.withMem_setFlag, State.withMem_ite, State.withMem_ite,
    State.withMem_ite]

theorem State.withMem_evtSignal (b : Nat) : (s.withMem m).evtSignal b = (s.evtSignal b).withMem m := by
  unfold State.evtSignal
  dsimp only
  rw [State.withMem_ibi, State.withMem_flag, State.withMem_msix, State.withMem_msix, State.withMem_ite, State.withMem_ite, State.withMem_wake,
    State.withMem_ite]

theorem State.withMem_eventSlot (code severity stand logSeq b : Nat) (data : List Byte) :
    (s.withMem m).eventSlot b code severity stand logSeq data = s.eventSlot b code severity stand logSeq data := by
  unfold State.eventSlot
  rw [State.withMem_rd, State.withMem_fld, State.withMem_fld, State.withMem_token, State.withMem_smp2, State.withMem_hw]

/-- An event a full ring drops (R338). -/
def State.postDropped (s : State) (b : Nat) : State :=
  ((s.count (MBX_EVT_STATE_lost b) 1).setFlag MBX_EVENT_event_lost true).onHw fun h => { h with evtLost := h.evtLost.set false b true }

theorem State.withMem_postDropped (b : Nat) : (s.withMem m).postDropped b = (s.postDropped b).withMem m := by
  unfold State.postDropped
  rw [State.withMem_count, State.withMem_setFlag, State.withMem_onHw]

/-- An event slot written into its mailbox's ring, before it is signalled (R338). -/
def State.slotPosted (s : State) (b : Nat) (slot : List Byte) : State :=
  let seq := s.hw.evtSeq.get 0 b
  let s := s.onHw fun h => { h with evtSeq := h.evtSeq.set 0 b ((seq + 1) % 2 ^ 32), evtLost := h.evtLost.set false b false }
  let s := (s.store (mbxAt b + 0x3000 + 64 * (seq % evtSlots b)) slot).countWrap (MBX_EVT_STATE_tail b) 1
  if b = 17 then s.onI3c fun i => { i with evt := i.evt ++ [slot] } else s

theorem State.withMem_slotPosted (b : Nat) (slot : List Byte) : ∃ m', (s.withMem m).slotPosted b slot = (s.slotPosted b slot).withMem m' := by
  apply Exists.intro
  unfold State.slotPosted
  dsimp only
  rw [State.withMem_hw, State.withMem_onHw, State.withMem_store, State.withMem_countWrap, State.withMem_onI3c, State.withMem_ite]

theorem State.postTo_eq (code severity stand logSeq b : Nat) (data : List Byte) :
    s.postTo code severity stand logSeq b data =
      if decide (evtSlots b ≤ sub16 (s.fld (MBX_EVT_STATE_tail b)) (s.fld (MBX_EVT_HEAD_head b))) then s.postDropped b
      else (s.slotPosted b (s.eventSlot b code severity stand logSeq data)).evtSignal b := by
  unfold State.postTo State.postDropped State.slotPosted
  dsimp only

/-- Posting an event reads no memory: on another memory it does the same beside memory. -/
theorem State.withMem_postTo (code severity stand logSeq b : Nat) (data : List Byte) :
    ∃ m', (s.withMem m).postTo code severity stand logSeq b data = (s.postTo code severity stand logSeq b data).withMem m' := by
  obtain ⟨m', hm'⟩ := s.withMem_slotPosted m b (s.eventSlot b code severity stand logSeq data)
  rw [State.postTo_eq, State.postTo_eq, State.withMem_fld, State.withMem_fld, State.withMem_eventSlot, hm', State.withMem_evtSignal]
  by_cases hf : decide (evtSlots b ≤ sub16 (s.fld (MBX_EVT_STATE_tail b)) (s.fld (MBX_EVT_HEAD_head b))) = true
  · exact ⟨m, by rw [if_pos hf, if_pos hf, State.withMem_postDropped]⟩
  · exact ⟨m', by rw [if_neg hf, if_neg hf]⟩

theorem State.withMem_forEach {α : Type} (l : List α) (f : α → State → State)
    (h : ∀ x t m, ∃ m', f x (t.withMem m) = (f x t).withMem m') (s : State) (m : List Host.Cell) :
    ∃ m', (s.withMem m).forEach l f = (s.forEach l f).withMem m' := by
  unfold State.forEach
  induction l generalizing s m with
  | nil => exact ⟨m, rfl⟩
  | cons x l ih =>
    obtain ⟨m', hm'⟩ := h x s m
    rw [List.foldl_cons, hm']
    exact ih (f x s) m'

theorem State.withMem_logKind (kind code severity stand : Nat) (data : List Byte) :
    (s.withMem m).logKind kind code severity stand data = (s.logKind kind code severity stand data).withMem m := by
  have hcal : (s.withMem m).calendarUs = s.calendarUs := rfl
  have href : (s.withMem m).refNow = s.refNow := rfl
  unfold State.logKind
  dsimp only
  rw [hcal, href, State.withMem_rd, State.withMem_fld, State.withMem_fld, State.withMem_flag, State.withMem_token, State.withMem_onHw,
    State.withMem_setFld, State.withMem_countWrap]

theorem State.withMem_postNow (e : EventReq) : ∃ m', (s.withMem m).postNow e = (s.postNow e).withMem m' := by
  unfold State.postNow State.log
  rw [State.withMem_fld, State.withMem_logKind]
  exact State.withMem_forEach e.targets _ (fun x t m => t.withMem_postTo m _ _ _ _ _ _) _ _

theorem State.withMem_event (e : EventReq) : ∃ m', (s.withMem m).event e = (s.event e).withMem m' := by
  unfold State.event
  rw [State.withMem_hwActs]
  by_cases h : s.hwActs = true
  · rw [if_pos h, if_pos h]
    exact s.withMem_postNow m e
  · rw [if_neg h, if_neg h]
    exact ⟨m, s.withMem_onHw m _⟩

theorem State.withMem_bankExhausted (row : Nat × Nat) : (s.withMem m).bankExhausted row = s.bankExhausted row := by
  unfold State.bankExhausted
  rw [State.withMem_hbm, State.withMem_fld]

theorem State.withMem_spareRow (row : Nat × Nat) : (s.withMem m).spareRow row = (s.spareRow row).withMem m := by
  unfold State.spareRow
  dsimp only
  rw [State.withMem_bankExhausted, State.withMem_hbm, State.withMem_setFlag, State.withMem_onHbm, State.withMem_count, State.withMem_fld,
    State.withMem_setFld, State.withMem_ite, State.withMem_ite]

theorem State.withMem_markChannel (row : Nat × Nat) : (s.withMem m).markChannel row = (s.markChannel row).withMem m := by
  unfold State.markChannel
  dsimp only
  rw [State.withMem_hbm, State.withMem_flag, State.withMem_flag, State.withMem_setFlag, State.withMem_setFld, State.withMem_ite, State.withMem_ite]

theorem State.withMem_correctedNoted (line symbol : Nat) :
    (s.withMem m).correctedNoted line symbol = (s.correctedNoted line symbol).withMem m := by
  unfold State.correctedNoted
  dsimp only
  rw [State.withMem_count, State.withMem_setFlag, State.withMem_setFlag, State.withMem_setFld, State.withMem_setFld, State.withMem_hbm,
    State.withMem_onHbm]

theorem State.withMem_corrected (line symbol : Nat) : (s.withMem m).corrected line symbol = (s.corrected line symbol).withMem m := by
  rw [State.corrected_eq, State.corrected_eq, State.withMem_correctedNoted, State.withMem_fld, State.withMem_spareRow,
    State.withMem_markChannel, State.withMem_ite]
  rfl

theorem State.withMem_uncorrectedNoted (line : Nat) : (s.withMem m).uncorrectedNoted line = (s.uncorrectedNoted line).withMem m := by
  unfold State.uncorrectedNoted
  dsimp only
  rw [State.withMem_count, State.withMem_setFlag, State.withMem_setFlag, State.withMem_setFld, State.withMem_setFld, State.withMem_onHbm,
    State.withMem_spareRow, State.withMem_markChannel]

theorem State.withMem_granuleStand (g : Nat) : (s.withMem m).granuleStand g = s.granuleStand g := rfl

theorem State.withMem_relative (st a : Nat) : (s.withMem m).relative st a = s.relative st a := rfl

/-- An uncorrectable read is told alike on any memory. -/
theorem State.withMem_uncorrected (line : Nat) : ∃ m', (s.withMem m).uncorrected line = (s.uncorrected line).withMem m' := by
  have hu := (s.withMem m).uncorrected_cases line
  rw [State.withMem_uncorrectedNoted, State.withMem_granuleStand] at hu
  rcases s.uncorrected_cases line with ⟨h, he⟩ | ⟨st, h, he⟩ <;> rw [h] at hu
  · obtain ⟨_, hu⟩ | ⟨st', h', _⟩ := hu
    · rw [hu, he]
      exact State.withMem_event _ _ _
    · cases h'
  · obtain ⟨h', _⟩ | ⟨st', h', hu⟩ := hu
    · cases h'
    · obtain rfl := Option.some.inj h'
      rw [hu, he, State.withMem_relative]
      exact State.withMem_event _ _ _

/-! ### What a read of HBM reads of memory -/

theorem State.withMem_lineText (key line : Nat) (h : ∀ x, line * 64 ≤ x → x < (line + 1) * 64 → Memory.read m x = Memory.read s.mem x) :
    (s.withMem m).lineText key line = s.lineText key line := by
  have hbytes : (s.withMem m).bytes (line * 64) 64 = s.bytes (line * 64) 64 := Memory.readN_congr fun x h1 h2 => h x h1 (by omega)
  unfold State.lineText
  rw [hbytes]
  rfl

/-- A line reads alike on a memory that holds the same bytes of it. -/
theorem State.withMem_readLine (key line : Nat) (h : ∀ x, line * 64 ≤ x → x < (line + 1) * 64 → Memory.read m x = Memory.read s.mem x) :
    ∃ m', (s.withMem m).readLine key line = ((s.readLine key line).1, (s.readLine key line).2.1, (s.readLine key line).2.2.withMem m') := by
  have htext := s.withMem_lineText m key line h
  have hport : (s.withMem m).linePort line = (s.linePort line).withMem m := s.withMem_portBytes m _ _
  cases he : (s.line line).err with
  | clean =>
    have he' : ((s.withMem m).line line).err = .clean := he
    exact ⟨m, by rw [State.readLine_of_clean key he, State.readLine_of_clean key he', htext, hport]⟩
  | single sym =>
    have he' : ((s.withMem m).line line).err = .single sym := he
    exact ⟨m, by rw [State.readLine_of_single key he, State.readLine_of_single key he', htext, hport, State.withMem_corrected]⟩
  | uncorrectable =>
    have he' : ((s.withMem m).line line).err = .uncorrectable := he
    obtain ⟨m', hm'⟩ := (s.linePort line).withMem_uncorrected m line
    exact ⟨m', by rw [State.readLine_of_uncorrectable key he, State.readLine_of_uncorrectable key he', hport, hm']⟩

theorem State.withMem_readLines (n : Nat) (s : State) (m : List Host.Cell) (key line : Nat) (htop : (line + n) * 64 ≤ mbxAt 0)
    (h : ∀ x, line * 64 ≤ x → x < (line + n) * 64 → Memory.read m x = Memory.read s.mem x) :
    ∃ m', State.readLines n (s.withMem m) key line =
      ((State.readLines n s key line).1, (State.readLines n s key line).2.1, (State.readLines n s key line).2.2.withMem m') := by
  induction n generalizing s m line with
  | zero => exact ⟨m, rfl⟩
  | succ n ih =>
    obtain ⟨m₁, h₁⟩ := s.withMem_readLine m key line fun x hx hx' => h x hx (by omega)
    have hkeep : ∀ x, x < mbxAt 0 → Memory.read m₁ x = Memory.read m x := fun x hx => by
      have hu := (s.withMem m).readLine_mailboxesOnly key line x (.inl hx)
      rw [h₁] at hu
      exact hu
    obtain ⟨m₂, h₂⟩ := ih (s.readLine key line).2.2 m₁ (line + 1) (by omega) fun x hx hx' => by
      rw [hkeep x (by omega), s.readLine_mailboxesOnly key line x (.inl (by omega))]
      exact h x (by omega) (by omega)
    refine ⟨m₂, ?_⟩
    rw [State.readLines, h₁]
    dsimp only
    rw [h₂]
    rfl

theorem State.withMem_hbmRead (key a n : Nat) (hn : 0 < n) (htop : a + n ≤ 2 ^ 40)
    (h : ∀ x, x < 2 ^ 40 → Memory.read m x = Memory.read s.mem x) :
    ∃ m', (s.withMem m).hbmRead key a n = ((s.hbmRead key a n).1, (s.hbmRead key a n).2.1, (s.hbmRead key a n).2.2.withMem m') := by
  have hlast : (a / 64 + linesOf a n) * 64 ≤ 2 ^ 40 := by
    unfold linesOf
    rw [if_neg (by omega)]
    omega
  obtain ⟨m', hm'⟩ := State.withMem_readLines (linesOf a n) s m key (a / 64) (by unfold mbxAt; omega) fun x _ hx => h x (by omega)
  refine ⟨m', ?_⟩
  unfold State.hbmRead
  rw [hm']

end Sys2Proof.Machine
end

section
/-! SUPPORT. The accesses of PF0 through BAR0 (R11, R97, R99, R184), clause by clause. -/

namespace Sys2Proof.Machine

variable (s : State)

/-! ### PF0's accesses to HBM (R184, R198) -/

theorem State.upset_nil : s.upset [] = s := rfl

/-- An access of PF0 is the access to the map, after its bytes are counted in a port window. -/
theorem exec_pf0Bar0Access {a : Nat} (op : BarOp) (hp : s.powered = true) (hd : s.pcie.d3 = false) (ha : a < 2 ^ 40) :
    ∃ o, exec (.pf0Bar0Access a op []) s = .next ((s.withObs o).pf0Access a op) := by
  obtain ⟨o, ho⟩ := s.pcieBytes_withObs op
  refine ⟨o, ?_⟩
  show s.when (s.powered && !s.pcie.d3 && decide (a < 2 ^ 40)) (((s.upset []).pcieBytes op).pf0Access a op) = _
  rw [State.when_next, if_pos (by rw [hp, hd, decide_eq_true ha]; rfl), s.upset_nil, ho]

theorem State.pf0Access_hbm {a : Nat} (op : BarOp) (hn : 0 < barSize op) (h : a + barSize op ≤ hbmTop) : s.pf0Access a op = s.pf0Hbm a op := by
  unfold State.pf0Access
  rw [if_neg (by omega), if_pos h]

theorem State.pf0Access_leaf {off : Nat} (op : BarOp) (hn : 0 < barSize op) (h : off + barSize op ≤ 0x48000000) :
    s.pf0Access (0xA000000000 + off) op = s.pf0Leaf off op := by
  unfold State.pf0Access
  rw [if_neg (by omega), if_neg (by unfold hbmTop; omega), if_pos (by omega), Nat.add_sub_cancel_left]

theorem State.pf0Access_csr {off : Nat} (op : BarOp) (hn : 0 < barSize op) (h : off + barSize op ≤ 0x1000000) :
    s.pf0Access (0xC000000000 + off) op = s.pf0Csr off op := by
  unfold State.pf0Access
  rw [if_neg (by omega), if_neg (by unfold hbmTop; omega), if_neg (by omega), if_neg (by omega), if_pos (by omega), Nat.add_sub_cancel_left]

/-- Bytes written as whole lines read back, and nothing else has changed. -/
theorem State.hbmWrite_whole_frame (key a : Nat) (bs : List Byte) (ha : a % 64 = 0) (hn : bs.length % 64 = 0) :
    let t := (s.hbmWrite key a bs).2
    t.bytes a bs.length = bs ∧ s.SameBytesBut t a bs.length ∧ t.out = s.out ∧ s.SameRegsBut t [] := by
  obtain ⟨honly, hmem⟩ := s.hbmWrite_whole key a bs ha hn
  refine ⟨?_, fun x hx => ?_, by rw [honly], fun r _ => by rw [honly]; rfl⟩
  · unfold State.bytes
    rw [hmem]
    exact s.bytes_store a bs
  · rw [hmem]
    exact Memory.read_writeN_of_outside _ _ _ _ hx

theorem pf0Bar0Access_ends_write {a : Nat} {bs : List Byte} (hp : s.powered = true) (hd : s.pcie.d3 = false) (hn : 0 < bs.length)
    (htop : a + bs.length ≤ hbmTop) (hfree : s.refusedGranule a bs.length = none) (ha : a % 64 = 0) (hlen : bs.length % 64 = 0) :
    Ends (.pf0Bar0Access a (.write bs) []) s fun t =>
      t.bytes a bs.length = bs ∧ s.SameBytesBut t a bs.length ∧ t.out = s.out ∧ s.SameRegsBut t [] := by
  obtain ⟨o, he⟩ := exec_pf0Bar0Access s (.write bs) hp hd (show a < 2 ^ 40 by unfold hbmTop at htop; omega)
  refine ⟨_, he, ?_⟩
  have hacc : (s.withObs o).pf0Hbm a (.write bs) = ((s.withObs o).hbmWrite ((s.withObs o).keyAt a) a bs).2 := by
    have hfree' : (s.withObs o).refusedGranule a (barSize (.write bs)) = none := hfree
    unfold State.pf0Hbm
    rw [hfree']
  rw [State.pf0Access_hbm _ (.write bs) hn htop, hacc]
  exact (s.withObs o).hbmWrite_whole_frame _ a bs ha hlen

theorem pf0Bar0Access_ends_read {a n : Nat} (hp : s.powered = true) (hd : s.pcie.d3 = false) (hn : 0 < n) (htop : a + n ≤ hbmTop)
    (hfree : s.refusedGranule a n = none)
    (hclean : ∀ m, a / 64 ≤ m → m ≤ (a + n - 1) / 64 → s.line m = { key := s.keyAt a, err := .clean }) :
    Ends (.pf0Bar0Access a (.read n) []) s fun t => t.out = .data (s.bytes a n) false :: s.out ∧ t.mem = s.mem ∧ s.SameRegsBut t [] := by
  obtain ⟨o, he⟩ := exec_pf0Bar0Access s (.read n) hp hd (show a < 2 ^ 40 by unfold hbmTop at htop; omega)
  obtain ⟨o', hread⟩ := (s.withObs o).hbmRead_clean (s.keyAt a) a n hn hclean
  refine ⟨_, he, ?_⟩
  have hacc : (s.withObs o).pf0Hbm a (.read n) = ((s.withObs o).withObs o').emit (.data ((s.withObs o).bytes a n) false) := by
    have hfree' : (s.withObs o).refusedGranule a (barSize (.read n)) = none := hfree
    have hkey : (s.withObs o).keyAt a = s.keyAt a := rfl
    unfold State.pf0Hbm
    rw [hfree']
    dsimp only
    rw [hkey, hread]
  rw [State.pf0Access_hbm _ (.read n) hn htop, hacc]
  exact ⟨rfl, rfl, fun _ _ => rfl⟩

theorem State.refusedGranule_le {a n g : Nat} (h : s.refusedGranule a n = some g) : g ≤ (a + n - 1) / 2 ^ 30 := by
  have hm := List.mem_of_find?_eq_some h
  simp only [List.mem_map, List.mem_range] at hm
  obtain ⟨i, hi, rfl⟩ := hm
  omega

/-- A granule refused is recorded and counted (R184). -/
theorem State.hbmRefused_frame (g : Nat) (hg : g < 1024) :
    (s.hbmRefused g).flag HBM_EVENT_window_refused = true ∧ (s.hbmRefused g).fld HBM_WINDOW_REFUSED_last_granule = g ∧
    s.OnlyRegs (s.hbmRefused g) [HBM_WINDOW_REFUSED, HBM_EVENT] := by
  unfold State.hbmRefused
  refine ⟨State.flag_setFlag_self _ _ _ rfl, ?_, ?_⟩
  · rw [State.fld_setFlag_apart _ HBM_EVENT_window_refused HBM_WINDOW_REFUSED_last_granule _ rfl rfl, State.fld_setFld_self _ _ _ rfl]
    exact Nat.mod_eq_of_lt hg
  · have hw : ∀ a ∈ [HBM_WINDOW_REFUSED], a ∈ [HBM_WINDOW_REFUSED, HBM_EVENT] := by simp
    have he : ∀ a ∈ [HBM_EVENT], a ∈ [HBM_WINDOW_REFUSED, HBM_EVENT] := by simp
    exact (((s.setFld_onlyRegs HBM_WINDOW_REFUSED_count _).mono hw).trans ((State.setFld_onlyRegs _ HBM_WINDOW_REFUSED_last_granule _).mono hw)).trans
      ((State.setFld_onlyRegs _ HBM_EVENT_window_refused _).mono he)

theorem pf0Bar0Access_ends_refused {a n g : Nat} (hp : s.powered = true) (hd : s.pcie.d3 = false) (hn : 0 < n) (htop : a + n ≤ hbmTop)
    (hg : s.refusedGranule a n = some g) :
    Ends (.pf0Bar0Access a (.read n) []) s fun t =>
      t.out = .data (List.replicate n 0#8) false :: s.out ∧ t.flag HBM_EVENT_window_refused = true ∧
      t.fld HBM_WINDOW_REFUSED_last_granule = g ∧ t.mem = s.mem ∧ s.SameRegsBut t [HBM_WINDOW_REFUSED, HBM_EVENT] := by
  have htop' : a + n ≤ 576 * 2 ^ 30 := htop
  have hle := s.refusedGranule_le hg
  obtain ⟨o, he⟩ := exec_pf0Bar0Access s (.read n) hp hd (show a < 2 ^ 40 by omega)
  refine ⟨_, he, ?_⟩
  have hacc : (s.withObs o).pf0Hbm a (.read n) = ((s.withObs o).hbmRefused g).emit (.data (List.replicate n 0#8) false) := by
    have hg' : (s.withObs o).refusedGranule a (barSize (.read n)) = some g := hg
    unfold State.pf0Hbm
    rw [hg']
    rfl
  obtain ⟨hflag, hlast, honly⟩ := (s.withObs o).hbmRefused_frame g (by omega)
  rw [State.pf0Access_hbm _ (.read n) hn htop, hacc]
  refine ⟨?_, hflag, hlast, ?_, honly.2⟩
  · show _ :: ((s.withObs o).hbmRefused g).out = _
    rw [honly.1]; rfl
  · show ((s.withObs o).hbmRefused g).mem = _
    rw [honly.1]; rfl

/-! ### PF0's reads of CSRs (R11) -/

theorem drop_take_leBytes (n v : Nat) : ((leBytes n v).drop 0).take n = leBytes n v := by
  rw [List.drop_zero, List.take_of_length_le (Nat.le_of_eq (length_leBytes n v))]

theorem State.readAccess_word {a : Nat} (h : a % 8 = 0) : s.readAccess a 8 = leBytes 8 (s.readReg a).toNat := by
  unfold State.readAccess
  rw [if_pos (.inl ⟨rfl, h⟩), h, Nat.sub_zero, drop_take_leBytes]

theorem State.withObs_regAt (o : Obs) (a : Nat) : (s.withObs o).regAt a = s.regAt a := by
  have hni : (s.withObs o).ni = s.ni := rfl
  have hrd (b : Nat) : (s.withObs o).rd b = s.rd b := rfl
  have hcong (n : Nat) : (s.withObs o).congWord n = s.congWord n := by
    unfold State.congWord
    rw [hrd, hni]
  unfold State.regAt
  simp only [hni, hrd, hcong]

/-- No register shows what a port window has counted so far. -/
theorem State.withObs_readReg (o : Obs) (a : Nat) : (s.withObs o).readReg a = s.readReg a := by
  have hserved (b : Nat) : (s.withObs o).mbxServed b = s.mbxServed b := rfl
  have hword (b : Nat) : (s.withObs o).wordAt b = s.wordAt b := rfl
  have hflag : (s.withObs o).flag FLASH_STATUS_recovery = s.flag FLASH_STATUS_recovery := rfl
  unfold State.readReg
  simp only [hserved, hword, hflag, State.withObs_regAt]

theorem pf0Bar0Access_ends_csr {off : Nat} (hp : s.powered = true) (hd : s.pcie.d3 = false) (hoff : off < 0x1000000) (h8 : off % 8 = 0) :
    Ends (.pf0Bar0Access (0xC000000000 + off) (.read 8) []) s fun t =>
      t.out = .data (leBytes 8 (s.readReg off).toNat) false :: s.out ∧ t.mem = s.mem ∧ s.SameRegsBut t [] := by
  obtain ⟨o, he⟩ := exec_pf0Bar0Access s (.read 8) hp hd (show 0xC000000000 + off < 2 ^ 40 by omega)
  refine ⟨_, he, ?_⟩
  have hacc : (s.withObs o).pf0Csr off (.read 8) = (s.withObs o).emit (.data (leBytes 8 (s.readReg off).toNat) false) := by
    unfold State.pf0Csr
    dsimp only
    rw [State.readAccess_word _ h8, State.withObs_readReg]
  rw [State.pf0Access_csr _ (.read 8) (by decide) (show off + 8 ≤ 0x1000000 by omega), hacc]
  exact ⟨rfl, rfl, fun _ _ => rfl⟩

/-! ### PF0's accesses to leaf SRAM (R97, R99) -/

/-- The leaf an access is refused for, where one of its leaves is assigned to a stand. -/
theorem State.refusedLeaf_isSome_iff {off n : Nat} (hn : 0 < n) :
    (s.refusedLeaf off n).isSome = true ↔
      ∃ l, off / 2 ^ 18 ≤ l ∧ l ≤ (off + n - 1) / 2 ^ 18 ∧ (s.twigStand (l / 32)).isSome = true := by
  unfold State.refusedLeaf
  rw [List.find?_isSome]
  simp only [List.mem_map, List.mem_range]
  constructor
  · rintro ⟨l, ⟨i, hi, rfl⟩, h⟩
    exact ⟨_, by omega, by omega, h⟩
  · rintro ⟨l, h1, h2, h⟩
    exact ⟨l, ⟨l - off / 2 ^ 18, by omega, by omega⟩, h⟩

/-- What the refusal of an access to leaf `l` counts and records. -/
def State.leafRefused (s : State) (l : Nat) : State := (s.count TWIG_WINDOW_REFUSED_count 1).setFld TWIG_WINDOW_REFUSED_last_leaf l

theorem State.leafRefused_frame (l : Nat) :
    (s.leafRefused l).fld TWIG_WINDOW_REFUSED_count = min TWIG_WINDOW_REFUSED_count.max (s.fld TWIG_WINDOW_REFUSED_count + 1) ∧
    s.OnlyRegs (s.leafRefused l) [TWIG_WINDOW_REFUSED] := by
  unfold State.leafRefused
  refine ⟨?_, (s.setFld_onlyRegs TWIG_WINDOW_REFUSED_count _).trans (State.setFld_onlyRegs _ TWIG_WINDOW_REFUSED_last_leaf l)⟩
  rw [State.fld_setFld_apart _ TWIG_WINDOW_REFUSED_last_leaf TWIG_WINDOW_REFUSED_count _ rfl rfl, State.fld_count_self _ _ _ rfl]

theorem State.pf0Leaf_refused {off l : Nat} {op : BarOp} (h : s.refusedLeaf off (barSize op) = some l) :
    s.pf0Leaf off op = (s.leafRefused l).zeroAnswer op := by
  unfold State.pf0Leaf
  rw [h]
  rfl

theorem pf0Bar0Access_ends_leafRefused {off : Nat} {op : BarOp} (hp : s.powered = true) (hd : s.pcie.d3 = false) (hn : 0 < barSize op)
    (hoff : off + barSize op ≤ 0x48000000) (h : (s.refusedLeaf off (barSize op)).isSome = true) :
    Ends (.pf0Bar0Access (0xA000000000 + off) op []) s fun t =>
      t.out = (s.zeroAnswer op).out ∧ t.mem = s.mem ∧
      t.fld TWIG_WINDOW_REFUSED_count = min TWIG_WINDOW_REFUSED_count.max (s.fld TWIG_WINDOW_REFUSED_count + 1) ∧
      s.SameRegsBut t [TWIG_WINDOW_REFUSED] := by
  obtain ⟨l, hl⟩ := Option.isSome_iff_exists.mp h
  obtain ⟨o, he⟩ := exec_pf0Bar0Access s op hp hd (show 0xA000000000 + off < 2 ^ 40 by omega)
  obtain ⟨hcount, honly, hregs⟩ := (s.withObs o).leafRefused_frame l
  refine ⟨_, he, ?_⟩
  rw [State.pf0Access_leaf _ op hn hoff, State.pf0Leaf_refused _ (show (s.withObs o).refusedLeaf off (barSize op) = some l from hl)]
  generalize (s.withObs o).leafRefused l = t at hcount honly hregs
  have hout : t.out = s.out := by rw [honly]; rfl
  have hmem : t.mem = s.mem := by rw [honly]; rfl
  cases op with
  | read n => exact ⟨congrArg (_ :: ·) hout, hmem, hcount, hregs⟩
  | write bs => exact ⟨hout, hmem, hcount, hregs⟩

/-- A step over a list commutes with a change every element's step commutes with. -/
theorem State.forEach_comm {α : Type} (g : State → State) (l : List α) (f : α → State → State) (h : ∀ x t, f x (g t) = g (f x t)) (s : State) :
    (g s).forEach l f = g (s.forEach l f) := by
  unfold State.forEach
  induction l generalizing s with
  | nil => rfl
  | cons x l ih => rw [List.foldl_cons, h, ih, List.foldl_cons]

theorem State.withObs_windowWrite (o : Obs) (off : Nat) (bs : List Byte) :
    (s.withObs o).windowWrite off bs = (s.windowWrite off bs).withObs o := by
  refine State.forEach_comm (State.withObs · o) _ _ (fun i t => ?_) s
  have hplace : (t.withObs o).windowPlace (off + i) = t.windowPlace (off + i) := rfl
  rw [hplace]
  cases t.windowPlace (off + i) <;> rfl

/-- A write through the leaf window changes memory only. -/
theorem State.windowWrite_only (off : Nat) (bs : List Byte) : s.windowWrite off bs = s.withMem (s.windowWrite off bs).mem := by
  refine State.forEach_keeps (fun t => t = s.withMem t.mem) _ _ (fun i t ht => ?_) s rfl
  split
  · conv => lhs; rw [ht]
    rfl
  · exact ht

theorem pf0Bar0Access_ends_leafRead {off n : Nat} (hp : s.powered = true) (hd : s.pcie.d3 = false) (hn : 0 < n) (hoff : off + n ≤ 0x48000000)
    (h : s.refusedLeaf off n = none) :
    Ends (.pf0Bar0Access (0xA000000000 + off) (.read n) []) s fun t =>
      t.out = .data (s.windowRead off n) false :: s.out ∧ t.mem = s.mem ∧ s.SameRegsBut t [] := by
  obtain ⟨o, he⟩ := exec_pf0Bar0Access s (.read n) hp hd (show 0xA000000000 + off < 2 ^ 40 by omega)
  refine ⟨_, he, ?_⟩
  have hacc : (s.withObs o).pf0Leaf off (.read n) = (s.withObs o).emit (.data (s.windowRead off n) false) := by
    unfold State.pf0Leaf
    rw [show (s.withObs o).refusedLeaf off (barSize (.read n)) = none from h]
    rfl
  rw [State.pf0Access_leaf _ (.read n) hn hoff, hacc]
  exact ⟨rfl, rfl, fun _ _ => rfl⟩

theorem pf0Bar0Access_ends_leafWrite {off : Nat} {bs : List Byte} (hp : s.powered = true) (hd : s.pcie.d3 = false) (hn : 0 < bs.length)
    (hoff : off + bs.length ≤ 0x48000000) (h : s.refusedLeaf off bs.length = none) :
    Ends (.pf0Bar0Access (0xA000000000 + off) (.write bs) []) s fun t =>
      t.mem = (s.windowWrite off bs).mem ∧ t.out = s.out ∧ s.SameRegsBut t [] := by
  obtain ⟨o, he⟩ := exec_pf0Bar0Access s (.write bs) hp hd (show 0xA000000000 + off < 2 ^ 40 by omega)
  refine ⟨_, he, ?_⟩
  have hacc : (s.withObs o).pf0Leaf off (.write bs) = (s.withObs o).windowWrite off bs := by
    unfold State.pf0Leaf
    rw [show (s.withObs o).refusedLeaf off (barSize (.write bs)) = none from h]
  rw [State.pf0Access_leaf _ (.write bs) hn hoff, hacc, State.withObs_windowWrite, State.windowWrite_only]
  exact ⟨rfl, rfl, fun _ _ => rfl⟩

end Sys2Proof.Machine
end

section
/-! SUPPORT. The accesses of a VF through BAR0 (R190, R193), clause by clause, and the statement on both. -/

namespace Sys2Proof.Machine

variable (s : State)

/-! ### A stand's addresses (R190) -/

/-- Bytes in bounds lie in one piece from their physical address on, below 1 TiB. -/
theorem State.inBounds_translate {st a n : Nat} (hn : 0 < n) (h : s.inBounds st a n = true) :
    ∃ p, s.translate st a = some p ∧ p + n ≤ 2 ^ 40 := by
  simp only [State.inBounds, Bool.and_eq_true, Bool.or_eq_true, beq_iff_eq, Nat.ne_of_gt hn, false_or] at h
  obtain ⟨hfirst, hlast, hregion⟩ := h
  unfold State.translate at hfirst hlast ⊢
  rw [← hregion] at hlast
  generalize s.liveRd (HBM_REGION st (bitsOf a 41 40)) = w at hfirst hlast ⊢
  dsimp only at hfirst hlast ⊢
  have hlimit : bitsOf w.toNat 25 16 < 2 ^ 10 := Nat.mod_lt _ (by decide)
  generalize bitsOf w.toNat 25 16 = limit at hfirst hlast hlimit ⊢
  generalize bitsOf w.toNat 9 0 = base at hfirst hlast ⊢
  split at hlast
  case isFalse => simp at hlast
  case isTrue hlastIn =>
    split at hfirst
    case isFalse => simp at hfirst
    case isTrue hfirstIn =>
      rw [if_pos hfirstIn]
      obtain ⟨ha, _, hle, _⟩ := hfirstIn
      obtain ⟨ha', _, _, hin⟩ := hlastIn
      refine ⟨_, rfl, ?_⟩
      simp only [bitsOf, Nat.shiftRight_eq_div_pow] at hregion hin ⊢
      omega

/-! ### What a VF's access does -/

theorem State.vfAccess_idle {st a : Nat} (op : BarOp) (h : s.standState st ≠ 2 ∨ barSize op = 0) : s.vfAccess st a op = s.zeroAnswer op := by
  unfold State.vfAccess
  rw [if_pos h]

theorem State.vfAccess_outside {st a : Nat} (op : BarOp) (hact : s.standState st = 2) (hn : 0 < barSize op)
    (h : s.inBounds st a (barSize op) = false) : s.vfAccess st a op = (s.standFault st 1).zeroAnswer op := by
  unfold State.vfAccess
  rw [if_neg (by simp [hact, Nat.ne_of_gt hn])]
  cases op with
  | read n =>
    have hnone : s.standRead st a n = none := if_neg (by rw [show s.inBounds st a n = false from h]; exact Bool.false_ne_true)
    dsimp only
    rw [hnone]
  | write bs =>
    have hnone : s.standWrite st a bs = none := if_neg (by rw [show s.inBounds st a bs.length = false from h]; exact Bool.false_ne_true)
    dsimp only
    rw [hnone]
    rfl

theorem State.vfAccess_read {st a n p : Nat} (hact : s.standState st = 2) (hn : 0 < n) (h : s.inBounds st a n = true)
    (hp : s.translate st a = some p) :
    s.vfAccess st a (.read n) = (s.hbmRead (s.keyAt p) p n).2.2.emit (.data (s.hbmRead (s.keyAt p) p n).1 (s.hbmRead (s.keyAt p) p n).2.1) := by
  have hread : s.standRead st a n = some (s.hbmRead (s.keyAt p) p n) := by
    unfold State.standRead
    rw [if_pos h, hp]
    rfl
  unfold State.vfAccess
  rw [if_neg (by simp [hact, barSize, Nat.ne_of_gt hn])]
  dsimp only
  rw [hread]

theorem State.vfAccess_write {st a p : Nat} {bs : List Byte} (hact : s.standState st = 2) (hn : 0 < bs.length)
    (h : s.inBounds st a bs.length = true) (hp : s.translate st a = some p) : s.vfAccess st a (.write bs) = (s.hbmWrite (s.keyAt p) p bs).2 := by
  have hwrite : s.standWrite st a bs = some (s.hbmWrite (s.keyAt p) p bs) := by
    unfold State.standWrite
    rw [if_pos h, hp]
    rfl
  unfold State.vfAccess
  rw [if_neg (by exact fun h => h.elim (· hact) (Nat.ne_of_gt hn))]
  dsimp only
  rw [hwrite]

theorem State.standCtr_onlyRegs (st i n : Nat) : s.OnlyRegs (s.standCtr st i n) [PERF_STAND_CTR st i] := by
  unfold State.standCtr
  split
  · exact .refl s _
  · exact s.bump_onlyRegs _ _

/-- A fault of a stand counts in its own registers (R193, R319). -/
theorem State.standFault_onlyRegs (st cause : Nat) : s.OnlyRegs (s.standFault st cause) [STAND_FAULT st, PERF_STAND_CTR st 15] := by
  have hf : ∀ a ∈ [STAND_FAULT st], a ∈ [STAND_FAULT st, PERF_STAND_CTR st 15] := by simp
  have hc : ∀ a ∈ [PERF_STAND_CTR st 15], a ∈ [STAND_FAULT st, PERF_STAND_CTR st 15] := by simp
  exact (((s.setFld_onlyRegs (STAND_FAULT_fault_count st) _).mono hf).trans ((State.setFld_onlyRegs _ (STAND_FAULT_last_cause st) cause).mono hf)).trans
    ((State.standCtr_onlyRegs _ st 15 1).mono hc)

theorem State.standFault_fields {st cause : Nat} (hst : st < 16) (hc : cause < 256) :
    (s.standFault st cause).fld (STAND_FAULT_last_cause st) = cause ∧
    (s.standFault st cause).fld (STAND_FAULT_fault_count st) = min (STAND_FAULT_fault_count st).max (s.fld (STAND_FAULT_fault_count st) + 1) := by
  have hrd (t : State) : (t.standCtr st 15 1).rd (STAND_FAULT st) = t.rd (STAND_FAULT st) := by
    refine (t.standCtr_onlyRegs st 15 1).2 _ ?_
    rw [List.mem_singleton]
    unfold STAND_FAULT PERF_STAND_CTR
    omega
  have hfld (f : Fld) (hf : f.reg = STAND_FAULT st) (t : State) : (t.standCtr st 15 1).fld f = t.fld f := by
    unfold State.fld
    rw [hf, hrd]
  unfold State.standFault
  refine ⟨?_, ?_⟩
  · rw [hfld _ rfl, State.fld_setFld_self _ _ _ rfl]
    exact Nat.mod_eq_of_lt hc
  · rw [hfld _ rfl, State.fld_setFld_apart _ (STAND_FAULT_last_cause st) (STAND_FAULT_fault_count st) _ rfl rfl, State.fld_count_self _ _ _ rfl]

/-- No access of a VF changes leaf SRAM, a bough buffer or a channel area (R190). -/
theorem State.vfAccess_beyond_hbm (st a : Nat) (op : BarOp) (x : Nat) (hlo : sramAt 0 0 ≤ x) (hhi : x < mbxAt 0) :
    Memory.read (s.vfAccess st a op).mem x = Memory.read s.mem x := by
  have hlo' : 2 ^ 48 ≤ x := hlo
  have hzero (t : State) : (t.zeroAnswer op).mem = t.mem := by cases op <;> rfl
  by_cases hidle : s.standState st ≠ 2 ∨ barSize op = 0
  · rw [s.vfAccess_idle op hidle, hzero]
  obtain ⟨hact, hn⟩ := not_or.mp hidle
  have hact := Classical.not_not.mp hact
  have hn := Nat.pos_of_ne_zero hn
  cases hb : s.inBounds st a (barSize op) with
  | false => rw [s.vfAccess_outside op hact hn hb, hzero, (s.standFault_onlyRegs st 1).1]
  | true =>
    obtain ⟨p, hp, htop⟩ := s.inBounds_translate hn hb
    cases op with
    | read n =>
      rw [s.vfAccess_read (n := n) hact hn hb hp]
      exact s.hbmRead_mailboxesOnly _ p n x (.inl hhi)
    | write bs =>
      rw [s.vfAccess_write hact hn hb hp]
      have htop' : p + bs.length ≤ 2 ^ 40 := htop
      exact s.hbmWrite_beyond _ p bs hn x (by omega) hhi

/-- What a VF reads does not depend on memory outside HBM. -/
theorem State.vfAccess_read_withMem (m : List Host.Cell) (st a n : Nat) (h : ∀ x, x < 2 ^ 40 → Memory.read m x = Memory.read s.mem x) :
    ((s.withMem m).vfAccess st a (.read n)).out = (s.vfAccess st a (.read n)).out := by
  have hstate : (s.withMem m).standState st = s.standState st := s.withMem_fld m _
  by_cases hidle : s.standState st ≠ 2 ∨ barSize (.read n) = 0
  · rw [s.vfAccess_idle _ hidle, (s.withMem m).vfAccess_idle _ (hstate ▸ hidle)]
    rfl
  obtain ⟨hact, hn⟩ := not_or.mp hidle
  have hact := Classical.not_not.mp hact
  have hn : 0 < n := Nat.pos_of_ne_zero hn
  cases hb : s.inBounds st a n with
  | false =>
    rw [s.vfAccess_outside (.read n) hact hn hb, (s.withMem m).vfAccess_outside (.read n) (hstate.trans hact) hn hb]
    show _ :: ((s.withMem m).standFault st 1).out = _ :: (s.standFault st 1).out
    rw [((s.withMem m).standFault_onlyRegs st 1).1, (s.standFault_onlyRegs st 1).1]
    rfl
  | true =>
    obtain ⟨p, hp, htop⟩ := s.inBounds_translate hn hb
    obtain ⟨m', hm'⟩ := s.withMem_hbmRead m (s.keyAt p) p n hn htop h
    have hkey : (s.withMem m).keyAt p = s.keyAt p := rfl
    rw [s.vfAccess_read hact hn hb hp, (s.withMem m).vfAccess_read (hstate.trans hact) hn hb hp, hkey, hm']
    rfl

/-! ### The row VF_BAR0_ACCESS -/

theorem exec_vfBar0Access {st a : Nat} (op : BarOp) (ups : List (Nat × LineErr)) (hp : s.powered = true) (hst : st < 16) (ha : a < 2 ^ 42) :
    exec (.vfBar0Access st a op ups) s = .next (((s.upset ups).pcieBytes op).vfAccess st a op) := by
  show s.when (s.powered && decide (st < 16) && decide (a < 2 ^ 42)) (((s.upset ups).pcieBytes op).vfAccess st a op) = _
  rw [State.when_next, if_pos (by rw [hp, decide_eq_true hst, decide_eq_true ha]; rfl)]

theorem State.pcieBytes_mem (op : BarOp) : (s.pcieBytes op).mem = s.mem := by
  obtain ⟨o, ho⟩ := s.pcieBytes_withObs op
  rw [ho]
  rfl

theorem State.upset_mem (ups : List (Nat × LineErr)) : (s.upset ups).mem = s.mem := by
  refine State.forEach_keeps (fun t => t.mem = s.mem) ups _ (fun _ t ht => ?_) s rfl
  exact ht

theorem vfBar0Access_ends_write {st a p : Nat} {bs : List Byte} (hpow : s.powered = true) (hst : st < 16) (ha : a < 2 ^ 42)
    (hact : s.standState st = 2) (hn : 0 < bs.length) (hb : s.inBounds st a bs.length = true) (hp : s.translate st a = some p)
    (hp64 : p % 64 = 0) (hlen : bs.length % 64 = 0) :
    Ends (.vfBar0Access st a (.write bs) []) s fun t =>
      t.bytes p bs.length = bs ∧ s.SameBytesBut t p bs.length ∧ t.out = s.out ∧ s.SameRegsBut t [] := by
  refine ⟨_, exec_vfBar0Access s (.write bs) [] hpow hst ha, ?_⟩
  obtain ⟨o, ho⟩ := s.pcieBytes_withObs (.write bs)
  rw [s.upset_nil, ho, (s.withObs o).vfAccess_write hact hn hb hp]
  exact (s.withObs o).hbmWrite_whole_frame _ p bs hp64 hlen

theorem vfBar0Access_ends_outside {st a n : Nat} (hpow : s.powered = true) (hst : st < 16) (ha : a < 2 ^ 42)
    (hact : s.standState st = 2) (hn : 0 < n) (hb : s.inBounds st a n = false) :
    Ends (.vfBar0Access st a (.read n) []) s fun t =>
      t.out = .data (List.replicate n 0#8) false :: s.out ∧ t.fld (STAND_FAULT_last_cause st) = 1 ∧
      t.fld (STAND_FAULT_fault_count st) = min (STAND_FAULT_fault_count st).max (s.fld (STAND_FAULT_fault_count st) + 1) ∧ t.mem = s.mem := by
  refine ⟨_, exec_vfBar0Access s (.read n) [] hpow hst ha, ?_⟩
  obtain ⟨o, ho⟩ := s.pcieBytes_withObs (.read n)
  obtain ⟨hcause, hcount⟩ := (s.withObs o).standFault_fields hst (show 1 < 256 by decide)
  have honly := ((s.withObs o).standFault_onlyRegs st 1).1
  rw [s.upset_nil, ho, (s.withObs o).vfAccess_outside (.read n) hact hn hb]
  generalize (s.withObs o).standFault st 1 = t at hcause hcount honly
  refine ⟨?_, hcause, hcount, ?_⟩
  · show _ :: t.out = _
    rw [honly]; rfl
  · show t.mem = s.mem
    rw [honly]; rfl

theorem vfBar0Access_ends_beyond_hbm {st a : Nat} (op : BarOp) (ups : List (Nat × LineErr)) (hpow : s.powered = true) (hst : st < 16)
    (ha : a < 2 ^ 42) :
    Ends (.vfBar0Access st a op ups) s fun t => ∀ x, sramAt 0 0 ≤ x → x < mbxAt 0 → Memory.read t.mem x = Memory.read s.mem x := by
  refine ⟨_, exec_vfBar0Access s op ups hpow hst ha, fun x hlo hhi => ?_⟩
  rw [State.vfAccess_beyond_hbm _ st a op x hlo hhi, State.pcieBytes_mem, State.upset_mem]

theorem vfBar0Access_ends_read_withMem {st a : Nat} (n : Nat) {m : List Host.Cell} (hpow : s.powered = true) (hst : st < 16) (ha : a < 2 ^ 42)
    (hm : ∀ x, x < sramAt 0 0 → Memory.read m x = Memory.read s.mem x) :
    Ends (.vfBar0Access st a (.read n) []) s fun t => Ends (.vfBar0Access st a (.read n) []) (s.withMem m) fun u => u.out = t.out := by
  refine ⟨_, exec_vfBar0Access s (.read n) [] hpow hst ha, _, exec_vfBar0Access (s.withMem m) (.read n) [] hpow hst ha, ?_⟩
  have hport : (s.withMem m).pcieBytes (.read n) = (s.pcieBytes (.read n)).withMem m := s.withMem_portBytes m 36 n
  rw [State.upset_nil, State.upset_nil, hport]
  refine State.vfAccess_read_withMem _ m st a n fun x hx => ?_
  rw [State.pcieBytes_mem]
  exact hm x (Nat.lt_trans hx (by decide))

/-- Settles O20: PF0's part and the VF's, each clause by the lemma of its access. -/
theorem ownerAndTenantBar0Access : Obligations.OwnerAndTenantBar0Access := by
  refine ⟨fun s a n hp hd hn => ⟨fun htop hfree => ⟨?_, ?_⟩, ?_, ?_, fun off hoff => ⟨fun h => ?_, fun h => ?_⟩⟩,
    fun s st a hpow hst ha hact => ⟨?_, ?_, ?_, ?_⟩⟩
  · rintro bs rfl ha hlen
    exact pf0Bar0Access_ends_write s hp hd hn htop hfree ha hlen
  · exact fun hclean => pf0Bar0Access_ends_read s hp hd hn htop hfree hclean
  · exact fun g htop hg => pf0Bar0Access_ends_refused s hp hd hn htop hg
  · exact fun off hoff h8 => pf0Bar0Access_ends_csr s hp hd hoff h8
  · have hassigned := (s.refusedLeaf_isSome_iff hn).mpr h
    refine ⟨pf0Bar0Access_ends_leafRefused s (op := .read n) hp hd hn hoff hassigned, ?_⟩
    rintro bs rfl
    exact pf0Bar0Access_ends_leafRefused s (op := .write bs) hp hd hn hoff hassigned
  · have hfree : s.refusedLeaf off n = none := Option.not_isSome_iff_eq_none.mp fun hs => h ((s.refusedLeaf_isSome_iff hn).mp hs)
    refine ⟨pf0Bar0Access_ends_leafRead s hp hd hn hoff hfree, ?_⟩
    rintro bs rfl
    exact pf0Bar0Access_ends_leafWrite s hp hd hn hoff hfree
  · exact fun bs p hn hb hp hp64 hlen => vfBar0Access_ends_write s hpow hst ha hact hn hb hp hp64 hlen
  · exact fun n hn hb => vfBar0Access_ends_outside s hpow hst ha hact hn hb
  · exact fun op ups => vfBar0Access_ends_beyond_hbm s op ups hpow hst ha
  · exact fun n m hm => vfBar0Access_ends_read_withMem s n hpow hst ha fun x hx => hm x (.inl hx)

end Sys2Proof.Machine
end

section
/-! SUPPORT. What counting a packet that passes the receive checks changes (R256, R257, R461, R463 to R465), and how a limb hands a packet to its NI
(R223, R246, R250). -/

namespace Sys2Proof.Machine

variable {s t u : State}

/-! ### Counting a packet -/

/-- The registers that counting a received packet may change: NI_RX_LATE and the counters of limbs and stands. -/
def countReg (a : Nat) : Prop := a = NI_RX_LATE ∨ (0xc78000 ≤ a ∧ a < 0xc80000)

theorem not_countReg {a : Nat} (hlate : a ≠ NI_RX_LATE) (h : a < 0xc78000 ∨ 0xc80000 ≤ a) : ¬ countReg a := by
  rintro (hq | hq)
  · exact hlate hq
  · omega

/-- What taking and counting a received packet changes at most: counters of `countReg`, the port windows and what the limbs hold. -/
structure State.CountFrame (s t : State) : Prop where
  only : ∃ rg ob ls, t = { s with regs := rg, obs := ob, limbs := ls }
  rd : ∀ a, ¬ countReg a → t.rd a = s.rd a

namespace State.CountFrame

theorem refl (s : State) : s.CountFrame s := ⟨⟨_, _, _, rfl⟩, fun _ _ => rfl⟩

theorem trans (h : s.CountFrame t) (k : t.CountFrame u) : s.CountFrame u := by
  obtain ⟨⟨_, _, _, rfl⟩, hrd⟩ := h
  obtain ⟨⟨_, _, _, rfl⟩, krd⟩ := k
  exact ⟨⟨_, _, _, rfl⟩, fun a ha => (krd a ha).trans (hrd a ha)⟩

theorem of_onlyRegs {a : Nat} (h : s.OnlyRegs t [a]) (ha : countReg a) : s.CountFrame t :=
  ⟨⟨t.regs, s.obs, s.limbs, h.1⟩, fun b hb => h.2 b fun q => hb (List.mem_singleton.mp q ▸ ha)⟩

theorem of_if {c : Prop} [Decidable c] (h : s.CountFrame t) : s.CountFrame (if c then t else s) := by
  split
  · exact h
  · exact refl s

theorem ni (h : s.CountFrame t) : t.ni = s.ni := by obtain ⟨⟨_, _, _, rfl⟩, -⟩ := h; rfl
theorem rxBuf (h : s.CountFrame t) : t.ni.rxBuf = s.ni.rxBuf := congrArg Ni.rxBuf h.ni
theorem txq (h : s.CountFrame t) : t.ni.txq = s.ni.txq := congrArg Ni.txq h.ni
theorem mem (h : s.CountFrame t) : t.mem = s.mem := by obtain ⟨⟨_, _, _, rfl⟩, -⟩ := h; rfl
theorem kops (h : s.CountFrame t) : t.kops = s.kops := by obtain ⟨⟨_, _, _, rfl⟩, -⟩ := h; rfl
theorem out (h : s.CountFrame t) : t.out = s.out := by obtain ⟨⟨_, _, _, rfl⟩, -⟩ := h; rfl
theorem pcie (h : s.CountFrame t) : t.pcie = s.pcie := by obtain ⟨⟨_, _, _, rfl⟩, -⟩ := h; rfl

theorem fld (h : s.CountFrame t) (f : Fld) (hf : ¬ countReg f.reg) : t.fld f = s.fld f := congrArg f.of (h.rd _ hf)

theorem flag (h : s.CountFrame t) (f : Fld) (hf : ¬ countReg f.reg) : t.flag f = s.flag f := by
  unfold State.flag
  rw [h.fld f hf]

end State.CountFrame

variable (s)

theorem State.standCtr_counts {st i : Nat} (n : Nat) (hst : st < 16) (hi : i < 16) : s.CountFrame (s.standCtr st i n) :=
  .of_onlyRegs (s.standCtr_onlyRegs st i n) (.inr (by unfold PERF_STAND_CTR; omega))

theorem State.countLate_counts (f : Fld) (n : Nat) (hf : f.reg = NI_RX_LATE) : s.CountFrame (s.count f n) :=
  .of_onlyRegs (s.setFld_onlyRegs f _) (.inl hf)

theorem State.limbView_counts {st l i : Nat} (n : Nat) (hst : st < 16) (hl : l < 18) (hi : i < 8) : s.CountFrame (s.limbView st l i n) :=
  .of_onlyRegs (s.bump_onlyRegs (PERF_STAND_LIMB st l i) n) (.inr (by unfold PERF_STAND_LIMB; omega))

theorem State.portBytes_counts (p n : Nat) : s.CountFrame (s.portBytes p n) := by
  obtain ⟨o, ho⟩ := s.portBytes_withObs p n
  rw [ho]
  exact ⟨⟨_, o, _, rfl⟩, fun _ _ => rfl⟩

theorem State.limbBytes_counts (st p n : Nat) : s.CountFrame (s.limbBytes st p n) :=
  (s.portBytes_counts p n).trans (State.portBytes_counts _ _ n)

theorem State.limbEvent_counts {l : Nat} (ev : Nat) (st : Option Nat) (n : Nat) (hl : l < 18) : s.CountFrame (s.limbEvent l ev st n) := by
  refine State.forEach_keeps_of_mem s.CountFrame _ _ (fun i hi t ht => ht.trans ?_) s (.refl s)
  have hi := List.mem_range.mp hi
  dsimp only
  split
  · exact .refl t
  · exact .of_onlyRegs (t.selCount_only _ _ _ _ _) (.inr (by unfold PERF_LIMB_CTR; omega))

/-- Counting a packet of a stand from a limb changes counters only. -/
theorem State.countRx_counts {r : Rx} (hst : r.pkt.dstStand < 16) (hl : r.limb < 18) : s.CountFrame (s.countRx r) := by
  unfold State.countRx
  extract_lets p st n s1 s2 s3 s4
  have h1 : s.CountFrame s1 := (s.standCtr_counts 1 hst (by decide)).trans (State.standCtr_counts _ n hst (by decide))
  have h2 : s1.CountFrame s2 := .of_if ((s1.countLate_counts NI_RX_LATE_late 1 rfl).trans (State.standCtr_counts _ 1 hst (by decide)))
  have h3 : s2.CountFrame s3 := .of_if ((s2.countLate_counts NI_RX_LATE_offsched 1 rfl).trans (State.standCtr_counts _ 1 hst (by decide)))
  have h4 : s3.CountFrame s4 := .of_if (s3.countLate_counts NI_RX_LATE_rx_poison 1 rfl)
  refine ((h1.trans h2).trans (h3.trans h4)).trans ?_
  split
  · exact .refl s4
  · have hview := (s4.limbView_counts 1 hst hl (i := 1) (by decide)).trans
      (State.limbView_counts _ (ceilDiv (88 + p.payload.length) 192) hst hl (i := 3) (by decide))
    exact ((hview.trans (State.limbBytes_counts _ st (18 + r.limb) n)).trans (State.limbEvent_counts _ 0x25 (some st) 1 hl)).trans
      (State.limbEvent_counts _ 0x26 (some st) _ hl)

/-! ### A packet handed to its NI -/

/-- The state in which the NI takes the packet a limb hands over. -/
def State.popHanded (s : State) (l : Nat) : State := s.onLimb l fun x => { x with handed := x.handed.drop 1 }

/-- What the flits said of a packet changes neither its limb nor what it says itself. -/
theorem State.asHanded_eq (r : Rx) :
    (s.asHanded r).limb = r.limb ∧ (s.asHanded r).pkt = r.pkt ∧ (s.asHanded r).chk = r.chk := by
  unfold State.asHanded
  dsimp only
  split <;> exact ⟨rfl, rfl, rfl⟩

theorem State.Takes.pkt {r x : Rx} (h : s.Takes r x) : x.limb = r.limb ∧ x.pkt = r.pkt ∧ x.chk = r.chk := by
  obtain ⟨-, -, -, -, -, rfl⟩ := h
  exact s.asHanded_eq r

/-- A packet of a stand, taken from its limb and counted. -/
theorem State.Takes.counts {r x : Rx} (h : s.Takes r x) (hst : r.pkt.dstStand < 16) : s.CountFrame ((s.popHanded r.limb).countRx x) := by
  obtain ⟨hxl, hxp, -⟩ := h.pkt
  have hpop : s.CountFrame (s.popHanded r.limb) := ⟨⟨_, _, _, rfl⟩, fun _ _ => rfl⟩
  exact hpop.trans (State.countRx_counts _ (by rw [hxp]; exact hst) (by rw [hxl]; exact h.1))

/-- `s` with other limbs and free words and, put out after all else, `f`. -/
def State.withCredit (s : State) (ls : SMap Limb) (f : List Out) (n : Nat) : State := { s with limbs := ls, out := f ++ s.out, free := n }

@[simp] theorem State.withCredit_ni (ls : SMap Limb) (f : List Out) (n : Nat) : (s.withCredit ls f n).ni = s.ni := rfl
@[simp] theorem State.withCredit_mem (ls : SMap Limb) (f : List Out) (n : Nat) : (s.withCredit ls f n).mem = s.mem := rfl
@[simp] theorem State.withCredit_out (ls : SMap Limb) (f : List Out) (n : Nat) : (s.withCredit ls f n).out = f ++ s.out := rfl
@[simp] theorem State.withCredit_fld (ls : SMap Limb) (f : List Out) (n : Nat) (g : Fld) : (s.withCredit ls f n).fld g = s.fld g := rfl
@[simp] theorem State.withCredit_flag (ls : SMap Limb) (f : List Out) (n : Nat) (g : Fld) : (s.withCredit ls f n).flag g = s.flag g := rfl

/-- A credit returned leaves on its limb, and nothing else changes (R250). -/
theorem State.returnCredit_only (l vc : Nat) : ∃ ls f n, s.returnCredit l vc = s.withCredit ls f n := by
  unfold State.returnCredit
  split
  · exact ⟨_, [_], _, rfl⟩
  · exact ⟨_, [], _, rfl⟩

theorem State.rxFree_only (r : Rx) : ∃ ls f n, s.rxFree r = s.withCredit ls f n := by
  unfold State.rxFree
  split
  · exact ⟨_, [], _, rfl⟩
  · exact s.returnCredit_only _ _

/-- With empty receive buffers there is nothing to deliver later. -/
theorem State.rxRetry_of_empty (h : s.ni.rxBuf = []) : s.rxRetry = s := by
  unfold State.rxRetry
  rw [h]
  rfl

/-- What an NI does with a packet that finds its receive buffers empty. -/
theorem State.rxArrive_eq {r x : Rx} (h : s.ni.rxBuf = []) (hx : x = { r with off := s.offSched r }) :
    s.rxArrive r =
      if s.rxHeld [] x then s.onNi fun n => { n with rxBuf := [x] } else ((s.rxPacket x).rxFree x).rxRetry := by
  have hfull : s.schedFull r.limb = false := by unfold State.schedFull; rw [h]; rfl
  have hkeep : s.onNi (fun n => { n with rxBuf := n.rxBuf ++ [x] }) = s.onNi fun n => { n with rxBuf := [x] } := by
    simp [State.onNi, h]
  unfold State.rxArrive
  simp only [hfull, h, Bool.and_false, Bool.or_false]
  rw [← hx, hkeep]

/-- A row of its type takes what a limb hands over. -/
theorem State.Takes.rxRow_eq {r x : Rx} {type : Nat} (h : s.Takes r x) (ht : r.pkt.type = type ∨ r.pkt.type = 0 ∨ 10 < r.pkt.type) :
    s.rxRow type r = .next ((s.popHanded r.limb).rxArrive (s.asHanded r)) := by
  obtain ⟨hl, hact, hon, -, hcar, -⟩ := h
  have hty : (r.pkt.type == type || r.pkt.type == 0 || decide (10 < r.pkt.type)) = true := by simpa [or_assoc] using ht
  have hclass : (!(s.asHanded r).sched || s.limbCarries r.limb 0) = true := by
    cases hs : (s.asHanded r).sched
    · rfl
    · exact hcar hs
  unfold State.rxRow
  rw [hty, hclass, hact, hon, decide_eq_true hl]
  rfl

/-- A packet that is held stays in its receive buffer. -/
theorem State.Takes.ends_held {r x : Rx} {type : Nat} {P : State → Prop} (h : s.Takes r x)
    (ht : r.pkt.type = type ∨ r.pkt.type = 0 ∨ 10 < r.pkt.type) (hheld : (s.popHanded r.limb).rxHeld [] x = true)
    (hP : P ((s.popHanded r.limb).onNi fun n => { n with rxBuf := [x] })) : ∃ t, s.rxRow type r = .next t ∧ P t := by
  refine ⟨_, h.rxRow_eq s ht, ?_⟩
  obtain ⟨-, -, -, hbuf, -, hx⟩ := h
  rw [State.rxArrive_eq (s.popHanded r.limb) (x := x) hbuf hx, if_pos hheld]
  exact hP

/-- A packet that is not held is checked and delivered; what it leaves differs from the row's answer only in the credit returned. -/
theorem State.Takes.ends {r x : Rx} {type : Nat} {P : State → Prop} (h : s.Takes r x)
    (ht : r.pkt.type = type ∨ r.pkt.type = 0 ∨ 10 < r.pkt.type) (hheld : (s.popHanded r.limb).rxHeld [] x = false) (v : State)
    (hv : (s.popHanded r.limb).rxPacket x = v) (hbuf' : v.ni.rxBuf = [])
    (hP : ∀ ls f n, P (v.withCredit ls f n)) : ∃ t, s.rxRow type r = .next t ∧ P t := by
  refine ⟨_, h.rxRow_eq s ht, ?_⟩
  obtain ⟨-, -, -, hbuf, -, hx⟩ := h
  obtain ⟨ls, f, n, hfree⟩ := v.rxFree_only x
  rw [State.rxArrive_eq (s.popHanded r.limb) (x := x) hbuf hx, if_neg (by rw [hheld]; decide), hv, hfree,
    State.rxRetry_of_empty (v.withCredit ls f n) hbuf']
  exact hP ls f n

end Sys2Proof.Machine
end

section
/-! SUPPORT. MACK_RECEIVE and ERR_RECEIVE (R255, R263, R264, R278, R296): a member or an error recorded against its operation, a packet resent, and what
is late. -/

namespace Sys2Proof.Machine

variable (s : State) {t : State}

/-! ### Records of triggers -/

theorem State.trigOp_congr (h : t.ni = s.ni) (st op : Nat) : t.trigOp st op = s.trigOp st op := by unfold State.trigOp; rw [h]
theorem State.trigAt_congr (h : t.ni = s.ni) (st i : Nat) : t.trigAt st i = s.trigAt st i := by unfold State.trigAt; rw [h]
theorem State.replyNamed_congr (h : t.ni = s.ni) (e : Packet) : t.replyNamed e = s.replyNamed e := by unfold State.replyNamed; rw [h]

/-- A change of a trigger's record that keeps its place. -/
theorem State.trigAt_onTrig (st i : Nat) (f : Trig → Trig) (hf : ∀ x, (f x).stand = x.stand ∧ (f x).index = x.index) :
    (s.onTrig st i f).trigAt st i = (s.trigAt st i).map f := by
  unfold State.trigAt State.onTrig
  rw [State.onNi_ni]
  dsimp only
  rw [List.find?_map]
  have hkey : ((fun x : Trig => x.stand == st && x.index == i) ∘ fun x => if x.stand == st && x.index == i then f x else x) =
      fun x => x.stand == st && x.index == i := by
    funext x
    rw [Function.comp_apply]
    split
    · rw [(hf x).1, (hf x).2]
    · rfl
  rw [hkey]
  cases hfound : s.ni.trigs.find? fun x => x.stand == st && x.index == i with
  | none => rfl
  | some x => simp only [Option.map_some, if_pos (List.find?_some hfound)]

/-- A running operation has a record at its place. -/
theorem State.trigAt_of_trigOp {st op : Nat} {tr : Trig} (h : s.trigOp st op = some tr) : ∃ y, s.trigAt tr.stand tr.index = some y :=
  Option.isSome_iff_exists.mp (List.find?_isSome.mpr ⟨tr, List.mem_of_find?_eq_some h, by simp⟩)

/-- A record with a member of its group entered in its bitmap (R264). -/
def Trig.withMember (i : Nat) (x : Trig) : Trig := { x with bitmap := if x.bitmap.contains i then x.bitmap else i :: x.bitmap }

theorem Trig.mem_withMember (i : Nat) (x : Trig) : i ∈ (x.withMember i).bitmap := by
  unfold Trig.withMember
  dsimp only
  split
  · next h => exact List.contains_iff_mem.mp h
  · exact List.mem_cons_self ..

/-- A record that has failed with a status and cause; an operation that closes by it has finished (R255). -/
def Trig.failed (close : Bool) (status cause : Nat) (x : Trig) : Trig :=
  if close then { x.fail status cause with state := .finished } else x.fail status cause

theorem Trig.failed_eq (close : Bool) (status cause : Nat) (x : Trig) :
    x.failed close status cause =
      { x with
        status := if x.status = 0 then status else x.status, cause := if x.status = 0 then cause else x.cause,
        state := if close then .finished else x.state } := by
  unfold Trig.failed Trig.fail
  cases close <;> by_cases h : x.status = 0 <;> simp [h]

/-- A record one of whose packets is resent (R296). -/
def Trig.resending (p : Packet) (x : Trig) : Trig := { x with kept := x.kept.filter (· != p), unsent := x.unsent + 1, flags := x.flags ||| 65 }

/-! ### What the two rows do -/

theorem State.rxPacket_mack {r : Rx} (hc : s.rxCheck r = 0) (ht : r.pkt.type = 7) : s.rxPacket r = s.takeMack r := by
  unfold State.rxPacket; dsimp only; rw [hc, ht]; rfl

theorem State.rxPacket_err {r : Rx} (hc : s.rxCheck r = 0) (ht : r.pkt.type = 8) : s.rxPacket r = s.takeErr r := by
  unfold State.rxPacket; dsimp only; rw [hc, ht]; rfl

/-- A MACK or an ERR never waits in a receive buffer. -/
theorem State.rxHeld_reply {r : Rx} (before : List Rx) (ht : r.pkt.type = 7 ∨ r.pkt.type = 8) : s.rxHeld before r = false := by
  unfold State.rxHeld Rx.forHeartwood
  rcases ht with ht | ht <;> simp [ht]

theorem State.takeMack_open {r : Rx} {tr : Trig} (h : (s.countRx r).trigOp r.pkt.dstStand r.pkt.opId = some tr) :
    s.takeMack r = (s.countRx r).onTrig tr.stand tr.index (Trig.withMember r.pkt.pktIndex) := by
  unfold State.takeMack; dsimp only; rw [h]; rfl

theorem State.takeMack_late {r : Rx} (h : (s.countRx r).trigOp r.pkt.dstStand r.pkt.opId = none) :
    s.takeMack r =
      ((((s.countRx r).count NI_MCAST_LATE_count 1).setFld NI_MCAST_LATE_last_group r.pkt.group).setFld NI_MCAST_LATE_last_member
        r.pkt.pktIndex).setFlag NI_EVENT_mcast_late true := by
  unfold State.takeMack; dsimp only; rw [h]

theorem State.takeErr_reply {r : Rx} {y : TxPkt} (h : (s.countRx r).replyNamed r.pkt = some y) :
    s.takeErr r = (s.countRx r).replyResend y := by
  unfold State.takeErr; dsimp only; rw [h]

theorem State.takeErr_open {r : Rx} {tr : Trig} (hy : (s.countRx r).replyNamed r.pkt = none)
    (h : (s.countRx r).trigOp r.pkt.dstStand r.pkt.opId = some tr) : s.takeErr r = (s.countRx r).errOf r tr := by
  unfold State.takeErr; dsimp only; rw [hy, h]

theorem State.takeErr_late {r : Rx} (hy : (s.countRx r).replyNamed r.pkt = none)
    (h : (s.countRx r).trigOp r.pkt.dstStand r.pkt.opId = none) : s.takeErr r = (s.countRx r).lateErr r.pkt := by
  unfold State.takeErr; dsimp only; rw [hy, h]

/-- An error of another cause than 8 fails its operation with it. -/
theorem State.errOf_cause {r : Rx} (tr : Trig) (h : r.pkt.knotValue % 256 ≠ 8) :
    s.errOf r tr = s.onTrig tr.stand tr.index (Trig.failed (tOp tr.desc == 2) 0x13 (r.pkt.knotValue % 256)) := by
  unfold State.errOf; dsimp only; rw [if_neg h]; rfl

/-- A failed CRC of a packet that is not kept fails its operation. -/
theorem State.errOf_unkept {r : Rx} {tr : Trig} (h : r.pkt.knotValue % 256 = 8) (hk : tr.kept.find? (fun q => q.namedBy r.pkt) = none) :
    s.errOf r tr = s.onTrig tr.stand tr.index (Trig.failed (tOp tr.desc == 2) 0x14 0) := by
  unfold State.errOf; dsimp only; rw [if_pos h, hk]; rfl

theorem State.errOf_kept {r : Rx} {tr : Trig} {q : Packet} (h : r.pkt.knotValue % 256 = 8)
    (hk : tr.kept.find? (fun q => q.namedBy r.pkt) = some q) : s.errOf r tr = s.crcResend tr q (s.replyPath r false).route := by
  unfold State.errOf; dsimp only; rw [if_pos h, hk]

/-- A GET_RESP resent leaves the replies kept and goes to the end of the queue, best-effort and marked as resent (R296). -/
theorem State.replyResend_eq (y : TxPkt) :
    (s.replyResend y).mem = s.mem ∧
    ∃ q : TxPkt, q.pkt = { y.pkt with flags := y.pkt.flags ||| 2 } ∧ q.sched = false ∧
      (s.replyResend y).ni = { s.ni with replies := s.ni.replies.erase y, txq := s.ni.txq ++ [q] } :=
  ⟨rfl, _, rfl, rfl, rfl⟩

/-- A packet resent goes to the end of the queue, best-effort and marked as resent, and its operation's record says so (R296). -/
theorem State.crcResend_eq (tr : Trig) (p : Packet) (route : Nat) :
    (s.crcResend tr p route).mem = s.mem ∧ (s.crcResend tr p route).ni.rxBuf = s.ni.rxBuf ∧
    (∃ q : TxPkt, (s.crcResend tr p route).ni.txq = s.ni.txq ++ [q] ∧ q.pkt = { p with flags := p.flags ||| 2 } ∧ q.sched = false) ∧
    (s.crcResend tr p route).trigAt tr.stand tr.index = (s.trigAt tr.stand tr.index).map (Trig.resending p) :=
  ⟨rfl, rfl, ⟨_, rfl, rfl, rfl⟩, State.trigAt_onTrig _ tr.stand tr.index (Trig.resending p) fun _ => ⟨rfl, rfl⟩⟩

/-! ### A late ERR -/

/-- What a late ERR leaves in its stand's registers and in COLL_EVENT (R278). -/
def State.lateErrNoted (s : State) (p : Packet) : State :=
  (((s.count (CQ_TRIG_LATE_ERR_count p.dstStand) 1).setFld (CQ_TRIG_LATE_ERR_last_op p.dstStand) p.opId).setFld
    (CQ_TRIG_LATE_ERR_last_cause p.dstStand) p.knotValue).setFlag COLL_EVENT_late_err true

theorem State.lateErr_eq (p : Packet) :
    s.lateErr p =
      if (s.lateErrNoted p).flag (CQ_TRIG_CFG_irq_en p.dstStand) then (s.lateErrNoted p).msix (p.dstStand + 1) 4 else s.lateErrNoted p := rfl

/-- A late ERR changes the registers it is noted in, and may send a message. -/
theorem State.lateErr_noted (p : Packet) :
    (s.lateErr p).ni = s.ni ∧ (s.lateErr p).mem = s.mem ∧ ∀ a, (s.lateErr p).rd a = (s.lateErrNoted p).rd a := by
  have hmsix : ∀ u : State, (u.msix (p.dstStand + 1) 4).ni = u.ni ∧ (u.msix (p.dstStand + 1) 4).mem = u.mem ∧
      ∀ a, (u.msix (p.dstStand + 1) 4).rd a = u.rd a := by
    intro u
    rcases u.msix_cases (p.dstStand + 1) 4 with h | h <;> rw [h] <;> exact ⟨rfl, rfl, fun _ => rfl⟩
  rw [State.lateErr_eq]
  split
  · exact hmsix _
  · exact ⟨rfl, rfl, fun _ => rfl⟩

theorem State.lateErrNoted_fields (p : Packet) (hst : p.dstStand < 16) :
    (s.lateErrNoted p).flag COLL_EVENT_late_err = true ∧
    (s.lateErrNoted p).fld (CQ_TRIG_LATE_ERR_count p.dstStand) =
      min (CQ_TRIG_LATE_ERR_count 0).max (s.fld (CQ_TRIG_LATE_ERR_count p.dstStand) + 1) ∧
    (s.lateErrNoted p).fld (CQ_TRIG_LATE_ERR_last_op p.dstStand) = p.opId % 2 ^ 32 ∧
    (s.lateErrNoted p).fld (CQ_TRIG_LATE_ERR_last_cause p.dstStand) = p.knotValue % 256 ∧
    (s.lateErrNoted p).flag (CQ_TRIG_CFG_irq_en p.dstStand) = s.flag (CQ_TRIG_CFG_irq_en p.dstStand) := by
  have hev : COLL_EVENT ≠ CQ_TRIG_LATE_ERR p.dstStand := by unfold COLL_EVENT CQ_TRIG_LATE_ERR; omega
  have hcfg : CQ_TRIG_CFG p.dstStand ≠ CQ_TRIG_LATE_ERR p.dstStand := by unfold CQ_TRIG_CFG CQ_TRIG_LATE_ERR; omega
  have hcfg' : CQ_TRIG_CFG p.dstStand ≠ COLL_EVENT := by unfold CQ_TRIG_CFG COLL_EVENT; omega
  have hset (u : State) (f : Fld) (hf : f.reg = CQ_TRIG_LATE_ERR p.dstStand) : (u.setFlag COLL_EVENT_late_err true).fld f = u.fld f := by
    unfold State.fld
    rw [hf, State.rd_setFlag_ne _ _ _ hev.symm]
  have hmax : (CQ_TRIG_LATE_ERR_count p.dstStand).max = (CQ_TRIG_LATE_ERR_count 0).max := by
    unfold Fld.max CQ_TRIG_LATE_ERR_count
    rfl
  unfold State.lateErrNoted
  refine ⟨State.flag_setFlag_self _ _ _ rfl, ?_, ?_, ?_, ?_⟩
  · rw [hset _ _ rfl, State.fld_setFld_apart _ _ _ _ rfl rfl, State.fld_setFld_apart _ _ _ _ rfl rfl, State.fld_count_self _ _ _ rfl, hmax]
  · rw [hset _ _ rfl, State.fld_setFld_apart _ _ _ _ rfl rfl, State.fld_setFld_self _ _ _ rfl]
    rfl
  · rw [hset _ _ rfl, State.fld_setFld_self _ _ _ rfl]
    rfl
  · unfold State.flag State.fld
    rw [State.rd_setFlag_ne _ _ _ hcfg', State.rd_setFld_ne _ _ _ hcfg, State.rd_setFld_ne _ _ _ hcfg, State.rd_count_ne _ _ _ hcfg]

/-- With its interrupt enabled, a late ERR raises vector 4 of its stand's function (R278). -/
theorem State.lateErr_out (p : Packet) (hst : p.dstStand < 16) (hirq : s.flag (CQ_TRIG_CFG_irq_en p.dstStand) = true)
    (hl : s.pcie.link = true) (hv : s.pcie.vfEnable = true) (hn : p.dstStand + 1 ≤ s.pcie.numVfs) :
    (s.lateErr p).out = .msix (p.dstStand + 1) 4 :: s.out := by
  obtain ⟨-, -, -, -, hflag⟩ := s.lateErrNoted_fields p hst
  rw [State.lateErr_eq, if_pos (hflag.trans hirq)]
  unfold State.msix
  rw [if_pos]
  · rfl
  · show (s.pcie.link && (p.dstStand + 1 == 0 || (s.pcie.vfEnable && decide (p.dstStand + 1 ≤ s.pcie.numVfs)))) = true
    simp [hl, hv, hn]

/-! ### The rows -/

variable {r x : Rx}

/-- MACK_RECEIVE and ERR_RECEIVE take the packet at once. -/
theorem State.Takes.ends_reply {type : Nat} {P : State → Prop} (h : s.Takes r x) (ht : r.pkt.type = type) (h78 : type = 7 ∨ type = 8)
    (v : State) (hv : (s.popHanded r.limb).rxPacket x = v) (hbuf : v.ni.rxBuf = s.ni.rxBuf) (hP : ∀ ls f n, P (v.withCredit ls f n)) :
    ∃ t, s.rxRow type r = .next t ∧ P t := by
  have hheld := State.rxHeld_reply (s.popHanded r.limb) (r := x) [] (by rw [h.pkt.2.1, ht]; exact h78)
  obtain ⟨-, -, -, hempty, -, -⟩ := id h
  exact h.ends s (.inl ht) hheld v hv (hbuf.trans hempty) hP

theorem State.Takes.ends_mack {P : State → Prop} (h : s.Takes r x) (hc : s.rxCheck x = 0) (ht : r.pkt.type = 7) (v : State)
    (hv : (s.popHanded r.limb).takeMack x = v) (hbuf : v.ni.rxBuf = s.ni.rxBuf) (hP : ∀ ls f n, P (v.withCredit ls f n)) :
    Ends (.mackReceive r) s P :=
  h.ends_reply s ht (.inl rfl) v (((s.popHanded r.limb).rxPacket_mack hc (h.pkt.2.1 ▸ ht)).trans hv) hbuf hP

theorem State.Takes.ends_err {P : State → Prop} (h : s.Takes r x) (hc : s.rxCheck x = 0) (ht : r.pkt.type = 8) (v : State)
    (hv : (s.popHanded r.limb).takeErr x = v) (hbuf : v.ni.rxBuf = s.ni.rxBuf) (hP : ∀ ls f n, P (v.withCredit ls f n)) :
    Ends (.errReceive r) s P :=
  h.ends_reply s ht (.inr rfl) v (((s.popHanded r.limb).rxPacket_err hc (h.pkt.2.1 ▸ ht)).trans hv) hbuf hP

variable (hT : s.Takes r x) (hst : r.pkt.dstStand < 16) (hc : s.rxCheck x = 0)
include hT hst hc

/-- A member's MACK enters the bitmap of its running operation (R264). -/
theorem mackReceive_ends_open {tr : Trig} (ht : r.pkt.type = 7) (h : s.trigOp r.pkt.dstStand r.pkt.opId = some tr) :
    Ends (.mackReceive r) s fun t =>
      ∃ y, t.trigAt tr.stand tr.index = some y ∧ r.pkt.pktIndex ∈ y.bitmap ∧ t.mem = s.mem ∧ t.kops = s.kops := by
  have hu := hT.counts s hst
  obtain ⟨-, hp, -⟩ := hT.pkt
  have htake := (s.popHanded r.limb).takeMack_open (r := x) (tr := tr) (by rw [hp, State.trigOp_congr s hu.ni, h])
  rw [hp] at htake
  generalize (s.popHanded r.limb).countRx x = u at hu htake
  obtain ⟨z, hz⟩ := s.trigAt_of_trigOp h
  refine hT.ends_mack s hc ht _ htake hu.rxBuf fun ls f n => ⟨z.withMember r.pkt.pktIndex, ?_, z.mem_withMember _, hu.mem, hu.kops⟩
  rw [State.trigAt_congr _ (State.withCredit_ni _ ls f n), State.trigAt_onTrig u _ _ (Trig.withMember r.pkt.pktIndex) fun _ => ⟨rfl, rfl⟩,
    State.trigAt_congr s hu.ni, hz]
  rfl

/-- A MACK without its operation is late (R263). -/
theorem mackReceive_ends_late (ht : r.pkt.type = 7) (h : s.trigOp r.pkt.dstStand r.pkt.opId = none) :
    Ends (.mackReceive r) s fun t =>
      t.fld NI_MCAST_LATE_count = min NI_MCAST_LATE_count.max (s.fld NI_MCAST_LATE_count + 1) ∧ t.flag NI_EVENT_mcast_late = true ∧
      t.ni = s.ni ∧ t.mem = s.mem := by
  have hu := hT.counts s hst
  obtain ⟨-, hp, -⟩ := hT.pkt
  have htake := (s.popHanded r.limb).takeMack_late (r := x) (by rw [hp, State.trigOp_congr s hu.ni, h])
  generalize (s.popHanded r.limb).countRx x = u at hu htake
  refine hT.ends_mack s hc ht _ htake hu.rxBuf fun ls f n => ⟨?_, ?_, hu.ni, hu.mem⟩
  · rw [State.withCredit_fld, State.fld_setFlag_apart _ _ _ _ rfl rfl, State.fld_setFld_apart _ _ _ _ rfl rfl,
      State.fld_setFld_apart _ _ _ _ rfl rfl, State.fld_count_self _ _ _ rfl, hu.fld _ (not_countReg (by decide) (by decide))]
  · rw [State.withCredit_flag, State.flag_setFlag_self _ _ _ rfl]

/-! ### ERR_RECEIVE -/

/-- An ERR that names a GET_RESP kept here has it resent (R296). -/
theorem errReceive_ends_reply {y : TxPkt} (ht : r.pkt.type = 8) (h : s.replyNamed r.pkt = some y) :
    Ends (.errReceive r) s fun t =>
      t.ni.replies = s.ni.replies.erase y ∧ t.ni.trigs = s.ni.trigs ∧ t.mem = s.mem ∧
      ∃ q, t.ni.txq = s.ni.txq ++ [q] ∧ q.pkt = { y.pkt with flags := y.pkt.flags ||| 2 } ∧ q.sched = false := by
  have hu := hT.counts s hst
  obtain ⟨-, hp, -⟩ := hT.pkt
  have htake := (s.popHanded r.limb).takeErr_reply (r := x) (by rw [hp, State.replyNamed_congr s hu.ni, h])
  generalize (s.popHanded r.limb).countRx x = u at hu htake
  obtain ⟨hmem, q, hq, hsched, hni⟩ := u.replyResend_eq y
  rw [hu.ni] at hni
  refine hT.ends_err s hc ht _ htake (by rw [hni]) fun ls f n => ?_
  rw [State.withCredit_ni, State.withCredit_mem, hni, hmem, hu.mem]
  exact ⟨rfl, rfl, rfl, q, rfl, hq, hsched⟩

/-- An error that fails its operation, whichever way it does (R255, R296). -/
theorem errReceive_ends_failed {tr : Trig} {status cause : Nat} (ht : r.pkt.type = 8) (hy : s.replyNamed r.pkt = none)
    (h : s.trigOp r.pkt.dstStand r.pkt.opId = some tr) (hat : s.trigAt tr.stand tr.index = some tr)
    (herr : ∀ u : State, u.errOf x tr = u.onTrig tr.stand tr.index (Trig.failed (tOp tr.desc == 2) status cause)) :
    Ends (.errReceive r) s fun t =>
      t.ni.txq = s.ni.txq ∧ t.mem = s.mem ∧
      ∃ y, t.trigAt tr.stand tr.index = some y ∧ y.status = (if tr.status = 0 then status else tr.status) ∧
        y.cause = (if tr.status = 0 then cause else tr.cause) ∧ y.state = if tOp tr.desc = 2 then .finished else tr.state := by
  have hu := hT.counts s hst
  obtain ⟨-, hp, -⟩ := hT.pkt
  have htake := (s.popHanded r.limb).takeErr_open (r := x) (tr := tr) (by rw [hp, State.replyNamed_congr s hu.ni, hy])
    (by rw [hp, State.trigOp_congr s hu.ni, h])
  generalize (s.popHanded r.limb).countRx x = u at hu htake
  rw [herr] at htake
  refine hT.ends_err s hc ht _ htake hu.rxBuf fun ls f n => ⟨hu.txq, hu.mem, tr.failed (tOp tr.desc == 2) status cause, ?_, ?_⟩
  · rw [State.trigAt_congr _ (State.withCredit_ni _ ls f n),
      State.trigAt_onTrig u _ _ (Trig.failed (tOp tr.desc == 2) status cause) fun z => by rw [Trig.failed_eq]; exact ⟨rfl, rfl⟩,
      State.trigAt_congr s hu.ni, hat]
    rfl
  · rw [Trig.failed_eq]
    simp

/-- An ERR of cause 8 has the packet it names resent once (R296). -/
theorem errReceive_ends_resent {tr : Trig} {q : Packet} (ht : r.pkt.type = 8) (hy : s.replyNamed r.pkt = none)
    (h : s.trigOp r.pkt.dstStand r.pkt.opId = some tr) (hat : s.trigAt tr.stand tr.index = some tr)
    (hcause : r.pkt.knotValue % 256 = 8) (hq : tr.kept.find? (fun q => q.namedBy r.pkt) = some q) :
    Ends (.errReceive r) s fun t =>
      (∃ u, t.ni.txq = s.ni.txq ++ [u] ∧ u.pkt = { q with flags := q.flags ||| 2 } ∧ u.sched = false) ∧ t.mem = s.mem ∧
      ∃ y, t.trigAt tr.stand tr.index = some y ∧ y.kept = tr.kept.filter (· != q) ∧ y.flags = tr.flags ||| 65 ∧
        y.unsent = tr.unsent + 1 ∧ y.status = tr.status := by
  have hu := hT.counts s hst
  obtain ⟨-, hp, -⟩ := hT.pkt
  have htake := (s.popHanded r.limb).takeErr_open (r := x) (tr := tr) (by rw [hp, State.replyNamed_congr s hu.ni, hy])
    (by rw [hp, State.trigOp_congr s hu.ni, h])
  generalize (s.popHanded r.limb).countRx x = u at hu htake
  rw [State.errOf_kept _ (q := q) (by rw [hp]; exact hcause) (by rw [hp]; exact hq)] at htake
  obtain ⟨hmem, hbuf, ⟨w, hw, hpkt, hsched⟩, hnew⟩ := u.crcResend_eq tr q (u.replyPath x false).route
  rw [hu.txq] at hw
  rw [State.trigAt_congr s hu.ni, hat] at hnew
  refine hT.ends_err s hc ht _ htake (hbuf.trans hu.rxBuf) fun ls f n =>
    ⟨⟨w, hw, hpkt, hsched⟩, hmem.trans hu.mem, tr.resending q, ?_, rfl, rfl, rfl, rfl⟩
  rw [State.trigAt_congr _ (State.withCredit_ni _ ls f n), hnew]
  rfl

/-- An ERR without its operation is recorded as late, and raises vector 4 where it is enabled (R278). -/
theorem errReceive_ends_late (ht : r.pkt.type = 8) (hy : s.replyNamed r.pkt = none) (h : s.trigOp r.pkt.dstStand r.pkt.opId = none) :
    Ends (.errReceive r) s fun t =>
      t.flag COLL_EVENT_late_err = true ∧ t.ni = s.ni ∧ t.mem = s.mem ∧
      t.fld (CQ_TRIG_LATE_ERR_count r.pkt.dstStand) =
        min (CQ_TRIG_LATE_ERR_count 0).max (s.fld (CQ_TRIG_LATE_ERR_count r.pkt.dstStand) + 1) ∧
      t.fld (CQ_TRIG_LATE_ERR_last_op r.pkt.dstStand) = r.pkt.opId % 2 ^ 32 ∧
      t.fld (CQ_TRIG_LATE_ERR_last_cause r.pkt.dstStand) = r.pkt.knotValue % 256 ∧
      (s.flag (CQ_TRIG_CFG_irq_en r.pkt.dstStand) = true → s.pcie.link = true → s.pcie.vfEnable = true →
        r.pkt.dstStand + 1 ≤ s.pcie.numVfs → ∃ f, t.out = f ++ .msix (r.pkt.dstStand + 1) 4 :: s.out) := by
  have hu := hT.counts s hst
  obtain ⟨-, hp, -⟩ := hT.pkt
  have htake := (s.popHanded r.limb).takeErr_late (r := x) (by rw [hp, State.replyNamed_congr s hu.ni, hy])
    (by rw [hp, State.trigOp_congr s hu.ni, h])
  rw [hp] at htake
  generalize (s.popHanded r.limb).countRx x = u at hu htake
  obtain ⟨hni, hmem, hrd⟩ := u.lateErr_noted r.pkt
  obtain ⟨hlate, hcount, hop, hcause, -⟩ := u.lateErrNoted_fields r.pkt hst
  have hfld (g : Fld) : (u.lateErr r.pkt).fld g = (u.lateErrNoted r.pkt).fld g := congrArg g.of (hrd g.reg)
  have hflag : (u.lateErr r.pkt).flag COLL_EVENT_late_err = true := by unfold State.flag at hlate ⊢; rw [hfld]; exact hlate
  have hcountReg : ¬ countReg (CQ_TRIG_LATE_ERR r.pkt.dstStand) :=
    not_countReg (by unfold CQ_TRIG_LATE_ERR NI_RX_LATE; omega) (by unfold CQ_TRIG_LATE_ERR; omega)
  have hcfgReg : ¬ countReg (CQ_TRIG_CFG r.pkt.dstStand) :=
    not_countReg (by unfold CQ_TRIG_CFG NI_RX_LATE; omega) (by unfold CQ_TRIG_CFG; omega)
  rw [hu.fld _ hcountReg] at hcount
  refine hT.ends_err s hc ht _ htake (congrArg Ni.rxBuf (hni.trans hu.ni)) fun ls f n =>
    ⟨hflag, hni.trans hu.ni, hmem.trans hu.mem, (hfld _).trans hcount, (hfld _).trans hop, (hfld _).trans hcause, ?_⟩
  intro hirq hl hv hn
  rw [← hu.pcie] at hl hv hn
  exact ⟨f, by rw [State.withCredit_out, u.lateErr_out r.pkt hst ((hu.flag _ hcfgReg).trans hirq) hl hv hn, hu.out]⟩

end Sys2Proof.Machine
end

section
/-! SUPPORT. CHAIN_RECEIVE (R446, R448, R450, R456): what the holder of the token takes of a CHAIN packet. -/

namespace Sys2Proof.Machine

variable {s t : State}

theorem State.EventFrame.ni (h : s.EventFrame t) : t.ni = s.ni := by obtain ⟨_, _, _, _, _, _, rfl⟩ := h.only; rfl
theorem State.EventFrame.fw (h : s.EventFrame t) : t.fw = s.fw := by obtain ⟨_, _, _, _, _, _, rfl⟩ := h.only; rfl

variable (s)

/-! ### The two halves of a header and the parts of a record -/

theorem not_eventReg_FLASH_XFER : ¬ eventReg FLASH_XFER := by
  rintro (h | h | h | ⟨m, h⟩) <;> simp only [FLASH_XFER, PWR_WAKE, MBX_EVENT, MBX_LOG_STATUS, MBX_EVT_STATE] at h <;> omega

theorem State.xferState_frame (x : Nat) : (s.setFld FLASH_XFER_state x).EventFrame (s.xferState x) := State.eventOwner_frame _ _ _ _ _

/-- The first half of a header is kept, and the transfer waits for the second (R446). -/
theorem State.takeHeaderHalf_first {half : List Byte} {chk : HeaderCheck} (h : s.fw.half = none) :
    (s.takeHeaderHalf half chk).2.fw = { s.fw with half := some half } ∧ (s.takeHeaderHalf half chk).2.ni = s.ni ∧
    (s.takeHeaderHalf half chk).2.fld FLASH_XFER_header_result = 1 ∧ (s.takeHeaderHalf half chk).2.fld FLASH_XFER_state = 1 ∧
    s.MailboxesOnly (s.takeHeaderHalf half chk).2 := by
  have heq : (s.takeHeaderHalf half chk).2 =
      ((s.onFw fun f => { f with half := some half }).setFld FLASH_XFER_header_result 1).xferState 1 := by
    unfold State.takeHeaderHalf
    rw [h]
  have hev := State.xferState_frame ((s.onFw fun f => { f with half := some half }).setFld FLASH_XFER_header_result 1) 1
  rw [heq]
  refine ⟨hev.fw, hev.ni, ?_, ?_, hev.mem⟩
  · rw [hev.fld _ not_eventReg_FLASH_XFER, State.fld_setFld_apart _ _ _ _ rfl rfl, State.fld_setFld_self _ _ _ rfl]
    rfl
  · rw [hev.fld _ not_eventReg_FLASH_XFER, State.fld_setFld_self _ _ _ rfl]
    rfl

/-- A choice between two numbers within a bound is within it. -/
theorem ite_le_of_le {c : Prop} [Decidable c] {a b n : Nat} (ha : a ≤ n) (hb : b ≤ n) : (if c then a else b) ≤ n := by
  split
  · exact ha
  · exact hb

theorem headerResult_le (h : List Byte) (floor : Nat) (chk : HeaderCheck) : headerResult h floor chk ≤ 9 := by
  unfold headerResult
  repeat refine ite_le_of_le (by decide) ?_
  decide

/-- A whole header that is refused ends the transfer with its result (R448). -/
theorem State.takeHeaderHalf_refused {a half : List Byte} {chk : HeaderCheck} (h : s.fw.half = some a)
    (hr : headerResult (padTo 4096 a ++ padTo 4096 half) s.fuses.floor chk ≠ 0) :
    (s.takeHeaderHalf half chk).2.fw = { s.fw with half := none } ∧ (s.takeHeaderHalf half chk).2.ni = s.ni ∧
    (s.takeHeaderHalf half chk).2.fld FLASH_XFER_header_result = headerResult (padTo 4096 a ++ padTo 4096 half) s.fuses.floor chk ∧
    (s.takeHeaderHalf half chk).2.fld FLASH_XFER_state = 0 ∧ (s.takeHeaderHalf half chk).2.mem = s.mem := by
  generalize hres : headerResult (padTo 4096 a ++ padTo 4096 half) s.fuses.floor chk = result at hr
  have hle : result ≤ 9 := hres ▸ headerResult_le _ _ _
  have heq : (s.takeHeaderHalf half chk).2 =
      ((s.onFw fun f => { f with half := none }).setFld FLASH_XFER_header_result result).setFld FLASH_XFER_state 0 := by
    unfold State.takeHeaderHalf State.takeHeader
    rw [h]
    dsimp only
    rw [hres, if_neg hr]
  rw [heq]
  refine ⟨rfl, rfl, ?_, ?_, rfl⟩
  · rw [State.fld_setFld_apart _ _ _ _ rfl rfl, State.fld_setFld_self _ _ _ rfl]
    exact Nat.mod_eq_of_lt (Nat.lt_of_le_of_lt hle (by decide))
  · rw [State.fld_setFld_self _ _ _ rfl]
    rfl

/-- A part of a record is kept at its place, or completes its record (R448). -/
theorem State.takePiece_cases (n o : Nat) (bs : List Byte) :
    ∃ fw, s.takePiece n o bs = { s with fw } ∧
      (fw.complete = s.fw.complete ∧ (∃ ps, (n, (o, bs) :: ps) ∈ fw.parts) ∨
        ∃ whole, fw.complete = s.fw.complete ++ [(n, whole)] ∧ whole.length = recordBytes) := by
  unfold State.takePiece
  dsimp only
  split
  · exact ⟨_, rfl, .inr ⟨_, rfl, length_padTo _ _⟩⟩
  · exact ⟨_, rfl, .inl ⟨rfl, _, List.mem_cons_self ..⟩⟩

/-! ### What a CHAIN packet does -/

theorem State.takeChain_ignored {p : Packet} {chk : HeaderCheck} (h : s.token = 0 ∨ s.safeHold = true) : s.takeChain p chk = s :=
  if_pos h

section

variable {p : Packet} {chk : HeaderCheck} (htok : s.token ≠ 0) (hsafe : s.safeHold = false)
include htok hsafe

theorem State.takeChain_held :
    s.takeChain p chk =
      if p.opId = 0xFFFFFFFF then (if s.transferring then s else (s.takeHeaderHalf p.payload chk).2)
      else if s.transferring ∧ s.fw.complete.length < 2 then s.takePiece p.opId (p.pktIndex * 4096) p.payload
      else s :=
  if_neg (by rw [hsafe]; simpa using htok)

theorem State.takeChain_header (ho : p.opId = 0xFFFFFFFF) (hx : s.transferring = false) :
    s.takeChain p chk = (s.takeHeaderHalf p.payload chk).2 := by
  rw [s.takeChain_held htok hsafe, if_pos ho, hx]
  rfl

theorem State.takeChain_piece (ho : p.opId ≠ 0xFFFFFFFF) (hx : s.transferring = true) (hl : s.fw.complete.length < 2) :
    s.takeChain p chk = s.takePiece p.opId (p.pktIndex * 4096) p.payload := by
  rw [s.takeChain_held htok hsafe, if_neg ho, if_pos ⟨hx, hl⟩]

theorem State.takeChain_untimely
    (h : p.opId = 0xFFFFFFFF ∧ s.transferring = true ∨ p.opId ≠ 0xFFFFFFFF ∧ (s.transferring = false ∨ 2 ≤ s.fw.complete.length)) :
    s.takeChain p chk = s := by
  rw [s.takeChain_held htok hsafe]
  rcases h with ⟨ho, hx⟩ | ⟨ho, hx⟩
  · rw [if_pos ho, if_pos hx]
  · rw [if_neg ho, if_neg]
    rintro ⟨hx', hl⟩
    rcases hx with hx | hx
    · rw [hx] at hx'; exact Bool.false_ne_true hx'
    · omega

end

/-! ### The row -/

variable {r x : Rx} {chk : HeaderCheck} (hT : s.Takes { r with chk } x) (ht : r.pkt.type = 10) (hc : s.rxCheck x = 0)
include hT ht hc

theorem State.Takes.chainHeld_eq : (s.popHanded r.limb).rxHeld [] x = s.hw.pausing := by
  obtain ⟨-, hp, -⟩ := hT.pkt
  have hty : x.pkt.type = 10 := (congrArg Packet.type hp).trans ht
  have hcheck : (s.popHanded r.limb).rxCheck x = 0 := hc
  unfold State.rxHeld Rx.forHeartwood
  rw [hcheck, hty]
  rfl

/-- During the activation pause a CHAIN packet waits in its receive buffer (R456). -/
theorem chainReceive_ends_waiting (hpause : s.hw.pausing = true) :
    Ends (.chainReceive r chk) s fun t => t.ni = { s.ni with rxBuf := [x] } ∧ t = { s with ni := t.ni, limbs := t.limbs } :=
  hT.ends_held s (.inl ht) ((hT.chainHeld_eq s ht hc).trans hpause) ⟨rfl, rfl⟩

theorem State.Takes.ends_chain {P : State → Prop} (hpause : s.hw.pausing = false) (v : State)
    (hv : (s.popHanded r.limb).takeChain r.pkt chk = v) (hbuf : v.ni.rxBuf = s.ni.rxBuf) (hP : ∀ ls f n, P (v.withCredit ls f n)) :
    Ends (.chainReceive r chk) s P := by
  obtain ⟨-, hp, hchk⟩ := hT.pkt
  have htake : (s.popHanded r.limb).rxPacket x = v := by
    have hcheck : (s.popHanded r.limb).rxCheck x = 0 := hc
    have hty : x.pkt.type = 10 := (congrArg Packet.type hp).trans ht
    unfold State.rxPacket
    dsimp only
    rw [hcheck, hty, ← hv, hp, hchk]
    rfl
  obtain ⟨-, -, -, hempty, -, -⟩ := id hT
  exact hT.ends s (.inl ht) ((hT.chainHeld_eq s ht hc).trans hpause) v htake (hbuf.trans hempty) hP

variable (hpause : s.hw.pausing = false)
include hpause

/-- A CHAIN packet nobody takes is gone. -/
theorem chainReceive_ends_dropped (h : (s.popHanded r.limb).takeChain r.pkt chk = s.popHanded r.limb) :
    Ends (.chainReceive r chk) s fun t => t = { s with limbs := t.limbs, out := t.out, free := t.free } :=
  hT.ends_chain s ht hc hpause _ h rfl fun _ _ _ => rfl

theorem chainReceive_ends_firstHalf (htok : s.token ≠ 0) (hsafe : s.safeHold = false) (ho : r.pkt.opId = 0xFFFFFFFF)
    (hx : s.transferring = false) (hhalf : s.fw.half = none) :
    Ends (.chainReceive r chk) s fun t =>
      t.fw = { s.fw with half := some r.pkt.payload } ∧ t.fld FLASH_XFER_header_result = 1 ∧ t.fld FLASH_XFER_state = 1 ∧ s.MailboxesOnly t := by
  have htake := (s.popHanded r.limb).takeChain_header (p := r.pkt) (chk := chk) htok hsafe ho hx
  obtain ⟨hfw, hni, hres, hst, hmem⟩ := (s.popHanded r.limb).takeHeaderHalf_first (half := r.pkt.payload) (chk := chk) hhalf
  exact hT.ends_chain s ht hc hpause _ htake (congrArg Ni.rxBuf hni) fun _ _ _ => ⟨hfw, hres, hst, hmem⟩

theorem chainReceive_ends_refused (htok : s.token ≠ 0) (hsafe : s.safeHold = false) (ho : r.pkt.opId = 0xFFFFFFFF)
    (hx : s.transferring = false) {h : List Byte} (hhalf : s.fw.half = some h)
    (hr : headerResult (padTo 4096 h ++ padTo 4096 r.pkt.payload) s.fuses.floor chk ≠ 0) :
    Ends (.chainReceive r chk) s fun t =>
      t.fw = { s.fw with half := none } ∧
      t.fld FLASH_XFER_header_result = headerResult (padTo 4096 h ++ padTo 4096 r.pkt.payload) s.fuses.floor chk ∧
      t.fld FLASH_XFER_state = 0 ∧ t.mem = s.mem := by
  have htake := (s.popHanded r.limb).takeChain_header (p := r.pkt) (chk := chk) htok hsafe ho hx
  obtain ⟨hfw, hni, hres, hst, hmem⟩ := (s.popHanded r.limb).takeHeaderHalf_refused (half := r.pkt.payload) (chk := chk) hhalf hr
  exact hT.ends_chain s ht hc hpause _ htake (congrArg Ni.rxBuf hni) fun _ _ _ => ⟨hfw, hres, hst, hmem⟩

theorem chainReceive_ends_piece (htok : s.token ≠ 0) (hsafe : s.safeHold = false) (ho : r.pkt.opId ≠ 0xFFFFFFFF)
    (hx : s.transferring = true) (hl : s.fw.complete.length < 2) :
    Ends (.chainReceive r chk) s fun t =>
      t = { s with fw := t.fw, limbs := t.limbs, out := t.out, free := t.free } ∧
      (t.fw.complete = s.fw.complete ∧ (∃ ps, (r.pkt.opId, (r.pkt.pktIndex * 4096, r.pkt.payload) :: ps) ∈ t.fw.parts) ∨
        ∃ whole, t.fw.complete = s.fw.complete ++ [(r.pkt.opId, whole)] ∧ whole.length = recordBytes) := by
  have htake := (s.popHanded r.limb).takeChain_piece (p := r.pkt) (chk := chk) htok hsafe ho hx hl
  obtain ⟨fw, heq, hfw⟩ := (s.popHanded r.limb).takePiece_cases r.pkt.opId (r.pkt.pktIndex * 4096) r.pkt.payload
  exact hT.ends_chain s ht hc hpause _ (htake.trans heq) rfl fun _ _ _ => ⟨rfl, hfw⟩

end Sys2Proof.Machine
end

section
/-! SUPPORT. A packet that fails a receive check (R255, R260, R393): how it is noted, what is answered, and what stays as it was. -/

namespace Sys2Proof.Machine

variable {s t u : State}

/-! ### What follows the noting of a discard -/

/-- The registers that note a discard. -/
def dropReg (a : Nat) : Prop := a = NI_RX_DROP0 ∨ a = NI_RX_DROP1 ∨ a = NI_LAST_DROP

/-- What the answer to a discard and the events it raises leave as it was: the notes of the discard, operations, knots, values in force and, but for the
mailboxes, memory; `ps` is queued. -/
structure State.DropFrame (s t : State) (ps : List TxPkt) : Prop where
  only : t = { s with regs := t.regs, mem := t.mem, hw := t.hw, i3c := t.i3c, out := t.out, pcie := t.pcie, ni := t.ni }
  flag : t.flag NI_EVENT_rx_drop = s.flag NI_EVENT_rx_drop
  rd : ∀ a, dropReg a → t.rd a = s.rd a
  ni : t.ni = { s.ni with txq := s.ni.txq ++ ps, notices := t.ni.notices, noticed := t.ni.noticed }
  mem : s.MailboxesOnly t

namespace State.DropFrame

theorem trans {ps qs : List TxPkt} (h : s.DropFrame t ps) (k : t.DropFrame u qs) : s.DropFrame u (ps ++ qs) := by
  obtain ⟨honly, hflag, hrd, hni, hmem⟩ := h
  obtain ⟨konly, kflag, krd, kni, kmem⟩ := k
  refine ⟨by rw [konly, honly], kflag.trans hflag, fun a ha => (krd a ha).trans (hrd a ha), ?_, fun a ha => (kmem a ha).trans (hmem a ha)⟩
  rw [kni, hni, List.append_assoc]

/-- A change of registers that note no discard. -/
theorem of_onlyRegs {rs : List Nat} (h : s.OnlyRegs t rs) (hrs : ∀ a, dropReg a ∨ a = NI_EVENT → a ∉ rs) : s.DropFrame t [] := by
  obtain ⟨heq, hrd⟩ := h
  refine ⟨by rw [heq], ?_, fun a ha => hrd a (hrs a (.inl ha)), by rw [heq, List.append_nil], fun _ _ => by rw [heq]⟩
  unfold State.flag State.fld
  rw [hrd NI_EVENT_rx_drop.reg (hrs _ (.inr rfl))]

theorem of_eventFrame (h : s.EventFrame t) : s.DropFrame t [] := by
  have hreg : ∀ a, dropReg a ∨ a = NI_EVENT → ¬ eventReg a := by
    rintro a ((rfl | rfl | rfl) | rfl) <;> exact not_eventReg_of_lt (by decide)
  have hrd := fun a ha => h.rd a (hreg a ha)
  have hni := h.ni
  refine ⟨?_, ?_, fun a ha => hrd a (.inl ha), by rw [hni, List.append_nil], h.mem⟩
  · obtain ⟨_, _, _, _, _, _, rfl⟩ := h.only
    rfl
  · exact h.flag _ (hreg _ (.inr rfl))

theorem txq {ps : List TxPkt} (h : s.DropFrame t ps) : t.ni.txq = s.ni.txq ++ ps := by rw [h.ni]
theorem rxOps {ps : List TxPkt} (h : s.DropFrame t ps) : t.ni.rxOps = s.ni.rxOps := by rw [h.ni]
theorem rxBuf {ps : List TxPkt} (h : s.DropFrame t ps) : t.ni.rxBuf = s.ni.rxBuf := by rw [h.ni]
theorem trigs {ps : List TxPkt} (h : s.DropFrame t ps) : t.ni.trigs = s.ni.trigs := by rw [h.ni]
theorem knots {ps : List TxPkt} (h : s.DropFrame t ps) : t.knots = s.knots := by rw [h.only]
theorem kops {ps : List TxPkt} (h : s.DropFrame t ps) : t.kops = s.kops := by rw [h.only]
theorem live {ps : List TxPkt} (h : s.DropFrame t ps) : t.live = s.live := by rw [h.only]
theorem fw {ps : List TxPkt} (h : s.DropFrame t ps) : t.fw = s.fw := by rw [h.only]

end State.DropFrame

variable (s)

/-- Notices of a fault wait to be sent, or are counted as dropped (R393). -/
theorem State.notice_frame (io code node epoch : Nat) : s.DropFrame (s.notice io code node epoch) [] := by
  have hrefl (u : State) : u.DropFrame u [] := .of_onlyRegs (.refl u []) fun _ _ => List.not_mem_nil
  unfold State.notice
  split
  · exact hrefl s
  · refine State.forEach_keeps (s.DropFrame · []) _ _ (fun sink t ht => ?_) s (hrefl s)
    refine ht.trans (?_ : t.DropFrame _ [])
    extract_lets n valid route
    split
    · exact hrefl t
    · split
      · refine .of_onlyRegs (t.setFld_onlyRegs MBX_RED_NOTICE_dropped _) ?_
        rintro a ((rfl | rfl | rfl) | rfl) <;> decide
      · exact ⟨rfl, rfl, fun _ _ => rfl, by rw [List.append_nil]; rfl, fun _ _ => rfl⟩

/-- The event and the notices of a source that fails check 4 (R260). -/
theorem State.staleSource_frame (r : Rx) : s.DropFrame (s.staleSource r) [] := by
  have hset : s.DropFrame (s.setFlag NI_EVENT_stale_src true) [] :=
    ⟨rfl, State.flag_setFlag_apart s NI_EVENT_stale_src NI_EVENT_rx_drop true rfl rfl,
      fun a ha => s.rd_setFlag_ne _ _ (by rcases ha with rfl | rfl | rfl <;> decide), by rw [List.append_nil]; rfl, fun _ _ => rfl⟩
  exact (hset.trans (.of_eventFrame (State.eventOnce_frame _ _ _ _ _))).trans (State.notice_frame _ _ _ _ _)

theorem State.standFault_drop {st : Nat} (cause : Nat) (hst : st < 16) : s.DropFrame (s.standFault st cause) [] := by
  refine .of_onlyRegs (s.standFault_onlyRegs st cause) fun a ha => ?_
  have hlt : a < 0x800000 := by rcases ha with (rfl | rfl | rfl) | rfl <;> decide
  simp only [List.mem_cons, List.not_mem_nil, or_false, STAND_FAULT, PERF_STAND_CTR]
  omega

/-- An ERR tells the source which packet was refused, and why (R255). -/
theorem State.sendErr_frame (r : Rx) (cause : Nat) (h : r.pkt.type ≠ 7) :
    ∃ q : TxPkt, s.DropFrame (s.sendErr r cause) [q] ∧ q.pkt.type = 8 ∧ q.pkt.knotValue = cause ∧ q.pkt.remote = r.pkt.pktIndex ∧
      q.pkt.dstNode = r.pkt.srcNode := by
  unfold State.sendErr
  rw [if_neg h]
  exact ⟨_, ⟨rfl, rfl, fun _ _ => rfl, rfl, fun _ _ => rfl⟩, rfl, rfl, rfl, rfl⟩

/-! ### The noting of a discard -/

/-- The state in which a packet's discard is flagged, counted and recorded. -/
def State.dropNoted (s : State) (check : Nat) (r : Rx) : State :=
  ((s.setFlag NI_EVENT_rx_drop true).count (dropCounter check) 1).lastDrop check r

theorem dropCounter_reg (check : Nat) : (dropCounter check).reg = NI_RX_DROP0 ∨ (dropCounter check).reg = NI_RX_DROP1 := by
  unfold dropCounter
  split <;> decide

theorem dropCounter_ok (check : Nat) : (dropCounter check).ok = true := by
  unfold dropCounter
  split <;> rfl

/-- NI_LAST_DROP after a discard (R255). -/
theorem State.lastDrop_rd (check : Nat) (r : Rx) :
    (s.lastDrop check r).rd NI_LAST_DROP =
      NI_LAST_DROP_src_rank.put (NI_LAST_DROP_limb.put (NI_LAST_DROP_src_epoch.put (NI_LAST_DROP_src_node.put
        (NI_LAST_DROP_dst_stand.put (NI_LAST_DROP_check.put 0#64 check) r.pkt.dstStand) r.pkt.srcNode) r.pkt.srcEpoch) r.limb) r.pkt.srcRank :=
  State.rd_wr_self _ _ _

theorem State.dropNoted_fields (check : Nat) (r : Rx) (hcheck : check < 8) (hst : r.pkt.dstStand < 16) :
    (s.dropNoted check r).flag NI_EVENT_rx_drop = true ∧ (s.dropNoted check r).fld NI_LAST_DROP_check = check ∧
    (s.dropNoted check r).fld NI_LAST_DROP_dst_stand = r.pkt.dstStand ∧
    (s.dropNoted check r).fld (dropCounter check) = min (dropCounter check).max (s.fld (dropCounter check) + 1) := by
  have hreg := dropCounter_reg check
  have hev : NI_EVENT ≠ (dropCounter check).reg := by rcases hreg with h | h <;> rw [h] <;> decide
  have hlast : (dropCounter check).reg ≠ NI_LAST_DROP := by rcases hreg with h | h <;> rw [h] <;> decide
  have hword := State.lastDrop_rd ((s.setFlag NI_EVENT_rx_drop true).count (dropCounter check) 1) check r
  refine ⟨?_, ?_, ?_, ?_⟩
  · refine Eq.trans ?_ (s.flag_setFlag_self NI_EVENT_rx_drop true rfl)
    have hrd : (s.dropNoted check r).rd NI_EVENT = (s.setFlag NI_EVENT_rx_drop true).rd NI_EVENT :=
      (State.rd_wr_ne _ _ (by decide)).trans (State.rd_count_ne _ _ _ hev)
    exact congrArg (fun w => NI_EVENT_rx_drop.of w == 1) hrd
  · refine (congrArg NI_LAST_DROP_check.of hword).trans ?_
    rw [Fld.of_put_apart _ _ _ _ rfl (by decide), Fld.of_put_apart _ _ _ _ rfl (by decide), Fld.of_put_apart _ _ _ _ rfl (by decide),
      Fld.of_put_apart _ _ _ _ rfl (by decide), Fld.of_put_apart _ _ _ _ rfl (by decide), Fld.of_put _ _ _ rfl]
    exact Nat.mod_eq_of_lt hcheck
  · refine (congrArg NI_LAST_DROP_dst_stand.of hword).trans ?_
    rw [Fld.of_put_apart _ _ _ _ rfl (by decide), Fld.of_put_apart _ _ _ _ rfl (by decide), Fld.of_put_apart _ _ _ _ rfl (by decide),
      Fld.of_put_apart _ _ _ _ rfl (by decide), Fld.of_put _ _ _ rfl]
    exact Nat.mod_eq_of_lt hst
  · unfold State.dropNoted State.lastDrop State.fld
    rw [State.rd_wr_ne _ _ hlast]
    refine (State.fld_count_self _ (dropCounter check) 1 (dropCounter_ok check)).trans ?_
    unfold State.fld
    rw [s.rd_setFlag_ne NI_EVENT_rx_drop true hev.symm]

/-- A discard is noted; a stand or a range refused is answered, but for a MACK (R255, R264). -/
theorem State.rxDrop_frame (check : Nat) (r : Rx) (hst : r.pkt.dstStand < 16) :
    ∃ ps, (s.dropNoted check r).DropFrame (s.rxDrop check r) ps ∧
      ((check = 5 ∨ check = 6) ∧ r.pkt.type ≠ 7 →
        ∃ q, ps = [q] ∧ q.pkt.type = 8 ∧ q.pkt.knotValue = check ∧ q.pkt.remote = r.pkt.pktIndex ∧ q.pkt.dstNode = r.pkt.srcNode) ∧
      ((check ≠ 5 ∧ check ≠ 6) ∨ r.pkt.type = 7 → ps = []) := by
  have hrefl (v : State) : v.DropFrame v [] := .of_onlyRegs (.refl v []) fun _ _ => List.not_mem_nil
  have hmack (v : State) (h : r.pkt.type = 7) : v.sendErr r check = v := if_pos h
  show ∃ ps, (s.dropNoted check r).DropFrame
    (match check with
      | 4 => if r.pkt.type = 7 then s.dropNoted check r else (s.dropNoted check r).staleSource r
      | 5 => (s.dropNoted check r).sendErr r 5
      | 6 => ((s.dropNoted check r).standFault r.pkt.dstStand 1).sendErr r 6
      | _ => s.dropNoted check r) ps ∧ _
  generalize s.dropNoted check r = u
  split
  · refine ⟨[], ?_, by omega, fun _ => rfl⟩
    split
    · exact hrefl u
    · exact u.staleSource_frame r
  · by_cases h : r.pkt.type = 7
    · exact ⟨[], by rw [hmack u h]; exact hrefl u, fun hq => absurd h hq.2, fun _ => rfl⟩
    · obtain ⟨q, hq, hpkt⟩ := u.sendErr_frame r 5 h
      exact ⟨[q], hq, fun _ => ⟨q, rfl, hpkt⟩, by omega⟩
  · have hfault := u.standFault_drop 1 hst
    by_cases h : r.pkt.type = 7
    · exact ⟨[], by rw [hmack _ h]; exact hfault, fun hq => absurd h hq.2, fun _ => rfl⟩
    · obtain ⟨q, hq, hpkt⟩ := State.sendErr_frame (u.standFault r.pkt.dstStand 1) r 6 h
      exact ⟨[q], hfault.trans hq, fun _ => ⟨q, rfl, hpkt⟩, by omega⟩
  · next h4 h5 h6 => exact ⟨[], hrefl u, fun hq => (hq.1.elim h5 h6).elim, fun _ => rfl⟩

/-! ### The receive checks -/

theorem State.rxCheck_le (r : Rx) : s.rxCheck r ≤ 7 := by
  unfold State.rxCheck
  dsimp only
  repeat refine ite_le_of_le (by decide) ?_
  decide

/-- A packet of a type that is not defined fails check 1. -/
theorem State.rxCheck_undefined {r : Rx} (h : r.pkt.type = 0 ∨ 10 < r.pkt.type) : s.rxCheck r = 1 := by
  have h1 : s.check1 r = false := by
    unfold State.check1
    rcases h with h | h
    · simp [h]
    · have hgt : ¬ r.pkt.type ≤ 10 := by omega
      simp [hgt]
  unfold State.rxCheck
  simp [h1]

theorem State.rxPacket_drop {r : Rx} (h : s.rxCheck r ≠ 0) : s.rxPacket r = s.rxDrop (s.rxCheck r) r := by
  obtain ⟨n, hn⟩ := Nat.exists_eq_succ_of_ne_zero h
  unfold State.rxPacket
  rw [hn]

theorem State.rxHeld_drop {r : Rx} (before : List Rx) (h : s.rxCheck r ≠ 0) : s.rxHeld before r = false := by
  unfold State.rxHeld
  rw [beq_false_of_ne h]
  rfl

/-! ### The rows -/

/-- The rows that take a packet of each type, and the packet as each takes it. -/
def receiveRows (r : Rx) (chk : HeaderCheck) : List (Nat × Rx × Instr) :=
  [(1, r, Instr.putReceive r), (2, r, .getReqReceive r), (3, r, .getRespReceive r), (4, r, .knotPacketReceive r),
    (5, r, .reduceReceive r), (6, r, .mcastPutReceive r), (7, r, .mackReceive r), (8, r, .errReceive r), (9, r, .faultReceive r),
    (10, { r with chk }, .chainReceive r chk)]

theorem exec_receiveRow {r y : Rx} {chk : HeaderCheck} {type : Nat} {c : Instr} (h : (type, y, c) ∈ receiveRows r chk) :
    exec c s = s.rxRow type y ∧ y.limb = r.limb ∧ y.pkt = r.pkt := by
  simp only [receiveRows, List.mem_cons, Prod.mk.injEq, List.not_mem_nil, or_false] at h
  rcases h with ⟨rfl, rfl, rfl⟩ | ⟨rfl, rfl, rfl⟩ | ⟨rfl, rfl, rfl⟩ | ⟨rfl, rfl, rfl⟩ | ⟨rfl, rfl, rfl⟩ | ⟨rfl, rfl, rfl⟩ | ⟨rfl, rfl, rfl⟩ |
    ⟨rfl, rfl, rfl⟩ | ⟨rfl, rfl, rfl⟩ | ⟨rfl, rfl, rfl⟩ <;> exact ⟨rfl, rfl, rfl⟩

/-- A row takes nothing from a limb that is not ACTIVE or not clocked or does not carry the packet's class, nor a packet of another type. -/
theorem State.rxRow_untaken {y : Rx} {type : Nat}
    (h : s.limbActive y.limb = false ∨ s.limbOn y.limb = false ∨ ((s.asHanded y).sched = true ∧ s.limbCarries y.limb 0 = false) ∨
      (y.pkt.type ≠ type ∧ 1 ≤ y.pkt.type ∧ y.pkt.type ≤ 10)) : s.rxRow type y = .next s := by
  unfold State.rxRow
  rw [State.when_next, if_neg]
  rcases h with h | h | ⟨h, h'⟩ | ⟨h, h', h''⟩
  · simp [h]
  · simp [h]
  · simp [h, h']
  · have hne : ¬ y.pkt.type = 0 := by omega
    have hle : ¬ 10 < y.pkt.type := by omega
    simp [h, hne, hle]

/-- What a row leaves of a packet that fails a check (R255). -/
def State.Discards (s t : State) (r : Rx) (check type : Nat) : Prop :=
  t.flag NI_EVENT_rx_drop = true ∧ t.fld NI_LAST_DROP_check = check ∧ t.fld NI_LAST_DROP_dst_stand = r.pkt.dstStand ∧
  t.fld (dropCounter check) = min (dropCounter check).max (s.fld (dropCounter check) + 1) ∧
  (((check = 5 ∨ check = 6) ∧ type ≠ 7 →
    ∃ q, t.ni.txq = s.ni.txq ++ [q] ∧ q.pkt.type = 8 ∧ q.pkt.knotValue = check ∧ q.pkt.remote = r.pkt.pktIndex ∧ q.pkt.dstNode = r.pkt.srcNode) ∧
   (check < 5 ∨ check = 7 ∨ type = 7 → t.ni.txq = s.ni.txq)) ∧
  t.ni.rxOps = s.ni.rxOps ∧ t.ni.trigs = s.ni.trigs ∧ t.knots = s.knots ∧ t.kops = s.kops ∧ t.live = s.live ∧ t.fw = s.fw ∧ s.MailboxesOnly t

/-- A discard's notes and what follows them. -/
theorem State.rxDrop_discards {r : Rx} {check type : Nat} (hcheck : check < 8) (hst : r.pkt.dstStand < 16)
    (htype : check = 1 ∨ r.pkt.type = type) (ls : SMap Limb) (f : List Out) (n : Nat) :
    s.Discards ((s.rxDrop check r).withCredit ls f n) r check type := by
  have hanswered : (check = 5 ∨ check = 6) ∧ type ≠ 7 → r.pkt.type ≠ 7 := by omega
  have hsilent : check < 5 ∨ check = 7 ∨ type = 7 → (check ≠ 5 ∧ check ≠ 6) ∨ r.pkt.type = 7 := by omega
  obtain ⟨hflag, hlast, hstand, hcount⟩ := s.dropNoted_fields check r hcheck hst
  obtain ⟨ps, hframe, herr, hquiet⟩ := s.rxDrop_frame check r hst
  have hctr : (s.rxDrop check r).fld (dropCounter check) = (s.dropNoted check r).fld (dropCounter check) :=
    congrArg (dropCounter check).of (hframe.rd _ ((dropCounter_reg check).imp id .inl))
  have hnote (g : Fld) (hg : g.reg = NI_LAST_DROP) : (s.rxDrop check r).fld g = (s.dropNoted check r).fld g :=
    congrArg g.of (hframe.rd _ (.inr (.inr hg)))
  refine ⟨hframe.flag.trans hflag, (hnote _ rfl).trans hlast, (hnote _ rfl).trans hstand, hctr.trans hcount, ⟨fun h => ?_, fun h => ?_⟩,
    hframe.rxOps, hframe.trigs, hframe.knots, hframe.kops, hframe.live, hframe.fw, hframe.mem⟩
  · obtain ⟨q, rfl, hq⟩ := herr ⟨h.1, hanswered h⟩
    exact ⟨q, hframe.txq, hq⟩
  · rw [hquiet (hsilent h)] at hframe
    exact hframe.txq.trans (List.append_nil _)

/-- A row discards a packet of its type, or of none, that fails a check (R255). -/
theorem State.Takes.ends_discarded {r x y : Rx} {chk : HeaderCheck} {type : Nat} {c : Instr} (hrow : (type, y, c) ∈ receiveRows r chk)
    (hT : s.Takes y x) (hst : r.pkt.dstStand < 16) (ht : r.pkt.type = type ∨ r.pkt.type = 0 ∨ 10 < r.pkt.type) (hc : s.rxCheck x ≠ 0) :
    Ends c s fun t => s.Discards t r (s.rxCheck x) type := by
  obtain ⟨hexec, -, hyp⟩ := exec_receiveRow s hrow
  have hp : x.pkt = r.pkt := hT.pkt.2.1.trans hyp
  have htype : s.rxCheck x = 1 ∨ x.pkt.type = type := by
    rw [hp]
    exact ht.symm.imp (fun h => s.rxCheck_undefined (by rw [hp]; exact h)) id
  have hst' : x.pkt.dstStand < 16 := by rw [hp]; exact hst
  have hpacket : (s.popHanded y.limb).rxPacket x = (s.popHanded y.limb).rxDrop (s.rxCheck x) x := State.rxPacket_drop _ hc
  obtain ⟨ps, hframe, -⟩ := (s.popHanded y.limb).rxDrop_frame (s.rxCheck x) x hst'
  obtain ⟨-, -, -, hempty, -, -⟩ := id hT
  have hends := hT.ends s (P := fun t => s.Discards t x (s.rxCheck x) type) (by rw [hyp]; exact ht) (State.rxHeld_drop _ _ hc) _ hpacket
    (hframe.rxBuf.trans hempty) (State.rxDrop_discards (s.popHanded y.limb) (Nat.lt_succ_of_le (s.rxCheck_le x)) hst' htype)
  unfold State.Discards at hends ⊢
  rw [hp] at hends
  unfold Ends
  rw [hexec]
  exact hends

end Sys2Proof.Machine
end

section
/-! SUPPORT. OP_EXPIRE (R241) and FIRE_MESSAGE_RECEIVE (R171, R273). -/

namespace Sys2Proof.Machine

variable (s : State)

/-! ### Operations that expire -/

/-- What NI_OP_EXPIRED records of an operation dropped (R241). -/
def State.expiryNoted (s : State) (o : RxOp) : State :=
  (((s.count NI_OP_EXPIRED_count 1).setFld NI_OP_EXPIRED_last_src_node o.srcNode).setFld NI_OP_EXPIRED_last_dst_stand o.dstStand).setFld
    NI_OP_EXPIRED_last_src_epoch o.srcEpoch

theorem State.expiryNoted_onlyRegs (o : RxOp) : s.OnlyRegs (s.expiryNoted o) [NI_OP_EXPIRED] :=
  (((s.setFld_onlyRegs NI_OP_EXPIRED_count _).trans (State.setFld_onlyRegs _ NI_OP_EXPIRED_last_src_node _)).trans
    (State.setFld_onlyRegs _ NI_OP_EXPIRED_last_dst_stand _)).trans (State.setFld_onlyRegs _ NI_OP_EXPIRED_last_src_epoch _)

theorem State.expiryNoted_fields (o : RxOp) :
    (s.expiryNoted o).fld NI_OP_EXPIRED_count = min NI_OP_EXPIRED_count.max (s.fld NI_OP_EXPIRED_count + 1) ∧
    (s.expiryNoted o).fld NI_OP_EXPIRED_last_src_node = o.srcNode % 4096 ∧
    (s.expiryNoted o).fld NI_OP_EXPIRED_last_dst_stand = o.dstStand % 16 := by
  unfold State.expiryNoted
  refine ⟨?_, ?_, ?_⟩
  · rw [State.fld_setFld_apart _ _ _ _ rfl rfl, State.fld_setFld_apart _ _ _ _ rfl rfl, State.fld_setFld_apart _ _ _ _ rfl rfl,
      State.fld_count_self _ _ _ rfl]
  · rw [State.fld_setFld_apart _ _ _ _ rfl rfl, State.fld_setFld_apart _ _ _ _ rfl rfl, State.fld_setFld_self _ _ _ rfl]
    rfl
  · rw [State.fld_setFld_apart _ _ _ _ rfl rfl, State.fld_setFld_self _ _ _ rfl]
    rfl

theorem exec_opExpire {i : Nat} {o : RxOp} (h : s.ni.rxOps[i]? = some o) :
    exec (.opExpire i) s = s.when (decide (max 1 (s.liveFld NI_CFG_op_timeout) ≤ o.idle))
      ((s.onNi fun n => { n with rxOps := n.rxOps.eraseIdx i }).expiryNoted o).rxRetry := by
  show execOpExpire i s = _
  unfold execOpExpire
  rw [h]
  rfl

/-- An operation without a packet for op_timeout rings is dropped and counted (R241). -/
theorem opExpire_ends_dropped {i : Nat} {o : RxOp} (h : s.ni.rxOps[i]? = some o) (hidle : max 1 (s.liveFld NI_CFG_op_timeout) ≤ o.idle)
    (hbuf : s.ni.rxBuf = []) :
    Ends (.opExpire i) s fun t =>
      t.ni = { s.ni with rxOps := s.ni.rxOps.eraseIdx i } ∧
      t.fld NI_OP_EXPIRED_count = min NI_OP_EXPIRED_count.max (s.fld NI_OP_EXPIRED_count + 1) ∧
      t.fld NI_OP_EXPIRED_last_src_node = o.srcNode % 4096 ∧ t.fld NI_OP_EXPIRED_last_dst_stand = o.dstStand % 16 ∧
      s.SameRegsBut t [NI_OP_EXPIRED] ∧ t = { s with regs := t.regs, ni := t.ni } := by
  have hexec := exec_opExpire s h
  rw [decide_eq_true hidle, State.when_true, State.rxRetry_of_empty _ (by exact hbuf)] at hexec
  obtain ⟨hcount, hnode, hstand⟩ := (s.onNi fun n => { n with rxOps := n.rxOps.eraseIdx i }).expiryNoted_fields o
  obtain ⟨-, hrd⟩ := (s.onNi fun n => { n with rxOps := n.rxOps.eraseIdx i }).expiryNoted_onlyRegs o
  exact ⟨_, hexec, rfl, hcount, hnode, hstand, hrd, rfl⟩

theorem opExpire_ends_early {i : Nat} {o : RxOp} (h : s.ni.rxOps[i]? = some o) (hidle : o.idle < max 1 (s.liveFld NI_CFG_op_timeout)) :
    Ends (.opExpire i) s fun t => t = s :=
  ⟨s, by rw [exec_opExpire s h, decide_eq_false (by omega), State.when_false], rfl⟩

theorem opExpire_ends_absent {i : Nat} (h : s.ni.rxOps.length ≤ i) : Ends (.opExpire i) s fun t => t = s := by
  refine ⟨s, ?_, rfl⟩
  show execOpExpire i s = _
  unfold execOpExpire
  rw [List.getElem?_eq_none h]

/-! ### Fire messages -/

/-- Noting the latest lclk changes the clock and RING_TIME only. -/
theorem State.atLclk_only (lclk : Nat) :
    s.atLclk lclk = { s with clk := (s.atLclk lclk).clk, regs := (s.atLclk lclk).regs } ∧ s.SameRegsBut (s.atLclk lclk) [RING_TIME] := by
  unfold State.atLclk
  dsimp only
  split
  · exact ⟨rfl, fun a ha => State.rd_setFld_ne _ _ _ fun h => ha (List.mem_singleton.mpr h)⟩
  · exact ⟨rfl, fun _ _ => rfl⟩

/-- A fire counts at its NI. -/
theorem State.noteFire_count (io k : Nat) :
    (s.noteFire io k).ni.fires.get 0 (io * 4096 + k) = (s.ni.fires.get 0 (io * 4096 + k) + 1) % 65536 := by
  show SMap.get 0 (SMap.modify 0 s.ni.fires (io * 4096 + k) fun x => (x + 1) % 65536) (io * 4096 + k) = _
  rw [SMap.get_modify, if_pos rfl]

/-- No trigger that waits for a fire that has come stays posted (R273). -/
theorem State.noteFire_readies (io k : Nat) {x : Trig} (hx : x ∈ (s.noteFire io k).ni.trigs) (hposted : x.state = .posted) (hio : x.io = io)
    (hflag : tFlag x.desc 1 = true) (hknot : tTrigKnot x.desc = k) :
    serialGe 16 ((s.noteFire io k).ni.fires.get 0 (io * 4096 + k)) (tFireSeq x.desc) = false := by
  obtain ⟨y, -, hy⟩ := List.mem_map.mp hx
  split at hy
  · rw [← hy] at hposted
    exact absurd hposted (by simp)
  · next hwaits =>
    subst hy
    rw [← Bool.not_eq_true]
    intro hreached
    refine hwaits ?_
    simp only [hposted, hio, hflag, hknot, beq_self_eq_true, Bool.true_and]
    exact hreached

theorem fireMessageReceive_ends_none {io k lclk : Nat}
    (h : (s.fires.find? fun m => m.io == io && m.knot == k && decide (m.due ≤ lclk)) = none) :
    Ends (.fireMessageReceive io k lclk) s fun t => t = s := by
  refine ⟨s, ?_, rfl⟩
  show execFireMessageReceive io k lclk s = _
  unfold execFireMessageReceive
  rw [h]

theorem exec_fireMessageReceive_due {io k lclk : Nat} {m : FireMsg}
    (h : (s.fires.find? fun m => m.io == io && m.knot == k && decide (m.due ≤ lclk)) = some m) :
    exec (.fireMessageReceive io k lclk) s = .next ((State.atLclk { s with fires := s.fires.erase m } lclk).noteFire io k) := by
  show execFireMessageReceive io k lclk s = _
  unfold execFireMessageReceive
  rw [h]

/-- A fire message that is due leaves the messages under way, counts at its NI and readies the triggers that wait for it (R171, R273). -/
theorem fireMessageReceive_ends_due {io k lclk : Nat} {m : FireMsg}
    (h : (s.fires.find? fun m => m.io == io && m.knot == k && decide (m.due ≤ lclk)) = some m) :
    Ends (.fireMessageReceive io k lclk) s fun t =>
      t.fires = s.fires.erase m ∧ t.ni.fires.get 0 (io * 4096 + k) = (s.ni.fires.get 0 (io * 4096 + k) + 1) % 65536 ∧
      (∀ x ∈ t.ni.trigs, x.state = .posted → x.io = io → tFlag x.desc 1 = true → tTrigKnot x.desc = k →
        serialGe 16 (t.ni.fires.get 0 (io * 4096 + k)) (tFireSeq x.desc) = false) ∧
      t.knots = s.knots ∧ t.kops = s.kops ∧ t.mem = s.mem ∧ s.SameRegsBut t [RING_TIME] := by
  obtain ⟨honly, hrd⟩ := State.atLclk_only { s with fires := s.fires.erase m } lclk
  generalize hu : State.atLclk { s with fires := s.fires.erase m } lclk = u at honly hrd
  have hni : u.ni = s.ni := by rw [honly]
  refine ⟨u.noteFire io k, by rw [exec_fireMessageReceive_due s h, hu], ?_, ?_, fun x hx => u.noteFire_readies io k hx, ?_, ?_, ?_, hrd⟩
  · exact (congrArg State.fires honly :)
  · rw [u.noteFire_count, hni]
  · exact (congrArg State.knots honly :)
  · exact (congrArg State.kops honly :)
  · exact (congrArg State.mem honly :)

/-! ### The statement -/

/-- Settles O42: each clause by the lemma of its row. What an ERR carries, which packets none answers and when waiting packets are looked at again are
readings of the model (log entries 42, 68 and 82). -/
theorem repliesDiscardsAndFires : Obligations.RepliesDiscardsAndFires := by
  refine ⟨fun s r x hT hst hc => ⟨fun ht => ⟨?_, ?_⟩, fun ht => ⟨?_, fun hy => ⟨?_, ?_⟩⟩⟩,
    fun s r x chk hT ht hc => ⟨?_, fun hpause => ⟨?_, ?_⟩⟩, fun s r chk type y c hrow => ⟨?_, ?_⟩,
    fun s => ⟨fun i => ⟨?_, ?_⟩, fun io k lclk => ⟨?_, ?_⟩⟩⟩
  · exact fun tr h => mackReceive_ends_open s hT hst hc ht h
  · exact mackReceive_ends_late s hT hst hc ht
  · exact fun y h => errReceive_ends_reply s hT hst hc ht h
  · obtain ⟨-, hp, -⟩ := hT.pkt
    refine fun tr h hat => ⟨fun hcause => ?_, fun hcause hkept => ?_, fun q hcause hkept => ?_⟩
    · refine errReceive_ends_failed s hT hst hc ht hy h hat fun u => ?_
      rw [← hp]
      exact u.errOf_cause tr (by rw [hp]; exact hcause)
    · exact errReceive_ends_failed s hT hst hc ht hy h hat fun u => u.errOf_unkept (by rw [hp]; exact hcause) (by rw [hp]; exact hkept)
    · exact errReceive_ends_resent s hT hst hc ht hy h hat hcause hkept
  · exact errReceive_ends_late s hT hst hc ht hy
  · exact chainReceive_ends_waiting s hT ht hc
  · exact fun h => chainReceive_ends_dropped s hT ht hc hpause (State.takeChain_ignored _ h)
  · refine fun htok hsafe => ⟨fun ho hx => ⟨?_, fun h hhalf => ?_⟩, ?_, fun h => ?_⟩
    · exact chainReceive_ends_firstHalf s hT ht hc hpause htok hsafe ho hx
    · exact chainReceive_ends_refused s hT ht hc hpause htok hsafe ho hx hhalf
    · exact chainReceive_ends_piece s hT ht hc hpause htok hsafe
    · exact chainReceive_ends_dropped s hT ht hc hpause (State.takeChain_untimely (s.popHanded r.limb) htok hsafe h)
  · exact fun x hT hst ht hc => hT.ends_discarded s hrow hst ht hc
  · obtain ⟨hexec, hl, hp⟩ := exec_receiveRow s hrow
    intro h
    rw [← hl, ← hp] at h
    exact ⟨s, hexec.trans (s.rxRow_untaken h), rfl⟩
  · exact fun o h => ⟨opExpire_ends_dropped s h, opExpire_ends_early s h⟩
  · exact opExpire_ends_absent s
  · exact fireMessageReceive_ends_none s
  · exact fun m h => fireMessageReceive_ends_due s h

end Sys2Proof.Machine
end

section
/-! SUPPORT. The calendar's months, leap years and valid stamps (R355, R356). -/

namespace Sys2Proof.Machine

/-! ### Leap years and months -/

theorem leapYear_iff (y : Nat) : leapYear y = true ↔ 400 ∣ y ∨ 4 ∣ y ∧ ¬ 100 ∣ y := by
  simp only [leapYear, Nat.dvd_iff_mod_eq_zero, Bool.or_eq_true, Bool.and_eq_true, Bool.not_eq_true', beq_eq_false_iff_ne, beq_iff_eq, ne_eq]

@[simp] theorem monthDays_february (y : Nat) : monthDays y 2 = if leapYear y = true then 29 else 28 := rfl

theorem monthDays_thirty (y : Nat) {m : Nat} (h : m = 4 ∨ m = 6 ∨ m = 9 ∨ m = 11) : monthDays y m = 30 := by
  obtain rfl | rfl | rfl | rfl := h <;> rfl

theorem monthDays_thirtyOne (y : Nat) {m : Nat} (h2 : m ≠ 2) (h4 : m ≠ 4) (h6 : m ≠ 6) (h9 : m ≠ 9) (h11 : m ≠ 11) :
    monthDays y m = 31 := by
  simp [monthDays, h2, h4, h6, h9, h11]

/-! ### Stamps -/

/-- A stamp is valid exactly when each of its fields lies in its range and its day in its month (R356). -/
theorem stampOk_iff (b : List Byte) :
    stampOk b = true ↔
      (2000 ≤ bytesAt b 0 2 ∧ bytesAt b 0 2 ≤ 2399) ∧ (1 ≤ bytesAt b 2 1 ∧ bytesAt b 2 1 ≤ 12) ∧
      (1 ≤ bytesAt b 3 1 ∧ bytesAt b 3 1 ≤ monthDays (bytesAt b 0 2) (bytesAt b 2 1)) ∧
      (bytesAt b 4 1 ≤ 23 ∧ bytesAt b 5 1 ≤ 59 ∧ bytesAt b 6 1 ≤ 59) ∧ bytesAt b 7 1 = 0 ∧ bytesAt b 8 4 ≤ 999999 := by
  simp only [stampOk, Bool.and_eq_true, decide_eq_true_eq, beq_iff_eq, and_assoc]

theorem year_le_of_stampOk {b : List Byte} (h : stampOk b = true) : bytesAt b 0 2 ≤ 2399 := by
  obtain ⟨⟨-, hyear⟩, -⟩ := (stampOk_iff b).mp h
  exact hyear

theorem day_le_of_stampOk {b : List Byte} (h : stampOk b = true) :
    bytesAt b 3 1 ≤ monthDays (bytesAt b 0 2) (bytesAt b 2 1) := by
  obtain ⟨-, -, ⟨-, hday⟩, -⟩ := (stampOk_iff b).mp h
  exact hday

/-! ### The statement -/

/-- Settles O47: the months case by case, the rule of leap years with its boundary years, and the bounds a valid stamp keeps. -/
theorem monthsAndLeapYears : Obligations.MonthsAndLeapYears := by
  refine ⟨fun y m _ _ => ⟨monthDays_thirty y, ?_, monthDays_thirtyOne y⟩, leapYear_iff, ?_, ?_, ?_, ?_, fun b => year_le_of_stampOk, fun b hlate => ?_⟩
  · rintro rfl
    exact monthDays_february y
  · exact (leapYear_iff 2000).mpr (.inl (by decide))
  · rfl
  · rfl
  · rfl
  · rw [Bool.eq_false_iff]
    exact fun hok => absurd (day_le_of_stampOk hok) (Nat.not_le.mpr hlate)

end Sys2Proof.Machine
end

section
/-! SUPPORT. The PCIe endpoint (R420, R484, R486, R488): its resets, the training of its link and the wake message stay inside it. -/

namespace Sys2Proof.Machine

variable (s : State)

/-! ### What stays inside the endpoint -/

/-- From `s` to `t` no register but PWR_WAKE reads otherwise, and no part of the state but the endpoint and the count of free values differs. -/
def State.EndpointOnly (s t : State) : Prop :=
  s.SameRegsBut t [PWR_WAKE] ∧ t = { s with regs := t.regs, pcie := t.pcie, free := t.free }

theorem State.EndpointOnly.trans {s t u : State} (h : s.EndpointOnly t) (k : t.EndpointOnly u) : s.EndpointOnly u := by
  obtain ⟨hrd, hst⟩ := h
  obtain ⟨krd, kst⟩ := k
  refine ⟨fun a ha => (krd a ha).trans (hrd a ha), ?_⟩
  rw [kst, hst]

theorem State.onPcie_endpointOnly (f : Pcie → Pcie) : s.EndpointOnly (s.onPcie f) := ⟨fun _ _ => rfl, rfl⟩

theorem State.drawn_endpointOnly : s.EndpointOnly s.drawn := ⟨fun _ _ => rfl, rfl⟩

/-- A flag set where the registers are those of `s` changes its own register only. -/
theorem State.setFlag_sameRegsBut {u : State} (f : Fld) (b : Bool) (h : u.regs = s.regs) : s.SameRegsBut (u.setFlag f b) [f.reg] :=
  fun a ha => (u.rd_setFlag_ne f b (List.ne_of_not_mem_cons ha)).trans (congrArg (SMap.get (regReset a) · a) h)

theorem State.setFlag_endpointOnly (f : Fld) (b : Bool) (hf : f.reg = PWR_WAKE) : s.EndpointOnly (s.setFlag f b) :=
  ⟨hf ▸ s.setFlag_sameRegsBut f b rfl, rfl⟩

/-! ### The link trains (R481, R484) -/

theorem getD_mem_of_lt {α : Type} {l : List α} {i : Nat} (d : α) (h : i < l.length) : l.getD i d ∈ l := by
  rw [List.getD_eq_getElem?_getD, List.getElem?_eq_getElem h, Option.getD_some]
  exact List.getElem_mem h

/-- Where the link may train it comes up, at a width and a rate it can train at; elsewhere it is down. -/
theorem State.trainLink_cases :
    (s.linkReady = true ∧ ∃ w ∈ linkWidths, ∃ r ∈ linkRates,
      s.trainLink = s.drawn.onPcie fun p => { p with link := true, width := w, rate := r }) ∨
    (s.linkReady = false ∧ s.trainLink = s.onPcie fun p => { p with link := false, width := 0, rate := 0 }) := by
  unfold State.trainLink
  cases hready : s.linkReady with
  | true => exact .inl ⟨rfl, _, getD_mem_of_lt 16 (Nat.mod_lt _ (by decide)), _, getD_mem_of_lt 64 (Nat.mod_lt _ (by decide)), rfl⟩
  | false => exact .inr ⟨rfl, rfl⟩

theorem State.trainLink_endpointOnly : s.EndpointOnly s.trainLink := by
  rcases s.trainLink_cases with ⟨-, w, -, r, -, heq⟩ | ⟨-, heq⟩
  · rw [heq]
    exact s.drawn_endpointOnly.trans (s.drawn.onPcie_endpointOnly _)
  · rw [heq]
    exact s.onPcie_endpointOnly _

@[simp] theorem State.trainLink_regs : s.trainLink.regs = s.regs := by
  rcases s.trainLink_cases with ⟨-, w, -, r, -, heq⟩ | ⟨-, heq⟩ <;> rw [heq] <;> rfl

/-- Training settles whether the link is up, its width and its rate, and nothing else of the endpoint. -/
theorem State.trainLink_pcie :
    s.trainLink.pcie = { s.pcie with link := s.linkReady, width := s.trainLink.pcie.width, rate := s.trainLink.pcie.rate } := by
  rcases s.trainLink_cases with ⟨hready, w, -, r, -, heq⟩ | ⟨hready, heq⟩ <;> rw [heq, hready] <;> rfl

@[simp] theorem State.trainLink_perst : s.trainLink.pcie.perst = s.pcie.perst := by rw [s.trainLink_pcie]

theorem State.linkReady_iff :
    s.linkReady = true ↔ s.powered = true ∧ s.boot.endpoint = true ∧ s.pcie.perst = false ∧ bitOf s.gates 14 = true ∧
      s.flag CLK_STATUS_on_iosc = false := by
  simp only [State.linkReady, Bool.and_eq_true, Bool.not_eq_true', and_assoc]

/-- In `t` the link is up exactly where the endpoint is released, clocked and out of PERST_N and the reference of `s` has not failed, and then at a
width and a rate of R481. -/
def State.Trains (s t : State) : Prop :=
  (t.pcie.link = true ↔ s.powered = true ∧ s.boot.endpoint = true ∧ t.pcie.perst = false ∧ bitOf s.gates 14 = true ∧
    s.flag CLK_STATUS_on_iosc = false) ∧
  (t.pcie.link = true → t.pcie.width ∈ [16, 8, 4, 2, 1] ∧ t.pcie.rate ∈ linkRates)

theorem State.trainLink_trains : s.Trains s.trainLink := by
  have hlink : s.trainLink.pcie.link = s.linkReady := congrArg Pcie.link s.trainLink_pcie
  refine ⟨by rw [hlink, s.trainLink_perst, s.linkReady_iff], fun hup => ?_⟩
  rcases s.trainLink_cases with ⟨-, w, hw, r, hr, heq⟩ | ⟨hdown, -⟩
  · rw [heq]
    exact ⟨hw, hr⟩
  · rw [hlink, hdown] at hup
    cases hup

/-- Whether power, clocks and reference let the link train does not depend on the endpoint. -/
theorem State.onPcie_trains (f : Pcie → Pcie) (t : State) : (s.onPcie f).Trains t ↔ s.Trains t := Iff.rfl

theorem State.onPcie_trainLink_endpointOnly (f : Pcie → Pcie) : s.EndpointOnly (s.onPcie f).trainLink :=
  (s.onPcie_endpointOnly f).trans (s.onPcie f).trainLink_endpointOnly

/-! ### The rows -/

variable {s}

/-- A row that is a guarded effect ends with its effect where the guard holds. -/
theorem ends_of_guard {c : Instr} {g : Bool} {t : State} {P : State → Prop} (hexec : exec c s = s.when g t) (hg : g = true) (ht : P t) :
    Ends c s P :=
  ⟨t, by rw [hexec, hg, State.when_true], ht⟩

theorem perstNAssert_ends (hlive : s.pinsLive = true) (hperst : s.pcie.perst = false) :
    Ends .perstNAssert s fun t =>
      t.pcie.perst = true ∧ t.pcie.link = false ∧ t.pcie.vfEnable = false ∧ t.pcie.numVfs = 0 ∧ t.pcie.d3 = false ∧ s.EndpointOnly t := by
  refine ends_of_guard rfl ?_ ⟨rfl, rfl, rfl, rfl, rfl, ?_⟩
  · rw [hlive, hperst]
    rfl
  · exact (s.onPcie_endpointOnly _).trans (State.onPcie_endpointOnly _ _)

theorem perstNDeassert_ends (hlive : s.pinsLive = true) (hperst : s.pcie.perst = true) :
    Ends .perstNDeassert s fun t =>
      t.pcie.perst = false ∧ t.flag PWR_WAKE_wake_n = false ∧ s.Trains t ∧ s.EndpointOnly t := by
  refine ends_of_guard rfl ?_ ⟨?_, State.flag_setFlag_self _ _ _ rfl, ?_, ?_⟩
  · rw [hlive, hperst]
    rfl
  · exact State.trainLink_perst _
  · exact (s.onPcie_trains _ _).mp (State.trainLink_trains _)
  · exact (s.onPcie_trainLink_endpointOnly _).trans (State.setFlag_endpointOnly _ _ _ rfl)

theorem pcieHotReset_ends (h : s.pcie.link = true ∨ s.pcie.l2 = true) :
    Ends .pcieHotReset s fun t =>
      t.pcie.vfEnable = false ∧ t.pcie.numVfs = 0 ∧ t.pcie.d3 = false ∧ t.pcie.l2 = false ∧ t.pcie.perst = s.pcie.perst ∧ s.Trains t ∧
      t.regs = s.regs ∧ s.EndpointOnly t := by
  have hpcie := s.resetEndpoint.trainLink_pcie
  refine ends_of_guard rfl ?_ ⟨congrArg Pcie.vfEnable hpcie, congrArg Pcie.numVfs hpcie, congrArg Pcie.d3 hpcie, congrArg Pcie.l2 hpcie,
    s.resetEndpoint.trainLink_perst, ?_, s.resetEndpoint.trainLink_regs, s.onPcie_trainLink_endpointOnly _⟩
  · rwa [Bool.or_eq_true]
  · exact (s.onPcie_trains _ _).mp (State.trainLink_trains _)

theorem pmeTurnOff_ends (hlink : s.pcie.link = true) :
    Ends .pmeTurnOff s fun t => t.pcie.link = false ∧ t.pcie.l2 = true ∧ t.regs = s.regs ∧ s.EndpointOnly t :=
  ends_of_guard rfl hlink ⟨rfl, rfl, rfl, s.onPcie_endpointOnly _⟩

theorem pmcsrWrite_ends (d3 en clr : Bool) (hlink : s.pcie.link = true) :
    Ends (.pmcsrWrite d3 en clr) s fun t =>
      t.pcie.d3 = d3 ∧ t.pcie.pmeEn = en ∧ t.pcie.pmeStatus = (s.pcie.pmeStatus && !clr) ∧ t.pcie.link = true ∧ t.regs = s.regs ∧
      s.EndpointOnly t :=
  ends_of_guard rfl hlink ⟨rfl, rfl, rfl, hlink, rfl, s.onPcie_endpointOnly _⟩

/-! ### The wake message (R488) -/

section WakeMessage

variable (hdue : s.pcie.pmeDue = true) (hlink : s.pcie.link = true)
include hdue hlink

/-- At its send opportunity a pending wake is sent or ends as collided, by what PMCSR holds then. -/
theorem exec_pmPmeSend :
    exec .pmPmeSend s = .next
      (if s.pcie.d3 && s.pcie.pmeEn then
        (((s.onPcie fun p => { p with pmeDue := false }).emit .pme).onPcie fun p => { p with pmeStatus := true }).setFlag PWR_WAKE_pme_sent true
      else (s.onPcie fun p => { p with pmeDue := false }).setFlag PWR_WAKE_collided true) := by
  show s.when (s.pcie.pmeDue && s.pcie.link) _ = _
  rw [hdue, hlink]
  rfl

theorem pmPmeSend_ends_sent (hd3 : s.pcie.d3 = true) (hen : s.pcie.pmeEn = true) :
    Ends .pmPmeSend s fun t =>
      t.out = .pme :: s.out ∧ t.pcie = { s.pcie with pmeDue := false, pmeStatus := true } ∧ t.flag PWR_WAKE_pme_sent = true ∧
      s.SameRegsBut t [PWR_WAKE] ∧ t.mem = s.mem := by
  have hexec := exec_pmPmeSend hdue hlink
  rw [if_pos (by rw [hd3, hen]; rfl)] at hexec
  exact ⟨_, hexec, by simp, by simp, State.flag_setFlag_self _ _ _ rfl, s.setFlag_sameRegsBut PWR_WAKE_pme_sent true (by simp), by simp⟩

theorem pmPmeSend_ends_collided (hno : s.pcie.d3 = false ∨ s.pcie.pmeEn = false) :
    Ends .pmPmeSend s fun t =>
      t.out = s.out ∧ t.pcie = { s.pcie with pmeDue := false } ∧ t.flag PWR_WAKE_collided = true ∧
      s.SameRegsBut t [PWR_WAKE] ∧ t.mem = s.mem := by
  have hexec := exec_pmPmeSend hdue hlink
  rw [if_neg (Bool.eq_false_iff.mp (Bool.and_eq_false_iff.mpr hno))] at hexec
  exact ⟨_, hexec, rfl, rfl, State.flag_setFlag_self _ _ _ rfl, s.setFlag_sameRegsBut PWR_WAKE_collided true rfl, rfl⟩

end WakeMessage

/-! ### The statement -/

/-- Settles O8: each clause by the lemma of its row. The width and the rate a link trains at are free (log entry 16), and a link that may train is up at
once (log entry 71). -/
theorem endpointResetsAndTheWakeMessage : Obligations.EndpointResetsAndTheWakeMessage :=
  ⟨fun _ => ⟨perstNAssert_ends, perstNDeassert_ends, pcieHotReset_ends, pmeTurnOff_ends, pmcsrWrite_ends⟩,
    fun _ hdue hlink => ⟨pmPmeSend_ends_sent hdue hlink, pmPmeSend_ends_collided hdue hlink⟩⟩

end Sys2Proof.Machine
end
